-- ==== Sys2Proof/Word.lean ====
section
/-! DEFINITION. The words of the SX-9 block model: bytes, 64-bit registers, tables by key, and flits. -/

namespace Sys2Proof

/-- A byte of a structure, a packet or a memory. -/
abbrev Byte := BitVec 8

/-- A 64-bit register as software reads and writes it. -/
abbrev Reg := BitVec 64

/-- A table by key. Keys rise strictly; a key that is not listed holds what the table's owner says. -/
abbrev Tbl (α : Type) := List (Nat × α)

/-- A 128-byte flit (05 R132). -/
abbrev Flit := List Byte

end Sys2Proof
end

