-- ==== Sys2Proof/Syntax.lean ====
section
/-! DEFINITION. The commands of the block: one constructor of `Instr` for each of the 246 rows of
spec/opcode_table.json, with the operands the row's event carries. The table gives no row an encoding,
so the operands follow the rule the row names (log entry 1). -/

namespace Sys2Proof

/-- The four rail groups in power-up order (02 R54). -/
inductive Rail where
  | sram | core | loom | hbm
  deriving DecidableEq, Repr

/-- A command path (14 R432). `gate ep sq`: one supervisor SQ. `inband fen epi`: the sender of arriving
management packets. -/
inductive Path where
  | gate (ep : Nat) (sq : Nat)
  | inband (fen : Nat) (epi : Nat)
  | bellrope
  deriving DecidableEq, Repr

/-- Who asks for a LANE_BITSLIP (03 R89, R91): a command of a path, or the Warden firmware itself with
its 16 parameter bytes. -/
inductive SlipBy where
  | request (path : Path) (tag : Nat)
  | firmware (params : List Byte)
  deriving DecidableEq, Repr

/-- How a host read, AtomicOp or table read ends (07 R556, 09 R278). -/
inductive HostRes where
  | ok (data : List Byte)
  | ur
  | ca
  | poison
  | timeout
  deriving DecidableEq, Repr

/-- A packet header (05 R134, R138): the named fields as numbers, and the reserved bits as they stand.
`ext` is header bits [511:320], whose meaning depends on UNIT (05 R139). -/
structure Hdr where
  dstFen : Nat := 0
  srcFen : Nat := 0
  srcEpoch : Nat := 0
  cls : Nat := 0
  fence : Bool := false
  mode : Nat := 0
  plen : Nat := 0
  rung : Nat := 0
  cmark : Bool := false
  nonmin : Bool := false
  nonminDone : Bool := false
  interGroup : Nat := 0
  hops : Nat := 0
  laValid : Bool := false
  laSet : Nat := 0
  unit : Nat := 0
  opcode : Nat := 0
  dstEpi : Nat := 0
  srcEpi : Nat := 0
  msgSeq : Nat := 0
  msgLen : Nat := 0
  msgOff : Nat := 0
  ext : Nat := 0
  /-- Reserved header bits, at their places in the 512-bit header (05 R136). -/
  reserved : Nat := 0
  deriving DecidableEq, Repr

/-- A packet: header, payload and the ECRC it carries (05 R132, R140). -/
structure Packet where
  hdr : Hdr := {}
  payload : List Byte := []
  ecrc : Nat := 0
  deriving DecidableEq, Repr

/-- A PCIe completion as it arrives (07 R218, R556). -/
structure Completion where
  tag : Nat
  requester : Nat
  byteCount : Nat
  lowerAddr : Nat
  res : HostRes
  /-- Payload bytes of a poisoned completion, whose data nothing uses. -/
  len : Nat
  deriving DecidableEq, Repr

/-- The registers of AER that hold errors, their masks and their severities (07 R200; log entry 3). In a write, the bits of the
two statuses that are 1 are cleared. -/
structure Aer where
  uncStatus : BitVec 32
  uncMask : BitVec 32
  uncSeverity : BitVec 32
  corStatus : BitVec 32
  corMask : BitVec 32
  deriving DecidableEq, Repr

/-- What a host's write of an endpoint's configuration space leaves in the fields that the device acts on and that no row of
their own sets (07 R200, R201, R219 to R222): Command, the BARs, Device Control and Device Control 2, Link Control, MSI-X
control and PMCSR, and the requester ID that a configuration request gives the endpoint. `clearPme` writes 1 to PME_Status.
`maxPayload` and `maxRead` are the codes of Device Control; `tagSize` is 0, 1 or 2 for 8-, 10- and 14-bit tags. `errReport` is
Device Control [3:0], `clearStatus` the 1s written to Device Status [3:0], and `linkControl` Link Control but for ASPM. -/
structure CfgWrite where
  memEnable : Bool
  intxDisable : Bool
  cplTimeout : Nat
  maxPayload : Nat
  maxRead : Nat
  tagSize : Nat
  relaxed : Bool
  atomicReq : Bool
  msixEnable : Bool
  functionMask : Bool
  pmeEn : Bool
  clearPme : Bool
  aspmL1 : Bool
  l0p : Bool
  bar0 : Nat
  bar2 : Nat
  bar4 : Nat
  requester : Nat
  errReport : BitVec 4
  clearStatus : BitVec 4
  linkControl : BitVec 16
  aer : Aer
  deriving DecidableEq, Repr

/-- Code groups received on one T0 lane, the first-received bit of each at bit 0 (03 R83). -/
abbrev Groups := List (BitVec 10)

/-- A wake as its source registers it (16 R497). -/
inductive WakeSource where
  /-- The level of WAKE_IN in consecutive Lantern ticks (02 R63), oldest first. -/
  | wakeIn (samples : List Bool)
  | bellrope
  | attention (cage : Fin 128)
  | linkActivity (port : Fin 128)
  | linkPattern (port : Fin 128)
  | gate (gate : Fin 8)
  deriving DecidableEq, Repr

/-- A symbol of Bellrope (16 R505): a bit, or the delimiter. -/
inductive RopeSym where
  | zero | one | dlm
  deriving DecidableEq, Repr

/-- One access of a memory window: a read of some bytes, or a write of bytes. -/
inductive Access where
  | read (len : Nat)
  | write (data : List Byte)
  deriving DecidableEq, Repr

/-- What a configuration read names: the fields of 07 R200, R220 and R221, and those that a configuration write sets. -/
inductive CfgField where
  | vendorId | deviceId | command | interruptStatus | revisionId | classCode | subsystemVendorId | subsystemId | interruptPin
  | headerType | bar0 | bar2 | bar4
  /-- The capability IDs and the extended capability IDs, in the order of 07 R200. -/
  | capabilities | extCapabilities
  /-- Power Management: PME_Support (bit 3 D3hot, bit 4 D3cold) with No_Soft_Reset, and PMCSR's PowerState, PME_En, PME_Status. -/
  | pmeSupport | noSoftReset | pmcsr
  | deviceCaps | deviceControl | deviceStatus | deviceCaps2 | deviceControl2 | linkCaps | linkControl | linkStatus
  | aerUncStatus | aerUncMask | aerUncSeverity | aerCorStatus | aerCorMask
  /-- Another 32-bit register of an extended capability, by the capability's ID and its offset there. -/
  | extRegister (id off : Nat)
  | serialNumber
  | msixTableSize | msixTableBir | msixPbaBir | msixControl
  deriving DecidableEq, Repr

/-- A configuration request that no row of its own carries: a read of a field, or a write. -/
inductive CfgAccess where
  | read (f : CfgField)
  | write (w : CfgWrite)
  deriving DecidableEq, Repr

/-- A host's access of BAR0, or a read of BAR2 (07 R203, R205). -/
inductive BarAccess where
  | write (off size : Nat) (value : Reg)
  | read (off size : Nat)
  | readDoorbells (off size : Nat)
  deriving DecidableEq, Repr

/-- A completion queue or an event queue, by number (08 R226). -/
inductive RecQ where
  | cq (n : Fin 8192)
  | eq (n : Fin 4096)
  deriving DecidableEq, Repr

/-- The chip-level registers that every region applies at a tick of its own (05 R168, 06 R193, 10 R328,
11 R361, 13 R423). -/
inductive ChipReg where
  | pilotCtrl | pilotTune | fcCtrl | fcMark | carterCtrl | carterWin | scrivCtrl | lockCtrl
  deriving DecidableEq, Repr

/-- Where an error of an array is found (18 R533, R543). -/
inductive ErrScope where
  | chip
  | region (r : Fin 4)
  | block (b : Fin 64)
  deriving DecidableEq, Repr

/-- What uncorrectable data was (18 R534) and, for a cell, which cell (18 R535). -/
inductive ErrData where
  /-- A flit of the packet at a Belfry input, by region, crossbar port and VC. -/
  | flits (r : Fin 4) (input : Nat) (vc : Nat)
  /-- A connection context, by key. -/
  | context (r : Fin 4) (key : Nat)
  /-- An arriving tracker, by key. -/
  | tracker (r : Fin 4) (key : Nat)
  /-- The initiating tracker of an operation, by number. -/
  | operation (r : Fin 4) (id : Nat)
  /-- A PENDING entry of a proxy slice, by its index. -/
  | lockPending (r : Fin 4) (index : Nat)
  /-- The entry that waits for the reply to a remote CMD or to a MGMT_FORWARD, by number. -/
  | call (id : Nat)
  /-- An entry of a translation cache, by place. -/
  | cached (ep : Fin 16) (place : Nat)
  /-- A match-store entry, by number. -/
  | matchEntry (r : Fin 4) (id : Nat)
  /-- A lock cell. -/
  | lockCell (id : Fin 65536)
  /-- A tree context. -/
  | treeContext (r : Fin 4) (id : Nat)
  /-- A route table entry: group table or router table, and index. -/
  | routeEntry (r : Fin 4) (group : Bool) (idx : Nat)
  /-- The running step of a Journeyman engine. -/
  | engineStep (e : Fin 1024)
  /-- An HBM read of a walk, by endpoint and walk. -/
  | hbmWalk (ep : Fin 16) (walk : Nat)
  /-- An unexpected-store block of a match entry. -/
  | hbmBlock (r : Fin 4) (entry : Nat)
  /-- Any other HBM read: of the parked state of a work item, or of the packet that an engine was to write, by the item's number. -/
  | hbmOther (r : Fin 4) (item : Nat)
  /-- Warden memory read by an executing command. -/
  | warden (path : Path) (tag : Nat)
  /-- A cell: a Journeyman engine. -/
  | engine (e : Fin 1024)
  /-- A cell: lane l of port p. -/
  | lane (p : Fin 128) (l : Fin 9)
  /-- A cell: the Belfry input cell of a crossbar port. -/
  | inputCell (r : Fin 4) (x : Fin 64)
  /-- A cell: a bank of an SRAM array of the region. -/
  | bank (r : Fin 4) (array : Nat) (bank : Nat)
  deriving DecidableEq, Repr

/-- What CLOCK_SWITCH measures and which units fail while it runs (14 R455). -/
structure ClockRun where
  /-- The measured offset of NREF in ppm. -/
  ppm : Int
  /-- Regions whose PLL does not lock. -/
  pllFails : List (Fin 4)
  /-- Regions whose HBM stack does not initialise. -/
  hbmFails : List (Fin 4)
  deriving DecidableEq, Repr

/-- The commands of the block. -/
inductive Instr where
  -- 02: power, cages, temperature
  | resetNRelease (straps : BitVec 7)
  | powerGoodHigh (g : Rail)
  | railSettleEnd
  | railStartFault
  | railRemoveNext (pgLow : Bool)
  | brownOut (g : Rail)
  | resetNAsserted
  | lanternClockFault (stoppedNs : Nat)
  | cageScanFrame (din : BitVec 512)
  | thermalSample (readings : List Int)
  | tjSecond
  -- 03: lanes and bring-up
  | portEnableChange (p : Fin 128) (enable : Bool)
  | portRetrain (p : Fin 128)
  | ckDetected (p : Fin 128)
  | trainingTimeout (p : Fin 128)
  | backoffEnd (p : Fin 128)
  | ckLoss (p : Fin 128) (last : Nat)
  | ts1Received (p : Fin 128) (lane : Fin 8) (groups : Groups)
  | ts2Received (p : Fin 128) (lane : Fin 8) (groups : Groups)
  | countdownEnd (p : Fin 128)
  | phaseAcquired (p : Fin 128)
  | trainingWordReceived (p : Fin 128) (lane : Fin 8) (word : List Byte)
  | laneBitslipCapture (who : SlipBy) (raw : List (List Byte))
  | laneBitslipSlip (who : SlipBy)
  | laneBitslipCheck (who : SlipBy) (seen : List (Nat × Nat))
  | laneBitslipRead (who : SlipBy)
  | lanePhaseFail (p : Fin 128) (lane : Fin 8)
  | laneErrorWindow (p : Fin 128)
  | txSleepEntry (p : Fin 128)
  | txWake (p : Fin 128)
  | wakeFail (p : Fin 128)
  | sleepRefresh (p : Fin 128)
  | limpFrameReceived (p : Fin 128) (lanes : List Groups)
  | fcReceived (p : Fin 128) (lane : Fin 8) (groups : Groups)
  | limpFcSend (p : Fin 128)
  | limpRetry (p : Fin 128)
  -- 04: link layer
  | linkUnitReceived (p : Fin 128) (slot : List (List Byte))
  | linkUnitSend (p : Fin 128)
  | resendTimeout (p : Fin 128)
  | nakRepeat (p : Fin 128)
  | creditTimeout (p : Fin 128)
  | replayHoldEnd (p : Fin 128)
  -- 05: routing
  | packetHeaderRegistered (r : Fin 4) (input : Fin 64) (pkt : Packet)
  | epochPropagate (r : Fin 4)
  | liveMaskUpdate (r : Fin 4) (p : Fin 128)
  | buttressSidebandReport (r : Fin 4)
  | routeWrite (path : Path) (tag : Nat)
  | routeCopy (path : Path) (tag : Nat)
  | routeCommit (path : Path) (tag : Nat)
  | routeRead (path : Path) (tag : Nat)
  | chipRegisterApply (r : Fin 4) (reg : ChipReg)
  -- 06: flow control
  | flitStore (p : Fin 128) (vc : Fin 20) (flit : Flit)
  | internalFlitAccept (r : Fin 4) (input : Fin 64) (vc : Fin 20)
  | goStatusUpdate (r : Fin 4)
  | switchAllocation (r : Fin 4) (output : Fin 64)
  | egressSelect (p : Fin 128)
  | mgmtHoldExpiry (r : Fin 4) (id : Nat)
  -- 07: gates
  | perstAsserted (g : Fin 8)
  | perstReleased (g : Fin 8)
  | linkActive (ep : Fin 16) (width rate : Nat) (flit : Bool)
  | surpriseRemoval (ep : Fin 16)
  | busMasterEnableSet (ep : Fin 16)
  | busMasterEnableClear (ep : Fin 16)
  | powerStateD3hot (ep : Fin 16)
  | powerStateD0 (ep : Fin 16)
  | functionLevelReset (ep : Fin 16)
  | hotReset (ep : Fin 16)
  | gateStop (ep : Fin 16)
  | completionReceived (ep : Fin 16) (c : Completion)
  | cplTimeout (ep : Fin 16) (tag : Nat)
  | tagQuarantineEnd (ep : Fin 16) (tag : Nat)
  | bar4Access (ep : Fin 16) (off : Nat) (acc : Access)
  | l1EntryRequest (ep : Fin 16)
  | l0pWindow (ep : Fin 16) (upPercent downPercent : Nat)
  -- 08: queues
  | sqDoorbell (ep : Fin 16) (off : Nat) (data : List Byte)
  | sqPush (ep : Fin 16) (off : Nat) (data : List Byte)
  | cqDoorbell (ep : Fin 16) (off : Nat) (data : List Byte)
  | sqEnable (ep : Fin 16) (sq : Fin 8192) (cfg : Reg)
  | sqDisable (ep : Fin 16) (sq : Fin 8192) (cfg : Reg)
  | sqDrainDone (ep : Fin 16) (sq : Fin 8192)
  | sqReset (ep : Fin 16) (sq : Fin 8192)
  | sqResetEnd (ep : Fin 16) (sq : Fin 8192)
  | cqEnable (ep : Fin 16) (q : RecQ) (cfg : Reg)
  | cqDisable (ep : Fin 16) (q : RecQ) (cfg : Reg)
  | entryFetch (ep : Fin 16)
  | ringFetchFail (ep : Fin 16) (sq : Fin 8192) (res : HostRes)
  | nop (ep : Fin 16) (sq : Fin 8192)
  | chain (ep : Fin 16) (sq : Fin 8192)
  | put (ep : Fin 16) (sq : Fin 8192)
  | putInline (ep : Fin 16) (sq : Fin 8192)
  | get (ep : Fin 16) (sq : Fin 8192)
  | putSignal (ep : Fin 16) (sq : Fin 8192)
  | atomic64 (ep : Fin 16) (sq : Fin 8192)
  | atomic128 (ep : Fin 16) (sq : Fin 8192)
  | send (ep : Fin 16) (sq : Fin 8192)
  | sendInline (ep : Fin 16) (sq : Fin 8192)
  | recv (ep : Fin 16) (sq : Fin 8192)
  | coll (ep : Fin 16) (sq : Fin 8192)
  | lock (ep : Fin 16) (sq : Fin 8192)
  | unlock (ep : Fin 16) (sq : Fin 8192)
  | cmd (ep : Fin 16) (sq : Fin 8192)
  -- 09: translation and keys
  | walkReadComplete (ep : Fin 16) (walk : Nat) (res : HostRes)
  | invalRange (ep : Fin 16) (op : Reg)
  | invalPasid (ep : Fin 16) (op : Reg)
  | invalKey (ep : Fin 16) (op : Reg)
  | invalAll (ep : Fin 16) (op : Reg)
  | invalidationComplete (ep : Fin 16)
  | keySet (ep : Fin 16)
  | keyRevoke (ep : Fin 16)
  | keyRevokeComplete (ep : Fin 16) (slot : Fin 1024)
  | hbmApertureAccess (ep : Fin 16) (off : Nat) (acc : Access)
  -- 10: remote access
  | putDataReceived (r : Fin 4) (pkt : Packet)
  | getReqReceived (r : Fin 4) (pkt : Packet)
  | atomicReceived (r : Fin 4) (pkt : Packet)
  | signalReceived (r : Fin 4) (pkt : Packet)
  | targetReadComplete (r : Fin 4) (work : Nat) (res : HostRes)
  | atomicHostComplete (r : Fin 4) (work : Nat) (res : HostRes)
  | placementDone (r : Fin 4) (work : Nat)
  | ackDelayExpiry (r : Fin 4) (tracker : Nat)
  | ackMapExpiry (r : Fin 4) (conn : Nat)
  | ackReceived (r : Fin 4) (pkt : Packet)
  | ackMapReceived (r : Fin 4) (pkt : Packet)
  | getDataReceived (r : Fin 4) (pkt : Packet)
  | atomicRespReceived (r : Fin 4) (pkt : Packet)
  | refuseReceived (r : Fin 4) (pkt : Packet)
  | packetInject (g : Fin 8)
  | retryLaterResend (r : Fin 4) (op : Nat) (off : Nat)
  | msgTimeout (r : Fin 4) (op : Nat)
  | atomicTimeout (r : Fin 4) (op : Nat)
  | trackerExpiry (r : Fin 4) (tracker : Nat)
  -- 11: matching
  | sendDataReceived (r : Fin 4) (pkt : Packet)
  | rtsReceived (r : Fin 4) (pkt : Packet)
  | rtsAckReceived (r : Fin 4) (pkt : Packet)
  | rndvGetReceived (r : Fin 4) (pkt : Packet)
  | rndvDataReceived (r : Fin 4) (pkt : Packet)
  | rndvFinReceived (r : Fin 4) (pkt : Packet)
  | rndvPullStart (r : Fin 4)
  | uxCopy (r : Fin 4) (entry : Nat)
  | gapTimerExpiry (r : Fin 4) (conn : Nat)
  | matchEntryExpiry (r : Fin 4) (entry : Nat)
  | lentIdleExpiry (r : Fin 4) (op : Nat)
  | lendTimeout (r : Fin 4) (op : Nat)
  | ageSweep (r : Fin 4)
  -- 12: collectives
  | collUpReceived (r : Fin 4) (pkt : Packet)
  | collDownReceived (r : Fin 4) (pkt : Packet)
  | collCreditReceived (r : Fin 4) (pkt : Packet)
  | contribReadComplete (r : Fin 4) (tree child seg : Nat) (res : HostRes)
  | upWindowExpiry (r : Fin 4) (tree : Nat)
  | downWindowExpiry (r : Fin 4) (tree : Nat)
  | treeSet (path : Path) (tag : Nat)
  | treeClear (path : Path) (tag : Nat)
  | treeAbort (path : Path) (tag : Nat)
  | treeAbortDone (r : Fin 4) (tree : Nat)
  | treeRead (path : Path) (tag : Nat)
  -- 13: locks
  | lockAtCell (r : Fin 4) (pkt : Packet)
  | unlockAtCell (r : Fin 4) (pkt : Packet)
  | cancel (r : Fin 4) (pkt : Packet)
  | grantReceived (r : Fin 4) (pkt : Packet)
  | queuedReceived (r : Fin 4) (pkt : Packet)
  | busyReceived (r : Fin 4) (pkt : Packet)
  | unlockDoneReceived (r : Fin 4) (pkt : Packet)
  | inheritReceived (r : Fin 4) (pkt : Packet)
  | disinheritReceived (r : Fin 4) (pkt : Packet)
  | lockRepeatTimeout (r : Fin 4) (pend : Nat)
  | lockProbe (r : Fin 4) (pend : Nat)
  | lockForceRelease (path : Path) (tag : Nat)
  | lockAbandon (path : Path) (tag : Nat)
  | lockRead (path : Path) (tag : Nat)
  -- 14: commands
  | commandIntake (r : Fin 4) (pkt : Packet)
  | commandReplyReceived (r : Fin 4) (pkt : Packet)
  | interimSend (path : Path) (tag : Nat)
  | cmdTimeout (call : Nat)
  | nopCommand (path : Path) (tag : Nat)
  | regRead (path : Path) (tag : Nat)
  | regWrite (path : Path) (tag : Nat)
  | regModify (path : Path) (tag : Nat)
  | authNonce (path : Path) (tag : Nat)
  | mgmtForward (path : Path) (tag : Nat)
  | cmdAbort (path : Path) (tag : Nat)
  | counterRead (path : Path) (tag : Nat)
  | counterClear (path : Path) (tag : Nat)
  | cageSet (path : Path) (tag : Nat)
  | cageStatus (path : Path) (tag : Nat)
  | cagePgTimeout (cage : Fin 128)
  | clockSwitch (path : Path) (tag : Nat) (run : ClockRun)
  | bellropeAddressMatch (addr : BitVec 7) (wake : Bool)
  | bellropeRequest (symbols : List RopeSym)
  | bellropeAnswer
  -- 15: twins, blocks, regions
  | twinSet (path : Path) (tag : Nat)
  | twinStatus (path : Path) (tag : Nat)
  | twinTakeoverTake (path : Path) (tag : Nat)
  | twinTakeoverRelease (path : Path) (tag : Nat)
  | twinHeartbeat (path : Path) (tag : Nat)
  | heartbeatIssue
  | twinDeath
  | heartbeatSilenceFence
  | engineDispatch (b : Fin 64)
  | blockReset (path : Path) (tag : Nat)
  | blockLoad (path : Path) (tag : Nat)
  | blockMigrationEnd (b : Fin 64)
  | blockCodeLoaded (b : Fin 64) (good : Bool)
  | regionDrain (path : Path) (tag : Nat)
  | regionDrained (r : Fin 4)
  | regionReset (path : Path) (tag : Nat)
  | regionReady (r : Fin 4) (stillBad : List Nat)
  | regionResume (path : Path) (tag : Nat)
  -- 16: power states
  | powerSet (path : Path) (tag : Nat)
  | powerEntryWindowOpen
  | powerEntryWindowEnd
  | wakeRegistered (src : WakeSource)
  | linkPatternDetected (p : Fin 128) (bursts gaps : List Nat)
  | powerExitDone
  | wakeConfig (path : Path) (tag : Nat)
  | linkPatternSend (path : Path) (tag : Nat)
  | powerStatus (path : Path) (tag : Nat)
  -- 17: start-up
  | bootStart (readFails : List Bool)
  | engineCodeLoad (readFail : Bool)
  | flashRead (path : Path) (tag : Nat)
  | flashErase (path : Path) (tag : Nat) (flashError : Bool)
  | flashWrite (path : Path) (tag : Nat) (flashError : Bool)
  | imageActivate (path : Path) (tag : Nat) (readFail : Bool)
  | attest (path : Path) (tag : Nat)
  | identityCert (path : Path) (tag : Nat)
  | chipReset (path : Path) (tag : Nat)
  | chipResetDelayEnd
  -- 18: errors, counters, events
  | secdedCorrection (scope : ErrScope) (hbm : Bool)
  | uncorrectableError (scope : ErrScope) (what : ErrData)
  | spareCopy (r : Fin 4) (array bank : Nat) (dropped : List ErrData)
  | errorWindowEnd
  | eventRaise
  | holdoffEnd (src : Fin 1408)
  | evtPendClear (ep : Fin 16) (word : Fin 22) (value : Reg)
  | counterWriteClear (ep : Fin 16) (off : Nat) (size : Nat)
  | eventMapSet (path : Path) (tag : Nat)
  | eventMapRead (path : Path) (tag : Nat)
  | quarantineRead (path : Path) (tag : Nat)
  | eventInject (path : Path) (tag : Nat)
  | registerWrite (ep : Fin 16) (acc : BarAccess)
  | vlanternApplied
  | vlanternRemoved
  | ckBeaconEnd (p : Fin 128)
  | interruptConfigWrite (ep : Fin 16) (acc : CfgAccess)
  | msixVectorUnmask (ep : Fin 16) (vector : Fin 2048)
  | d3coldEntry (ep : Fin 16)
  | connIdleExpiry (r : Fin 4) (conn : Nat)
  | bellropeLongNull (ns : Nat)
  deriving DecidableEq, Repr

end Sys2Proof
end

