-- ==== Sys2Proof/Decode.lean ====
section
/-! DEFINITION. The table of commands gives no row an encoding in bits, so no word spells a command: a block takes
commands, and has no instruction decoder (log entry 1). -/

namespace Sys2Proof

/-- The command that a word of `nbits` bits spells by the table: none, since the table gives no bits. -/
def decodeTableWord (_nbits _w : Nat) : Option Instr := none

end Sys2Proof
end

