-- ==== Sys2Proof/Machine/Bits.lean ====
section
/-! DEFINITION. Bit fields, byte orders, sign extension, and the CRC codes of the spec. -/

namespace Sys2Proof.Machine

/-! ## Bits of a number -/

/-- Bits [h:l] of a number (00 R4). -/
def bits (x h l : Nat) : Nat := (x >>> l) % 2 ^ (h + 1 - l)

/-- Bit i of a number. -/
def bit (x i : Nat) : Bool := bits x i i == 1

/-- A Bool as a bit. -/
def b2n (b : Bool) : Nat := if b then 1 else 0

/-- `x` with bit i as given. -/
def putBit (x i : Nat) (b : Bool) : Nat :=
  if bit x i == b then x else if b then x + 2 ^ i else x - 2 ^ i

/-- Bits [h:l] of `x` replaced by `v`. -/
def putBits (x h l v : Nat) : Nat :=
  x - (bits x h l) <<< l + (v % 2 ^ (h + 1 - l)) <<< l

/-- The number of bits set among bits 0 to n - 1. -/
def popCount (x : Nat) : Nat → Nat
  | 0 => 0
  | n + 1 => popCount x n + b2n (bit x n)

/-- The bits set among bits 0 to n - 1, ascending. -/
def setBits (x n : Nat) : List Nat := (List.range n).filter (bit x)

/-- Fields (value, width) laid end to end, the first at bit 0. -/
def pack : List (Nat × Nat) → Nat
  | [] => 0
  | (v, w) :: fs => v % 2 ^ w + (pack fs) <<< w

/-- A number of `w` bits read as two's complement. -/
def toSigned (w x : Nat) : Int :=
  if bit x (w - 1) then (Int.ofNat (x % 2 ^ w)) - Int.ofNat (2 ^ w) else Int.ofNat (x % 2 ^ w)

/-- An integer as `w` bits of two's complement. -/
def ofSigned (w : Nat) (x : Int) : Nat := (x % Int.ofNat (2 ^ w)).toNat

/-- `x` held between two limits. -/
def clamp (lo hi x : Nat) : Nat := if x < lo then lo else if hi < x then hi else x

/-- `x` rounded up to a multiple of `k`. -/
def roundUp (k x : Nat) : Nat := (x + (k - 1)) / k * k

/-! ## Bytes -/

/-- The little-endian value of bytes (00 R5). -/
def leNat : List Byte → Nat
  | [] => 0
  | b :: bs => b.toNat + 256 * leNat bs

/-- The low `n` bytes of a number, little-endian (00 R5). -/
def leBytes : Nat → Nat → List Byte
  | 0, _ => []
  | n + 1, x => BitVec.ofNat 8 x :: leBytes n (x / 256)

/-- Bytes [i, i + n) of a list; missing bytes read as 0. -/
def sliceBytes (bs : List Byte) (i n : Nat) : List Byte :=
  let t := (bs.drop i).take n
  t ++ List.replicate (n - t.length) 0

/-- Little-endian value of bytes [i, i + n) of a structure. -/
def field (bs : List Byte) (i n : Nat) : Nat := leNat (sliceBytes bs i n)

/-- Byte i of a structure. -/
def byteAt (bs : List Byte) (i : Nat) : Nat := field bs i 1

/-- Bytes [i, i + xs.length) of a structure replaced by `xs`. -/
def putBytes (bs : List Byte) (i : Nat) (xs : List Byte) : List Byte :=
  bs.take i ++ xs ++ bs.drop (i + xs.length)

/-- `n` zero bytes. -/
def zeros (n : Nat) : List Byte := List.replicate n 0

/-- Whether every byte is zero. -/
def allZero (bs : List Byte) : Bool := bs.all (· == 0)

/-- Bytes as 64-bit little-endian words. -/
def words64 (bs : List Byte) : Nat → List Nat
  | 0 => []
  | n + 1 => field bs 0 8 :: words64 (bs.drop 8) n

/-- 64-bit words as bytes. -/
def bytesOf64 (ws : List Nat) : List Byte := ws.flatMap (leBytes 8)

/-! ## Codes -/

/-- One bit step of a reflected CRC. -/
def crcStepR (poly c : Nat) : Nat := if bit c 0 then (c >>> 1) ^^^ poly else c >>> 1

/-- Eight bit steps of a reflected CRC over one byte. -/
def crcByteR (poly c : Nat) (b : Byte) : Nat :=
  let f := crcStepR poly
  f (f (f (f (f (f (f (f (c ^^^ b.toNat))))))))

/-- CRC-32C (05 R140): polynomial 0x1EDC_6F41 reflected. -/
def crc32c (bs : List Byte) : Nat :=
  (bs.foldl (crcByteR 0x82F63B78) 0xFFFFFFFF) ^^^ 0xFFFFFFFF

/-- CRC-32 with polynomial 0x04C1_1DB7, bit 0 of each byte first, inverted (03 R103, 04 R113). -/
def crc32 (bs : List Byte) : Nat :=
  (bs.foldl (crcByteR 0xEDB88320) 0xFFFFFFFF) ^^^ 0xFFFFFFFF

/-- One bit step of a CRC of `w` bits, most significant bit first. -/
def crcStepL (w poly c : Nat) : Nat :=
  if bit c (w - 1) then (c * 2 % 2 ^ w) ^^^ poly else c * 2 % 2 ^ w

/-- Eight bit steps of such a CRC over one byte. -/
def crcByteL (w poly c : Nat) (b : Byte) : Nat :=
  let f := crcStepL w poly
  f (f (f (f (f (f (f (f (c ^^^ (b.toNat <<< (w - 8))))))))))

/-- CRC-8 with polynomial x^8 + x^2 + x + 1 and initial value 0 (03 R84). DESIGN CHOICE: each byte is fed most significant
bit first; the spec gives no bit order (log entry 17). -/
def crc8 (bs : List Byte) : Nat := bs.foldl (crcByteL 8 0x07) 0

/-- CRC-16 with polynomial 0x1021 and initial value 0xFFFF (03 R86). DESIGN CHOICE: each byte is fed most significant bit
first; the spec gives no bit order (log entry 17). -/
def crc16 (bs : List Byte) : Nat := bs.foldl (crcByteL 16 0x1021) 0xFFFF

end Sys2Proof.Machine
end

