-- ==== Sys2Proof/Config.lean ====
section
/-! DEFINITION. What the spec leaves open or fixes outside itself: fused values, cryptographic functions and
free values. Every constant here is opaque, or built from opaque ones: no proof can see a value of it (log entries 5 to 8). -/

namespace Sys2Proof.Config

open Sys2Proof.Machine

/-- IDENT.STEP, fused (00 R19). -/
opaque step : BitVec 8
/-- IDENT.FAB, fused (00 R19). -/
opaque fab : BitVec 4
/-- IDENT.ASSY, fused (00 R19). -/
opaque assy : BitVec 4
/-- IDENT.PKGREV, fused (00 R19). -/
opaque pkgrev : BitVec 4
/-- IDENT.SERIAL, fused (00 R19, R21). -/
opaque serial : BitVec 48
/-- IDENT.ROMREV, fused (00 R19). -/
opaque romrev : BitVec 8

/-- The 512 bits of SHAKE256 (17 R518), as FIPS 202 defines it. -/
opaque shake512 : List Byte → BitVec 512
/-- SHAKE256 as every rule uses it (17 R518): the 64 bytes of its 512-bit output. -/
def shake256 (m : List Byte) : List Byte := leBytes 64 (shake512 m).toNat

/-- The fused IDENTITY_SEED (17 R517): the 57-byte Ed448 private key of the device, which no command reads. -/
opaque identitySeed : BitVec 456
/-- The Ed448 public key of a private key (17 R518, RFC 8032). -/
opaque ed448Public : BitVec 456 → BitVec 456
/-- The PureEdDSA signature by a private key over a message, with an empty context (17 R518, RFC 8032). -/
opaque ed448Sign : BitVec 456 → List Byte → BitVec 912
/-- The key, message and signature triples that RFC 8032 accepts (17 R518), beside those of the device's own key. -/
opaque ed448Accepts : List Byte → List Byte → List Byte → Bool

/-- Public key of IDENTITY_SEED (17 R528): 57 bytes. -/
def identityKey : List Byte := leBytes 57 (ed448Public identitySeed).toNat
/-- A signature by IDENTITY_SEED over a message (17 R517, R529): 114 bytes. -/
def identitySign (m : List Byte) : List Byte := leBytes 114 (ed448Sign identitySeed m).toNat
/-- PureEdDSA Ed448 verification with an empty context (17 R518): key, message, signature. What the device signs verifies under its own
key. -/
def ed448Verify (key m sig : List Byte) : Bool := ed448Accepts key m sig || (key == identityKey && sig == identitySign m)

/-- The fused KEY_DIGEST (17 R517). -/
opaque keyFuse : BitVec 512
/-- KEY_DIGEST's 64 bytes. -/
def keyDigest : List Byte := leBytes 64 keyFuse.toNat
/-- MFG_DATE of the fused IDENTITY_CERT (17 R528). -/
opaque mfgDate : Nat
/-- CA_INDEX of the fused IDENTITY_CERT (17 R528). -/
opaque caIndex : Nat
/-- CA_SIGNATURE of the fused IDENTITY_CERT (17 R528). -/
opaque caFuse : BitVec 912
/-- CA_SIGNATURE's 114 bytes. -/
def caSignature : List Byte := leBytes 114 caFuse.toNat

/-- The device's random source (14 R442): the n-th nonce drawn. -/
opaque nonce : Nat → BitVec 64
/-- Whether a cached translation has been evicted before the n-th lookup that finds one (09 R281). -/
opaque evicted : Nat → Bool
/-- Which entry of a region's full translation cache the n-th fill of a full cache puts out (09 R281). -/
opaque victim : Nat → Nat
/-- How long after link-up, or after a function-level reset, an endpoint's configuration space becomes ready (07 R199, R216), ns. -/
opaque cfgDelay : Nat → Nat
/-- Which Belfry tick of its 2 µs window a region swaps at (05 R163): an offset, taken modulo the window. -/
opaque swapOffset : Nat → Nat
/-- How many packets of a class the intake of a unit holds beyond one, by crossbar port and class (06 R183). -/
opaque intakeMore : Nat → Nat → Nat
/-- What flash beyond the fitted part reads (17 R525), by address. -/
opaque beyondFlash : Nat → Byte
/-- Size in bytes of the fitted flash (02 R69); the spec gives 4 MiB to 64 MiB. -/
opaque flashSize : Nat

/-- Banks of an SRAM array of a region, by the array's number, which the spec does not give (18 R536). -/
opaque sramBanks : Nat → Nat
/-- Spare banks of an SRAM array: one for each 64 of its banks (18 R536). -/
def spareBanks (array : Nat) : Nat := sramBanks array / 64

/-- What a host's read of a register, or of HBM, of an island that does not run brings back (01 R34, 07 R203, R206). -/
opaque deadRead : Nat → BitVec 64

/-- What a register of an extended capability reads whose contents the spec leaves to the PCI Express 6.0 Base Specification and to
the link (07 R200): the capability's ID and the offset, at each read a value of its own. -/
opaque extRegister : Nat → Nat → Nat → BitVec 32
/-- A value that the spec does not state, by the number it is drawn at: the elements of a collective segment to which
no child contributed (12 R392). -/
opaque unstated : Nat → BitVec 64

end Sys2Proof.Config
end

