-- ==== Sys2Proof/Machine/State.lean ====
section
/-! DEFINITION. The state of the SX-9 as plain data: every register, table, queue, counter, mode and pin the
spec gives the device, and the queue of waiting commands. A `Tbl` lists only the objects that differ from
their reset record or that exist; the accessors of Machine/Ops.lean say what an unlisted key holds. -/

namespace Sys2Proof.Machine

/-! ## Stops -/

/-- No command of this block ends in a fault: the device has none (00 R2, 18 introduction). -/
inductive Fault where
  deriving DecidableEq, Repr

/-- Why a command has no meaning. -/
inductive Refusal where
  /-- The command named is not modelled. Raised by an arm of `exec` only; safe. -/
  | notModelled (mnemonic : String)
  deriving DecidableEq, Repr

/-! ## What leaves the device -/

/-- Why a host access is made (07 R555). -/
inductive Use where
  | ring | chain | payload | walk | command | atomic | result | record | reply | grant
  deriving DecidableEq, Repr

/-- PCIe AtomicOps the device issues (10 R296). -/
inductive HostOp where
  | fetchAdd | swap | cas
  deriving DecidableEq, Repr

/-- One thing the device emits. The list `State.out` holds them in order, oldest first. -/
inductive Output where
  /-- A packet injected at a crossbar port of a region by one of the device's units. -/
  | packet (region xport : Nat) (pkt : Packet)
  /-- A memory read issued upstream. -/
  | hostRead (ep tag addr len : Nat) (use : Use)
  /-- A posted write issued upstream; `relaxed` is its Relaxed Ordering bit (07 R219). -/
  | hostWrite (ep addr : Nat) (data : List Byte) (relaxed : Bool) (use : Use)
  /-- An AtomicOp issued upstream. -/
  | hostAtomic (ep tag : Nat) (op : HostOp) (width addr operand compare : Nat)
  /-- An MSI-X message of a vector (07 R220). -/
  | msix (ep vector : Nat)
  /-- Assert_INTA or Deassert_INTA (07 R220). -/
  | inta (ep : Nat) (on : Bool)
  /-- A PME message (07 R221). -/
  | pme (ep : Nat)
  /-- A report through AER (07 R201, R217, R556): 0 completion timeout, 1 unexpected completion, 2 poisoned. -/
  | aer (ep kind : Nat)
  /-- The link of an endpoint starts training (07 R199) or asks for L1 (07 R222). -/
  | pcieTrain (ep : Nat)
  | pcieL1 (ep : Nat)
  /-- The data a register, window or configuration read returns; none is Unsupported Request. -/
  | readData (ep : Nat) (data : Option (List Byte))
  /-- Request Retry Status, to a configuration request that comes before the configuration space is ready (07 R199). -/
  | cfgRetry (ep : Nat)
  /-- What a lane sends at T1 to T3, a training word or its part of a wire slot, as line symbols in the order sent
  (03 R76, R86, 04 R109). -/
  | lane (port lane : Nat) (symbols : List Nat)
  /-- What a lane sends at T0, an ordered set or its share of a frame, as code groups (03 R83 to R85, R103). -/
  | t0 (port lane : Nat) (groups : List Nat)
  /-- The transmit CK lane: 0 off, 1 full rate, 2 beacon, 3 the four-burst wake pattern (03 R75, R100, 16 R498). -/
  | ckOut (port mode : Nat)
  /-- A flit released by Tollkeeper to the Belfry crossing (04 R116). -/
  | rxFlit (port vc : Nat) (flit : Flit)
  /-- Tollkeeper tells Belfry that the packet in progress on a VC is truncated (04 R128). -/
  | rxTruncated (port vc : Nat)
  /-- A packet delivered to a unit of this device at a crossbar port (05 R144). -/
  | deliver (region xport : Nat) (pkt : Packet)
  /-- A cage scan frame: the 512 bits shifted out and loaded (02 R67). -/
  | cageFrame (dout : BitVec 512)
  /-- An Ocmiset REPLY or INTERIM of a command path, as its whole packet (14 R426). -/
  | reply (path : Path) (bytes : List Byte)
  /-- The answer of a Bellrope frame: LEN and the reply bytes strobed out (16 R508). -/
  | bellrope (answer : List Byte)
  /-- The levels that BR_ACK takes one after another (16 R506, R508). -/
  | brAck (levels : List Bool)
  /-- Flash commands on SPI (02 R69): 0 erase a sector, 1 program bytes. -/
  | spi (kind addr : Nat) (data : List Byte)
  deriving DecidableEq, Repr

/-! ## 02 and 16: the Lantern domain -/

/-- Where rail sequencing stands (02 R54 to R58). -/
inductive RailPhase where
  | off
  /-- A group's enable was asserted at this time and its power-good has not come (02 R55). -/
  | waiting (g : Rail) (since : Nat)
  /-- The group's power-good came at this time; 100 µs settle (02 R54). -/
  | settling (g : Rail) (since : Nat)
  | up
  /-- Rails are being removed; the enable last deasserted and when (02 R56). The removal ends once the power-good of the
  last one has gone low, or 10 ms after it (log entry 16). -/
  | removing (last : Rail) (since : Nat)
  deriving DecidableEq, Repr

/-- A committed entry to P2 or P3 (16 R495). -/
structure Entry where
  target : Nat
  commit : Nat
  /-- The entry window's start, once step 3 has ended. -/
  window : Option Nat
  deriving DecidableEq, Repr

/-- WAKESRC (16 R510). -/
structure WakeRec where
  primary : Nat
  sources : Nat
  loc : Nat
  source : Nat
  cancel : Bool
  time : Nat
  deriving DecidableEq, Repr

/-- What Lantern memory retains over P3 (16 R500). -/
structure Retained where
  epochs : Tbl Nat
  ports : Tbl (Reg × Reg × Reg)
  chip : List Reg
  trust : List Reg
  twin : List Reg
  cages : Tbl Nat
  deriving DecidableEq, Repr

/-- The Bellrope address matcher and the frame in progress (16 R505 to R508). -/
inductive Rope where
  /-- Waiting for the start of a frame. -/
  | idle
  /-- The frame is another device's: its DLMs are counted up to the third (16 R506). -/
  | ignoring (dlms : Nat)
  /-- The address phase matched and was acknowledged; the request follows. -/
  | matched
  /-- The request of this tag is in the intake or executes; none: it was discarded, and no answer comes. -/
  | waiting (tag : Option Nat)
  /-- The answer is ready to be strobed out. -/
  | answer (bytes : List Byte)
  deriving DecidableEq, Repr

/-- The Lantern domain: rails, pins, power states, wake, retention, Bellrope. -/
structure Lantern where
  /-- VLANTERN is applied. -/
  powered : Bool
  /-- RESET_N as registered. -/
  resetN : Bool
  brAddr : Nat
  /-- PWREN_SRAM, CORE, LOOM, HBM in bits 0 to 3. -/
  enables : Nat
  /-- Power-good as registered, in the same bits. -/
  pg : Nat
  /-- Groups that have come up, in the same bits. -/
  cameUp : Nat
  phase : RailPhase
  /-- THERMTRIP_N is driven low (02 R71, R72). -/
  tripped : Bool
  /-- The isolation clamps of every other domain are driven (16 R499, 02 R57); an island that is not out of reset keeps
  its own after this (`Dev.clampedAt`). -/
  clamped : Bool
  wakeIn : Bool
  /-- Consecutive Lantern ticks in which WAKE_IN has read high, up to 3 (02 R63). -/
  wakeTicks : Nat
  /-- The highest temperature reading of the current second (02 R71, 18 R543). -/
  tjHigh : Option Int
  /-- Start of the current one-second window (18 R543). -/
  tjStart : Nat
  state : Nat
  entering : Option Entry
  /-- An exit in progress: the state left and when the exit began. -/
  exiting : Option (Nat × Nat)
  retainValid : Bool
  lastFault : Nat
  faultGroup : Nat
  wakeCtrl : Reg
  linkEnLo : Reg
  linkEnHi : Reg
  wakeSrc : WakeRec
  /-- The Lantern tick of the record in WAKESRC (16 R510). -/
  wakeAt : Option Nat
  retained : Retained
  /-- RESET_INFO.CAUSE and CELLS_HELD (17 R531). -/
  resetCause : Nat
  cellsHeld : Nat
  rope : Rope
  /-- BR_ACK: the level driven, or none at high impedance (16 R505). -/
  brAck : Option Bool
  deriving DecidableEq, Repr

/-- The Lantern domain right after VLANTERN is applied (17 R532, 16 R510). -/
def Lantern.reset : Lantern :=
  { powered := true, resetN := false, brAddr := 0, enables := 0, pg := 0, cameUp := 0, phase := .off,
    tripped := false, clamped := true, wakeIn := false, wakeTicks := 0, tjHigh := none, tjStart := 0, state := 0,
    entering := none, exiting := none, retainValid := false, lastFault := 0, faultGroup := 0,
    wakeCtrl := 0x03E8002B#64, linkEnLo := 0xFFFFFFFFFFFFFFFF#64, linkEnHi := 0xFFFFFFFFFFFFFFFF#64,
    wakeSrc := ⟨0, 0, 0, 0, false, 0⟩, wakeAt := none, retained := ⟨[], [], [], [], [], []⟩, resetCause := 0, cellsHeld := 0,
    rope := .idle, brAck := none }

/-- One cage (02 R67, R68, 14 R453, R454). -/
structure Cage where
  pwrEn : Bool
  ind : Nat
  present : Bool
  pwrGood : Bool
  attn : Bool
  /-- The input nibble of the previous frame. -/
  last : Nat
  /-- PRESENT fell in the last frame: PWR_EN clears in the frame that follows (02 R68). -/
  dropPower : Bool
  fault : Bool
  /-- When PWR_EN became 1. -/
  since : Nat
  deriving DecidableEq, Repr

def Cage.reset : Cage := ⟨false, 0, false, false, false, 0, false, false, 0⟩

/-! ## 03 and 04: ports -/

/-- Port states (03 R80), in code order. -/
inductive PState where
  | disabled | detect | t0Align | t0Config | step | up | retrain | limp | backoff
  deriving DecidableEq, Repr

/-- A receive lane (03 R77, R88, R96). -/
structure Lane where
  bitSlip : Nat
  wordDelay : Nat
  good : Bool
  /-- Corrected symbols in the running 1 ms window. -/
  corrected : Nat
  /-- The running disparity of the lane's T0 receiver is + (03 R83). -/
  rd : Bool
  /-- BIT_SLIP and WORD_DELAY that the firmware's search has found and not yet set (03 R89). -/
  found : Option (Nat × Nat)
  deriving DecidableEq, Repr

/-- What the peer said in its last accepted TS1 or training word (03 R84, R86). -/
structure PeerSays where
  tierMax : Nat
  far : Bool
  limpEn : Bool
  width : Nat
  laneGood : Nat
  aligned : Bool
  req : Bool
  deriving DecidableEq, Repr

/-- A countdown that an end runs, or that a follower above T0 accepts (03 R92, R93). -/
structure Countdown where
  target : Nat
  final : Bool
  far : Bool
  width : Nat
  /-- Sets or words of it still to send; the next one carries the count `left` - 1. -/
  left : Nat
  /-- Countdown 0 has been sent, or accepted. -/
  ended : Bool
  deriving DecidableEq, Repr

/-- The training state of a port. -/
structure Train where
  state : PState
  /-- Entry to the state, in the Belfry island's time base. -/
  since : Nat
  tier : Nat
  width : Nat
  far : Bool
  leader : Bool
  selfLoop : Bool
  lanes : Tbl Lane
  /-- Bit n − 1: tier n is excluded (03 R81). -/
  excluded : Nat
  /-- Consecutive failures of each tier. -/
  fails : Tbl Nat
  exclCleared : Nat
  /-- The last entry to BACKOFF was by LIMP_EN 0 (03 R103). -/
  limpBackoff : Bool
  peerSerial : Nat
  peerPort : Nat
  peerValid : Bool
  peer : PeerSays
  /-- Consecutive aligned TS1 or training words accepted with RX_ALIGNED 1. -/
  alignedRun : Nat
  /-- This end's receiver is aligned. -/
  aligned : Bool
  /-- Phase acquisition of the current step has ended. -/
  phased : Bool
  countdown : Option Countdown
  /-- Final tier and FEC mode agreed (03 R92). -/
  finalTier : Nat
  finalFar : Bool
  /-- A request is raised (REQ, 03 R96, R98), and one waits until UP. -/
  req : Bool
  reqLater : Bool
  /-- The width that a write of RETRAIN asked for, until the port has it (03 R98). -/
  reqWidth : Option Nat
  /-- The width of the previous UP (03 R106). -/
  prevWidth : Option Nat
  /-- CHECKs of this RETRAIN that have failed (03 R94). -/
  checkFails : Nat
  /-- A RETRAIN by PORT_CTRL.RETRAIN retests all lanes (03 R94). -/
  retest : Bool
  /-- SEQ of the next TS1 or FC, WORD_CNT of the next training word. -/
  seq : Nat
  /-- Bit l: the running disparity of lane l's T0 transmitter is +. -/
  txRd : Nat
  /-- The lanes carry an FC set or a frame until this time (03 R104). -/
  busyUntil : Nat
  /-- The last CK transition that an event has shown (03 R82). -/
  ckAt : Nat
  /-- The training in progress is a limp retry (03 R104). -/
  limpTry : Bool
  /-- Start of the running lane error window (03 R96). -/
  errStart : Nat
  txAsleep : Bool
  txSince : Nat
  /-- The direction has sent only idle units since (03 R99). -/
  idleSince : Nat
  rxAsleep : Bool
  /-- The end of the received beacon: WAKE words are due within 200 ns (03 R102). -/
  beaconEnd : Option Nat
  wakeRun : Nat
  /-- Consecutive training words accepted in UP on each lane, newest first: SLEEP and WAKE bits (03 R87). -/
  leaving : Tbl (List (Bool × Bool))
  /-- The last FC sent in LIMP: time and stop bits (03 R104). -/
  fcAt : Nat
  fcStop : Nat
  deriving DecidableEq, Repr

def Train.reset : Train :=
  { state := .disabled, since := 0, tier := 0, width := 0, far := false, leader := false,
    selfLoop := false, lanes := [], excluded := 0, fails := [], exclCleared := 0, limpBackoff := false,
    peerSerial := 0, peerPort := 0, peerValid := false, peer := ⟨0, false, false, 0, 0, false, false⟩,
    alignedRun := 0, aligned := false, phased := false, countdown := none, finalTier := 0, finalFar := false,
    req := false, reqLater := false, reqWidth := none, prevWidth := none, checkFails := 0, retest := false, seq := 0,
    txRd := 0, busyUntil := 0, ckAt := 0, limpTry := false, errStart := 0,
    txAsleep := false, txSince := 0, idleSince := 0, rxAsleep := false, beaconEnd := none, wakeRun := 0,
    leaving := [], fcAt := 0, fcStop := 0 }

/-- Link-layer states (04 R124), in code order. -/
inductive LState where
  | closed | held | resume | opened
  deriving DecidableEq, Repr

/-- A unit in the replay buffer (04 R118, R119). -/
structure Replay where
  seq : Nat
  flits : List (Nat × Flit)
  resends : Nat
  sentAt : Nat
  deriving DecidableEq, Repr

/-- A sequence number the receiver is missing (04 R117), and when its NAK was last sent. -/
structure Missing where
  seq : Nat
  sent : Option Nat
  deriving DecidableEq, Repr

/-- What has left Tollkeeper for the Belfry crossing and is not registered there (04 R116, R128). -/
inductive Cross where
  /-- A flit; `last`: its unit's reorder slot is freed once it is registered. -/
  | flit (last : Bool)
  /-- The packet in progress on a VC is truncated: flits that will not come, and flits released. -/
  | cut (vc left seen : Nat)
  deriving DecidableEq, Repr

/-- One port's Tollkeeper (04). -/
structure Toll where
  state : LState
  nextSeq : Nat
  peerAck : Nat
  rxExpect : Nat
  creditLimit : Nat
  peerStop : Nat
  breakCause : Nat
  /-- When UP was last left by a break (04 R129). -/
  breakAt : Option Nat
  replay : List Replay
  /-- Sequence numbers whose resend is due, lowest first. -/
  due : List Nat
  /-- Flits handed over by port-block egress and not yet in a unit, with their VCs. -/
  handed : List (Nat × Flit)
  /-- DATA units since the last IDLE unit, up to 4,095 (04 R115). -/
  dataRun : Nat
  hintBlock : Nat
  /-- RS this end sends: 0 none, 1 KEEP, 2 FRESH. -/
  rs : Nat
  /-- RS of the peer as accepted since the last UP; 0 until then. -/
  peerRs : Nat
  /-- Units received and not yet released, by sequence number. -/
  reorder : List (Nat × List (Nat × Flit))
  /-- Oldest sequence number not yet freed. -/
  unfreed : Nat
  /-- Released to the Belfry crossing and not yet registered there, oldest first. -/
  crossing : List Cross
  /-- Units of the far-mode block that is being formed, as wire bytes, and the slots of the one being received, each the
  bytes of its lanes (04 R110). -/
  txBlock : List (List Byte)
  rxBlock : List (List (List Byte))
  missing : List Missing
  holdStart : Option Nat
  starvedSince : Option Nat
  /-- Peer SERIAL and PORT at the last OPEN. -/
  openPeer : Option (Nat × Nat)
  /-- No good unit since entry to RESUME: all VCs stopped (04 R122). -/
  stopAll : Bool
  /-- VCs with a packet in progress in the released stream: flits still to come, and flits released. -/
  rxLeft : Tbl (Nat × Nat)
  /-- ACK, CREDIT_LIMIT and STOP as last sent (03 R99). -/
  told : Nat × Nat × Nat
  deriving DecidableEq, Repr

def Toll.reset : Toll :=
  { state := .closed, nextSeq := 0, peerAck := 0, rxExpect := 0, creditLimit := 1024, peerStop := 0xFFFFF,
    breakCause := 0, breakAt := none, replay := [], due := [], handed := [], dataRun := 0, hintBlock := 0, rs := 0,
    peerRs := 0, reorder := [], unfreed := 0, crossing := [], txBlock := [], rxBlock := [], missing := [], holdStart := none, starvedSince := none, openPeer := none,
    stopAll := false, rxLeft := [], told := (0, 1024, 0) }

/-- A packet on its way out of a port: granted, and not yet wholly handed to Tollkeeper. -/
structure Egress where
  id : Nat
  /-- The region and crossbar input that hold its cells, and the VC there. -/
  region : Nat
  input : Nat
  inVc : Nat
  vc : Nat
  /-- The packet as it leaves. -/
  pkt : Packet
  /-- The header as it arrived (05 R158). -/
  arrived : Hdr
  /-- The network port it arrived on, if it did. -/
  net : Option Nat
  flits : Nat
  /-- Flits handed over so far. -/
  sent : Nat
  stamp : Nat
  /-- The packet is truncated: from this flit on, zero flits and the stomp value replace what is lost (05 R142). -/
  cutAt : Option Nat
  deriving DecidableEq, Repr

/-- A network port. -/
structure Port where
  ctrl : Reg
  route : Reg
  tkCtrl : Reg
  train : Train
  toll : Toll
  /-- HINT[p][b] (05 R152). -/
  hints : Tbl Nat
  egress : List Egress
  egressPtr : Nat
  /-- Stop bits this end is sending (06 R178). -/
  stopSent : Nat
  /-- VCs in go by the floor rule alone (06 R194). -/
  floorOnly : Nat
  /-- The two latest ticks in which transit touched the port, the later first (16 R494). -/
  transitAt : List Nat
  deriving DecidableEq, Repr

/-- A port after chip reset or a reset of its region (03 R105, 04 R130, 05 R169). -/
def Port.reset : Port :=
  { ctrl := 0x1000_000A_005E#64, route := 4#64, tkCtrl := 0x03E8_0040_0FA0#64, train := Train.reset,
    toll := Toll.reset, hints := [], egress := [], egressPtr := 0, stopSent := 0, floorOnly := 0, transitAt := [] }

/-! ## 05 and 06: a region's Pilot and Belfry -/

/-- The chip-level registers (05 R168, 06 R193, 10 R328, 11 R361, 13 R423), as the chip and as each region
holds them. -/
structure ChipRegs where
  pilotCtrl : Reg
  pilotTune : Reg
  fcCtrl : Reg
  fcMark : Reg
  carterCtrl : Reg
  carterWin : Reg
  scrivCtrl : Reg
  lockCtrl : Reg
  deriving DecidableEq, Repr

/-- Reset values of the chip-level registers. -/
def ChipRegs.reset : ChipRegs :=
  { pilotCtrl := 0x88420003C0000000#64, pilotTune := 4#64, fcCtrl := 0x0002000140004000#64,
    fcMark := 0x6400010020#64, carterCtrl := 0x03E80510064300C8#64, carterWin := 0xC82100000040100#64,
    scrivCtrl := 0x800104000#64, lockCtrl := 0x3E82000#64 }

/-- Cells that an (input, VC) holds in each part of the buffer (06 R173). -/
structure Cells where
  floor : Nat
  pool : Nat
  skid : Nat
  deriving DecidableEq, Repr

/-- Where Pilot sends a packet (05 R144, R153). -/
inductive Hop where
  /-- A network port of the device. -/
  | port (p : Nat)
  /-- A unit port: region and crossbar port 56 to 63. -/
  | unit (r x : Nat)
  deriving DecidableEq, Repr

/-- A packet whose header is registered and which waits for switch allocation (05 R150, 06 R180). -/
structure Waiting where
  id : Nat
  input : Nat
  vc : Nat
  stamp : Nat
  /-- The network port it arrived on, if it did. -/
  net : Option Nat
  /-- The packet as it arrived, and as it leaves. -/
  arrived : Packet
  pkt : Packet
  hop : Hop
  deriving DecidableEq, Repr

/-- A packet that crosses the Buttress into this region: where its cells lie in the region it left, and
the flits still to cross (01 R40). -/
structure Crossing where
  id : Nat
  input : Nat
  vc : Nat
  srcRegion : Nat
  srcInput : Nat
  srcVc : Nat
  flits : Nat
  /-- For Buttress arbitration (01 R38): management class, and its registration in the direction's island. -/
  mgmt : Bool
  stamp : Nat
  /-- A packet for a unit of this region: its crossbar port and the packet, delivered once every flit has crossed (01 R42). -/
  toUnit : Option (Nat × Packet)
  deriving DecidableEq, Repr

/-- A packet whose flits are arriving at a Belfry input on one VC: flits still to come and flits stored, whether
those to come are discarded (06 R174), and its number once its header is registered. -/
structure Arriving where
  left : Nat
  stored : Nat
  discard : Bool
  id : Option Nat
  deriving DecidableEq, Repr

/-- The four banks of route-table entries, raw (05 R145, R146); an unlisted entry is 0. -/
structure Banks where
  router : Tbl Nat
  group : Tbl Nat
  routerStaging : Tbl Nat
  groupStaging : Tbl Nat
  deriving DecidableEq, Repr

/-- Carve-outs of a region's HBM stack, in the units of 17 R522 (01 R44, 18 R538). -/
structure Carve where
  ux : Nat
  scratch : Nat
  spill : Nat
  tables : Nat
  shrunk : Bool
  deriving DecidableEq, Repr

/-- The default carve-outs (01 R44). -/
def Carve.default : Carve := ⟨16, 2, 2, 0, false⟩

/-! ## 09: translation and keys -/

/-- The access a translation is for (09 R274). -/
inductive Kind where
  | read | write | atomic | exec
  deriving DecidableEq, Repr

/-- What waits for a translation or a host read (09 R270). -/
inductive Who where
  /-- A ring fetch or the chain of a send queue. -/
  | ring (sq : Nat)
  | chain (sq : Nat)
  /-- The source page of an operation's next packet. -/
  | source (op : Nat)
  /-- The page in which an operation's response lands. -/
  | landing (op : Nat)
  /-- An arrived request that passed its checks. -/
  | work (id : Nat)
  /-- A waiting write of Scrivener, Cooper or Warden, by number. -/
  | place (id : Nat)
  /-- The grant word of a LOCK: region of the proxy slice, entry. -/
  | grant (region pend : Nat)
  /-- The packet of a CMD entry. -/
  | cmd (sq : Nat)
  /-- A member's contribution. -/
  | contrib (region tree child seg : Nat)
  /-- A table read of a walk, by walk number. -/
  | walk (id : Nat)
  /-- A speculative walk: nothing waits. -/
  | spec
  deriving DecidableEq, Repr

/-- What a cache entry holds (09 R281). -/
inductive Cached where
  | context (raw : Nat)
  /-- A table entry: its level, the address bits that select it, the raw entry. -/
  | table (level index raw : Nat)
  /-- A leaf: page number and page size as log2, bus address, permissions, DEVICE, and the key slot. -/
  | leaf (page size pa perms : Nat) (device : Bool) (key : Option Nat)
  deriving DecidableEq, Repr

/-- A cache entry with its PASID tag. -/
structure CacheEntry where
  pasid : Nat
  what : Cached
  deriving DecidableEq, Repr

/-- A walk in progress (09 R274). Level 5 is the context read, with the PASID table as its table. -/
structure Walk where
  who : Who
  pasid : Nat
  va : Nat
  kind : Kind
  user : Bool
  key : Option Nat
  level : Nat
  table : Nat
  inHbm : Bool
  perms : Nat
  /-- No invalidation has been registered since it began: what it finds fills the cache (09 R283). -/
  fills : Bool
  deriving DecidableEq, Repr

/-- How a translation ends. -/
inductive Found where
  /-- The bus address, and whether the page is device memory. -/
  | page (pa : Nat) (device : Bool)
  /-- A fault kind (09 R279). -/
  | fault (kind : Nat)
  deriving DecidableEq, Repr

/-- A finished translation that its waiter has not taken yet: for whom, by which walk if one was needed, and through which
PASID. -/
structure Grant where
  who : Who
  walk : Nat
  pasid : Nat
  va : Nat
  found : Found
  deriving DecidableEq, Repr

/-- A running invalidation (09 R282, R283): operation, PASID, first page, pages, key slot, and the walks it
waits for. -/
structure Inval where
  op : Nat
  pasid : Nat
  va : Nat
  pages : Nat
  key : Nat
  waits : List Nat
  deriving DecidableEq, Repr

/-- Key states (09 R286). -/
inductive KState where
  | free | valid | revoking
  deriving DecidableEq, Repr

/-- A key descriptor (09 R286). -/
structure Key where
  state : KState
  perm : Nat
  epi : Nat
  pasid : Nat
  gen : Nat
  salt : Nat
  inflight : Nat
  base : Nat
  limit : Nat
  /-- The walks that the implicit INVAL_KEY waits for (09 R287). -/
  waits : List Nat
  deriving DecidableEq, Repr

def Key.reset : Key := ⟨.free, 0, 0, 0, 0, 0, 0, 0, 0, []⟩

/-! ## 07: endpoints -/

/-- Endpoint states (07 R210), in code order. -/
inductive EState where
  | down | link | run | halted | stopped | d3hot
  deriving DecidableEq, Repr

/-- The configuration-space fields that the device acts on (07 R200, R201, R220, R221, R222). -/
structure PciCfg where
  memEnable : Bool
  bme : Bool
  intxDisable : Bool
  cplTimeout : Nat
  /-- Max Payload Size and Max Read Request Size: 128 bytes times 2 to this. -/
  maxPayload : Nat
  maxRead : Nat
  /-- 0, 1 or 2: 8-, 10- or 14-bit tags are enabled. -/
  tagSize : Nat
  relaxed : Bool
  atomicReq : Bool
  msixEnable : Bool
  functionMask : Bool
  pmeEn : Bool
  pmeStatus : Bool
  aspmL1 : Bool
  l0p : Bool
  bar0 : Nat
  bar2 : Nat
  bar4 : Nat
  requester : Nat
  /-- Device Control [3:0], Device Status [3:0], Link Control but for ASPM, and AER. -/
  errReport : BitVec 4
  errStatus : BitVec 4
  linkControl : BitVec 16
  aer : Aer
  deriving DecidableEq, Repr

/-- Reset values of AER, from the PCI Express 6.0 Base Specification (log entry 3). -/
def Aer.reset : Aer := ⟨0, 0x400000, 0x462030, 0, 0xE000⟩

/-- Reset values of the configuration space, from the PCI Express 6.0 Base Specification (log entry 3). -/
def PciCfg.reset : PciCfg :=
  ⟨false, false, false, 0, 0, 2, 0, true, false, false, false, false, false, false, false, 0, 0, 0, 0, 0, 0, 0, Aer.reset⟩

/-- An MSI-X table entry (07 R215, R220). -/
structure Msix where
  addr : Nat
  data : Nat
  masked : Bool
  deriving DecidableEq, Repr

def Msix.reset : Msix := ⟨0, 0, true⟩

/-- A non-posted request outstanding under a tag (07 R217, R218). -/
structure Tag where
  tag : Nat
  use : Use
  who : Who
  /-- The reading it is a request of; none for an AtomicOp. -/
  reading : Option Nat
  issued : Nat
  /-- Byte Count and Lower Address of the completion that is due next (07 R218). -/
  byteCount : Nat
  lowerAddr : Nat
  /-- Bytes that its completions have brought so far. -/
  got : List Byte
  /-- Issued before the endpoint left RUN by R213: its completion is discarded (07 R214). -/
  late : Bool
  /-- A poisoned completion has failed it: what still comes is discarded (07 R556). -/
  failed : Bool
  /-- A read of a speculative walk, whose failure is not reported (09 R280). -/
  silent : Bool
  /-- The PASID and key slot of the translation it was made with (09 R283). -/
  space : Option (Nat × Option Nat)
  deriving DecidableEq, Repr

/-- A host read of a unit: issued as requests one after another, in the order of its pieces (07 R198, R555). -/
structure Reading where
  id : Nat
  who : Who
  use : Use
  /-- Requests that follow the one outstanding: bus address and length. -/
  left : List (Nat × Nat)
  /-- Bytes read so far. -/
  buf : List Byte
  space : Option (Nat × Option Nat)
  deriving DecidableEq, Repr

/-- A request that waits for a free tag (07 R217): an AtomicOp when `atomic` gives its operation, operand and
compare value. -/
structure WantTag where
  use : Use
  who : Who
  reading : Option Nat
  space : Option (Nat × Option Nat)
  addr : Nat
  len : Nat
  atomic : Option (HostOp × Nat × Nat)
  deriving DecidableEq, Repr

/-- What a waiting write belongs to. -/
inductive PlaceFor where
  /-- A match entry's receive buffer. -/
  | entry (id : Nat)
  /-- A tree member's result: region, tree, child, instance. -/
  | member (region tree child number : Nat)
  /-- The reply of a CMD: its queue and its accepted entry. -/
  | reply (sq entry : Nat)
  deriving DecidableEq, Repr

/-- A write of Scrivener, Cooper or Warden that waits for its translation. -/
structure Place where
  pasid : Nat
  user : Bool
  va : Nat
  data : List Byte
  /-- Bytes that its message still writes after these, when its access ends with them (09 R280). -/
  rem : Nat
  use : Use
  owner : PlaceFor
  /-- For a match entry: the packet whose bytes these are, to refuse when the translation faults. -/
  src : Option Packet
  deriving DecidableEq, Repr

/-! ## 08: queues -/

/-- Send-queue states (08 R259), in code order. -/
inductive QState where
  | disabled | active | draining | stopped | halted | resetting
  deriving DecidableEq, Repr

/-- What a completion record says of its entry (08 R252). -/
structure Fin8 where
  status : Nat
  bytes : Nat
  result : Nat
  rank : Nat
  detail : Nat
  deriving DecidableEq, Repr

/-- An accepted entry that has not completed (08 R238, R239). -/
structure Accepted where
  id : Nat
  bytes : List Byte
  /-- The CQ that holds its slot: the queue's own at its acceptance (08 R239). -/
  cq : Nat
  /-- Its completion, when it fell due outside RUN (08 R557). -/
  due : Option Fin8
  /-- A RECV that is POSTED, which IDLE does not count (08 R261). -/
  posted : Bool
  deriving DecidableEq, Repr

/-- The chain a queue is working through (08 R250). -/
structure ChainOf where
  entry : Nat
  /-- The ring position of the CHAIN. -/
  pos : Nat
  addr : Nat
  len : Nat
  off : Nat
  /-- The first 32 bytes of the entry at `off`, when they have been read and the rest of it has not. -/
  head : Option (List Byte)
  deriving DecidableEq, Repr

/-- A fetched entry that waits for its acceptance (08 R238). -/
structure Fetched where
  bytes : List Byte
  chained : Bool
  deriving DecidableEq, Repr

/-- The CMD of a queue that has not completed (14 R433, R434). -/
structure Cmd where
  entry : Nat
  /-- Its packet has been read and passed on: before that it waits for its pages and its read. -/
  passed : Bool
  tag : Nat
  /-- The reply packet, once it has arrived and while its bytes are being written. -/
  status : Option Nat
  writing : Nat
  written : Nat
  fault : Option Nat
  /-- Detached and answered once: later entries may be accepted. -/
  released : Bool
  deriving DecidableEq, Repr

/-- A send queue (08 R233). -/
structure Sq where
  base : Reg
  cfg : Reg
  pi : Nat
  ci : Nat
  state : QState
  ctxErr : Bool
  errCode : Nat
  errPos : Nat
  errInChain : Bool
  errChainOff : Nat
  /-- Time of the doorbell that last raised the queue from empty (08 R240). -/
  stamp : Nat
  /-- A pushed copy not yet taken: its position and bytes (08 R231). -/
  pushed : Option (Nat × List Byte)
  chain : Option ChainOf
  held : Option Fetched
  /-- The next entry was found to run past PI: Porter waits for a further doorbell (08 R237). -/
  short : Bool
  work : List Accepted
  cmds : List Cmd
  deriving DecidableEq, Repr

def Sq.reset : Sq :=
  { base := 0, cfg := 0x18#64, pi := 0, ci := 0, state := .disabled, ctxErr := false, errCode := 0, errPos := 0,
    errInChain := false, errChainOff := 0, stamp := 0, pushed := none, chain := none, held := none, short := false, work := [],
    cmds := [] }

/-- A completion queue or an event queue (08 R235). -/
structure Cq where
  base : Reg
  cfg : Reg
  pi : Nat
  ci : Nat
  reserved : Nat
  armed : Bool
  ovf : Bool
  /-- Records discarded since OVF was set (08 R258). -/
  lost : Nat
  deriving DecidableEq, Repr

def Cq.reset : Cq := ⟨0, 0xC#64, 0, 0, 0, false, false, 0⟩

/-! ## 11: matching -/

/-- Kinds of match-store entry (11 R342). -/
inductive MKind where
  | posted | matched | held | unexpected
  deriving DecidableEq, Repr

/-- A match-store entry in use (11 R342), with its stored payload. -/
structure Match where
  kind : MKind
  epi : Nat
  context : Nat
  rank : Nat
  tag : Nat
  anySource : Bool
  anyTag : Bool
  stamp : Nat
  /-- The RECV: its queue, accepted entry, buffer and capacity. -/
  sq : Nat
  entry : Nat
  buf : Nat
  capacity : Nat
  /-- The message: the header of its newest packet, SEND_SEQ, and counts for the current attempt. -/
  hdr : Hdr
  localFen : Nat
  sendSeq : Nat
  attempt : Nat
  msgLen : Nat
  done : Nat
  placed : Nat
  acked : Nat
  /-- The earliest placement that no ACK covers (10 R317). -/
  unacked : Option Nat
  echo : Bool
  rndv : Bool
  newest : Nat
  handle : Nat
  /-- Blocks reserved in the unexpected store, BLOCK first, and the bytes stored there by message offset. -/
  blocks : List Nat
  store : List Host.Cell
  /-- Packets whose bytes an engine writes there: item number and packet (11 R348). The copy to the buffer runs (11 R349). -/
  toStore : List (Nat × Packet)
  copying : Bool
  /-- Packets whose bytes are being written to the buffer: attempt * 2^20 + page of the message, and pages still to write. -/
  parts : List (Nat × Nat)
  /-- Ranges of the buffer written, by offset and length; writes waiting for translation; and the first fault
  kind (11 R346). -/
  wrote : List (Nat × Nat)
  writing : Nat
  fault : Nat
  /-- The rendezvous pull has begun (11 R352). -/
  pulling : Bool
  /-- The final acknowledgement of the current attempt has been sent (10 R317). -/
  final : Bool
  deriving DecidableEq, Repr

/-- An endpoint: a gate and sub (07 R196). -/
structure Endpoint where
  state : EState
  stopCause : Nat
  evtPending : Bool
  linkWidth : Nat
  linkRate : Nat
  flit : Bool
  gateCtrl : Reg
  cfg : PciCfg
  msix : Tbl Msix
  msixPending : Nat
  inta : Bool
  /-- A D3cold entry was announced by PME_Turn_Off (07 R211, R221). -/
  d3cold : Bool
  /-- Until this time configuration requests are answered with Request Retry Status (07 R199, R216). -/
  readyAt : Nat
  /-- The link trains (07 R199). -/
  training : Bool
  /-- The gate-island tick at which GATE_STOP, a removal, a malformation, PowerState or Bus Master Enable last moved the endpoint
  (07 R212). -/
  movedAt : Option Nat
  /-- The lowest tag never issued, and the tags freed since, oldest first (07 R218). -/
  freshTag : Nat
  freedTags : List Nat
  tags : List Tag
  /-- Tags in quarantine with their window's end (07 R217). -/
  quarantine : List (Nat × Nat)
  wantTags : List WantTag
  readings : List Reading
  /-- Full link width divided by this: 1, 2, 4, 8 (07 R222). -/
  l0pDiv : Nat
  /-- The end of the last 10 µs window that was judged (07 R222). -/
  l0pAt : Nat
  l1 : Bool
  /-- The last tick with a TLP to send or anything outstanding (07 R222). -/
  busyAt : Nat
  sqs : Tbl Sq
  cqs : Tbl Cq
  eqs : Tbl Cq
  fetchPtr : Nat
  pasidBase : Reg
  aperture : Reg
  opAddr : Reg
  inval : Option Inval
  trRejected : Bool
  stage0 : Reg
  stageBase : Reg
  stageLimit : Reg
  /-- The captured KEY_OP: OP, KEY_INDEX and the staged values (09 R293). -/
  keyOp : Option (Nat × Nat × Nat × Nat × Nat)
  keyRejected : Bool
  keyResult : Reg
  keys : Tbl Key
  cache : List CacheEntry
  walks : Tbl Walk
  grants : List Grant
  places : Tbl Place
  store : Tbl Match
  postStamp : Nat
  uxStamp : Nat
  /-- A UX_FULL refusal has come since the last successful store (11 R358). -/
  uxFull : Bool
  deriving DecidableEq, Repr

/-- Reset record of an endpoint (07 R207, R208, R215, 08 R268, 09 R293). -/
def Endpoint.reset : Endpoint :=
  { state := .down, stopCause := 0, evtPending := false, linkWidth := 0, linkRate := 0, flit := false,
    gateCtrl := 0x1400000000#64, cfg := PciCfg.reset, msix := [], msixPending := 0, inta := false,
    d3cold := false, readyAt := 0, training := false, movedAt := none, freshTag := 0, freedTags := [], tags := [],
    quarantine := [], wantTags := [], readings := [], l0pDiv := 1, l0pAt := 0, l1 := false, busyAt := 0, sqs := [], cqs := [], eqs := [],
    fetchPtr := 0, pasidBase := 0, aperture := 0, opAddr := 0, inval := none, trRejected := false, stage0 := 0,
    stageBase := 0, stageLimit := 0, keyOp := none, keyRejected := false, keyResult := 0, keys := [], cache := [],
    walks := [], grants := [], places := [], store := [], postStamp := 0, uxStamp := 0, uxFull := false }

/-- A gate's own contacts (02 R60, 07 R199, R221) and its injection pointer (10 R310). -/
structure Gate where
  /-- PERST# is registered high. -/
  perst : Bool
  /-- When it was last registered high. -/
  perstAt : Nat
  /-- WAKE# is driven low. -/
  wakeLow : Bool
  injectPtr : Nat
  deriving DecidableEq, Repr

def Gate.reset : Gate := ⟨false, 0, false, 0⟩

/-! ## 10: Carter -/

/-- A connection context (10 R299, 11 R334). -/
structure Conn where
  ep : Nat
  localFen : Nat
  peerFen : Nat
  cls : Nat
  nextSeq : Nat
  syncing : Bool
  window : Nat
  inflight : Nat
  srtt : Nat
  roundStart : Nat
  lastCut : Option Nat
  marked : Bool
  outstanding : Nat
  mapBase : Nat
  map : Nat
  mapEcho : Bool
  mapOpened : Nat
  /-- The header of the newest packet the map covers and its time, for HOLD and the answer's indexes. -/
  mapHdr : Hdr
  mapNewest : Nat
  used : Nat
  txSeq : Nat
  txLast : Nat
  rxExpect : Nat
  rxHeld : Nat
  rxLast : Nat
  rxGap : Nat
  /-- SEND_SEQs of HELD entries that expired and still take their turn (11 R352). -/
  rxExpired : List Nat
  /-- Just created: the first packet registered rebases (11 R339). -/
  fresh : Bool
  deriving DecidableEq, Repr

/-- What an initiator operation is. -/
inductive OpKind where
  | put | get | signal | atomic | eager | rts | pull | fin
  deriving DecidableEq, Repr

/-- A refusal kept for the status of an operation (10 R319). -/
structure Refused where
  off : Nat
  status : Nat
  detail : Nat
  deriving DecidableEq, Repr

/-- A request packet of the current attempt: offset, length, send time (10 R309). -/
structure SentPkt where
  off : Nat
  len : Nat
  time : Nat
  deriving DecidableEq, Repr

/-- An initiator operation or message (10 R307, R318 to R323, 11 R332, R353 to R357). -/
structure Op where
  kind : OpKind
  ep : Nat
  sq : Nat
  entry : Nat
  conn : Nat
  addr : Nat
  remote : Nat
  key : Nat
  length : Nat
  /-- SIGNAL_VALUE or OPERAND; COMPARE; AOP, WIDE and FETCH of an atomic. -/
  operand : Nat
  compare : Nat
  aop : Nat
  wide : Bool
  fetch : Bool
  inline : Option (List Byte)
  /-- The payload read for a packet that has not left yet: its offset and bytes. -/
  built : Option (Nat × List Byte)
  localFen : Nat
  dstFen : Nat
  dstEpi : Nat
  srcEpi : Nat
  pasid : Nat
  user : Bool
  fence : Bool
  msgSeq : Nat
  sync : Bool
  attempt : Nat
  next : Nat
  acked : Nat
  refused : Nat
  refusals : List Refused
  lastRetryLater : Bool
  /-- Packets to send again after a RETRY_LATER: offset and due time (10 R315). -/
  resend : List (Nat × Nat)
  /-- Packets whose resend is due. -/
  again : List Nat
  timer : Option Nat
  /-- MSG_TIMEOUT, ns, at the start of the attempt (10 R328). -/
  timeout : Nat
  sent : List SentPkt
  /-- Cost still counted in INFLIGHT (10 R308). -/
  cost : Nat
  stamp : Nat
  fenceCounted : Bool
  /-- The translated landing pieces (10 R307): virtual address, bus address, DEVICE. -/
  landing : List (Nat × Nat × Bool)
  localFault : Option (Nat × Nat)
  /-- For PUT_SIGNAL's data message: the signal address, its value, its MSG_SEQ. -/
  signal : Option (Nat × Nat × Nat)
  /-- A SIGNAL sent after its data: LENGTH of the data. -/
  dataLen : Nat
  tag : Nat
  rank : Nat
  context : Nat
  sendSeq : Nat
  handle : Nat
  /-- LENT (11 R354): time of the RTS_ACK. -/
  lent : Option Nat
  lastGet : Option Nat
  /-- Byte ranges served: offset and length (11 R357). -/
  served : List (Nat × Nat)
  servedFault : Option (Nat × Nat)
  /-- The match entry of a pull. -/
  matchId : Nat
  /-- The engine block that a pull, or the RNDV_FIN after it, runs on (01 R36). -/
  engine : Nat
  /-- It holds an initiating tracker (10 R307), it has its MSG_SEQ (10 R298), and it is started: it may send. -/
  tracked : Bool
  numbered : Bool
  started : Bool
  /-- Its tracker was freed by an uncorrectable error: it only waits for its timer (18 R534). -/
  lost : Bool
  /-- It has been counted in CONN_WAITS (10 R300), and in SEND_WAITS (11 R333). -/
  connWaited : Bool
  sendWaited : Bool
  deriving DecidableEq, Repr

/-- An arriving tracker (10 R314); `hdr` is the header of the newest packet. -/
structure Tracker where
  ep : Nat
  conn : Nat × Nat × Nat
  msgSeq : Nat
  hdr : Hdr
  msgLen : Nat
  attempt : Nat
  done : Nat
  placed : Nat
  echo : Bool
  newest : Nat
  acked : Nat
  unacked : Option Nat
  deriving DecidableEq, Repr

/-- Where an arrived request stands between its checks and its placement (10 R312). -/
inductive WStage where
  | translating
  /-- Host writes issued; PLACEMENT_DONE follows. -/
  | writing
  | reading
  /-- The read of the read-then-CAS loop, with CAS attempts made. -/
  | loopRead (tries : Nat)
  /-- An AtomicOp outstanding; `expect` is the value that a CAS of the loop expects. -/
  | atomicOut (tries : Nat) (expect : Option Nat)
  deriving DecidableEq, Repr

/-- An arrived request that passed its checks (10 R312). -/
structure Work where
  ep : Nat
  pkt : Packet
  stage : WStage
  /-- Bus addresses of the pages of its bytes found so far, in order, with DEVICE. -/
  pas : List (Nat × Bool)
  /-- The key slot whose INFLIGHT counts it; none for Scrivener's packets. -/
  key : Option Nat
  /-- Its arriving tracker and the attempt it was counted in. -/
  tracker : Option Nat
  /-- The LENT send an RNDV_GET is served from. -/
  op : Option Nat
  /-- When its packet was registered. -/
  time : Nat
  deriving DecidableEq, Repr

/-! ## 12: Cooper -/

/-- Kinds of an exact accumulator (12 R382). -/
inductive AccKind where
  | finite | posInf | negInf | nan
  deriving DecidableEq, Repr

/-- An accumulator state (12 R382). -/
structure Acc where
  kind : AccKind
  v : Int
  negZero : Bool
  deriving DecidableEq, Repr

/-- A running value: fast mode keeps an encoding, exact mode an accumulator. -/
inductive Val where
  | fast (x : Nat)
  | exact (a : Acc)
  deriving DecidableEq, Repr

/-- A segment accumulator (12 R379, R394). -/
structure Segment where
  seg : Nat
  /-- Elements delivered: child, first element of the segment, count. -/
  got : List (Nat × Nat × Nat)
  vals : Tbl Val
  /-- CONTRIB of each child's part, by child index. -/
  parts : Tbl Nat
  isPartial : Bool
  deriving DecidableEq, Repr

/-- An instance slot (12 R366). -/
structure Instance where
  number : Nat
  /-- 0 EMPTY, 1 UP, 2 DOWN. -/
  phase : Nat
  collOp : Nat
  dtype : Nat
  redop : Nat
  exact_ : Bool
  isPartial : Bool
  elems : Nat
  segsUp : Nat
  segsDown : Nat
  upEnded : Bool
  downEnded : Bool
  absent : Nat
  /-- Bit c: child c is absent by a failed contribution, from the failed segment onward (12 R395). -/
  failed : Nat
  upDone : Nat
  segs : List Segment
  /-- Up segments that each child has completed. -/
  childSegs : Tbl Nat
  /-- Segments whose down packet has been registered, or sent, at the root. -/
  downGot : List Nat
  /-- Start of the up window, and of the down window, ns (12 R391). -/
  upStart : Nat
  downStart : Option Nat
  deriving DecidableEq, Repr

/-- A member's accepted COLL entry (12 R371). -/
structure Posting where
  ep : Nat
  sq : Nat
  entry : Nat
  child : Nat
  number : Nat
  addr : Nat
  result : Nat
  pasid : Nat
  user : Bool
  /-- Its instance number is accepted; otherwise the entry is parked (12 R371). -/
  admitted : Bool
  /-- Next segment of the contribution to read, and whether its walks or its read run. -/
  nextSeg : Nat
  reading : Bool
  written : Nat
  writing : Nat
  fault : Option (Nat × Nat)
  deriving DecidableEq, Repr

/-- A tree context (12 R365). -/
structure Tree where
  static : List Byte
  /-- 0 FREE, 1 READY, 2 RUNNING, 3 ABORTING. -/
  state : Nat
  cur : Nat
  scratch : Nat
  children : List Nat
  insts : List Instance
  postings : List Posting
  abortNew : Nat
  deriving DecidableEq, Repr

/-! ## 13: Locksmith -/

/-- A waiter of a cell (13 R405); `tag` is the GRANT_ADDR its LOCK carried. -/
structure Waiter where
  fen : Nat
  epi : Nat
  prio : Nat
  pend : Nat
  tag : Nat
  /-- The waiter entry of the slice that holds it (13 R404). -/
  slot : Nat
  deriving DecidableEq, Repr

/-- A lock cell (13 R405). -/
structure LockCell where
  /-- 0 FREE, 1 HELD, 2 ABANDONED, 3 FORCED. -/
  state : Nat
  holderPrio : Nat
  effPrio : Nat
  holderFen : Nat
  holderEpi : Nat
  holderPend : Nat
  grantSeq : Nat
  holderTag : Nat
  lastFen : Nat
  lastEpi : Nat
  lastPend : Nat
  inhSeq : Nat
  waiters : List Waiter
  deriving DecidableEq, Repr

/-- A cell after a reset (13 R406). -/
def LockCell.reset : LockCell := ⟨2, 0, 0, 0, 0, 0, 0, 0, 0, 0, 0, 0, []⟩

/-- States of a PENDING entry (13 R412, R413). `waiting`: a LOCK or UNLOCK that waits for a free entry or
for its translation. -/
inductive PendState where
  | waiting | sent | queued | cancelling
  deriving DecidableEq, Repr

/-- A PENDING entry of a proxy slice (13 R405). -/
structure Pend where
  ep : Nat
  sq : Nat
  entry : Nat
  unlock : Bool
  try_ : Bool
  prio : Nat
  fen : Nat
  epi : Nat
  router : Nat
  lockId : Nat
  addr : Nat
  /-- The translated pieces of the grant word: virtual address, bus address, DEVICE. -/
  pas : List (Nat × Nat × Bool)
  state : PendState
  repeats : Nat
  since : Nat
  /-- The last probe has not been answered. -/
  unanswered : Bool
  /-- A reset of its queue (1) or of its endpoint (2) abandoned it: FLUSHED, and no record of its own. -/
  flushed : Nat
  /-- An uncorrectable error took its entry: it sends nothing, no answer finds it, and its timers end it (18 R534). -/
  lost : Bool
  deriving DecidableEq, Repr

/-- A PENDING entry that has ended, as a response names it, and how it ended as `Pend.flushed` says; 2 as well when its endpoint has
been reset since (08 R265, 07 R224). -/
structure PastPend where
  index : Nat
  fen : Nat
  epi : Nat
  router : Nat
  lockId : Nat
  how : Nat
  deriving DecidableEq, Repr

/-- Two entries that a response cannot tell apart. -/
def PastPend.same (a b : PastPend) : Bool := { a with how := 0 } == { b with how := 0 }

/-- What a PENDING entry leaves behind at an index. -/
def Pend.past (p : Pend) (index how : Nat) : PastPend := ⟨index, p.fen, p.epi, p.router, p.lockId, how⟩

/-- An ended entry joins the others, in place of one that it cannot be told apart from. -/
def notePast (m : PastPend) (t : List PastPend) : List PastPend := m :: t.filter (fun x => !m.same x)

/-! ## 15: repair -/

/-- Region states (15 R484), in code order. -/
inductive RState where
  | run | draining | drained | resetting | ready
  deriving DecidableEq, Repr

/-- A region. -/
structure Region where
  chip : ChipRegs
  epochs : Tbl Nat
  live : Nat
  limp : Nat
  banks : Banks
  portPtr : Nat
  lfsr : Nat
  /-- Egress bytes of other regions' ports as last reported, by port (05 R152). -/
  reports : Tbl Nat
  /-- By input * 20 + VC. -/
  cells : Tbl Cells
  arriving : Tbl Arriving
  poolFree : Nat
  poolOpen : Bool
  waiting : List Waiting
  crossing : List Crossing
  outPtr : Tbl Nat
  inPtr : Tbl Nat
  poolPtr : Nat
  /-- The tick of the last ask of a network flit for a pool cell, the inputs and VCs that hold a cell by an ask of that tick,
  and where the pointer stood at its start (06 R177). -/
  poolTick : Nat
  poolAsked : List (Nat × Nat × Option Nat)
  poolBase : Nat
  /-- Internal inputs and VCs whose flit waits for the pool allocator, and since when (06 R175, R177). -/
  poolWaits : List (Nat × Nat × Nat)
  /-- By the region that a Buttress direction into this one comes from. -/
  buttressPtr : Tbl Nat
  /-- Packets in the intakes of the units, by crossbar port * 8 + class (06 R183). -/
  intakes : Tbl (List Packet)
  /-- Swaps of this region's banks that a ROUTE_COMMIT has started: the tick, and the command's path and tag (05 R163). -/
  swaps : List (Nat × Path × Nat)
  /-- Intake pointer of the slice over its four requesters (11 R345), and the pool pointers (10 R314). -/
  slicePtr : Nat
  initPtr : Nat
  arrPtr : Nat
  state : RState
  forced : Bool
  cellsLost : Nat
  drainEnd : Nat
  carve : Carve
  conns : Tbl Conn
  ops : Tbl Op
  /-- Reuse count of each initiating tracker ever taken, and the operation that holds each one. -/
  reuse : Tbl Nat
  trackerOf : Tbl Nat
  /-- Messages abandoned by a queue reset: local FEN, peer FEN, MSG_SEQ (08 R265). -/
  abandoned : List (Nat × Nat × Nat)
  /-- Connections that a reset of their endpoint freed: local FEN, peer FEN and NEXT_MSG_SEQ. Their messages were issued before
  it (07 R224). -/
  prior : List (Nat × Nat × Nat)
  trackers : Tbl Tracker
  works : Tbl Work
  /-- The bins' chains (11 R343), by 2 * bin + 1 for UNEXPECTED: STAMP, endpoint and entry, in the order that BIN_LINK gives;
  and the message index, by 65,536 * PEER_FEN + SEND_SEQ, in the order that MSG_LINK gives (11 R342). -/
  bins : Tbl (List (Nat × Nat × Nat))
  msgIndex : Tbl (List (Nat × Nat))
  /-- Matched rendezvous entries that wait for their pull: endpoint and entry (11 R355). -/
  pullQueue : List (Nat × Nat)
  trees : Tbl Tree
  locks : Tbl LockCell
  pends : Tbl Pend
  /-- The PENDING entries that have ended, each identity once, by which late responses are told apart (08 R265, 07 R224). -/
  lastPends : List PastPend
  hbm : List Host.Cell
  deriving DecidableEq, Repr

/-- A region after chip reset or its own reset; its LFSR is loaded when it starts (05 R153). -/
def Region.reset : Region :=
  { chip := ChipRegs.reset, epochs := [], live := 0, limp := 0, banks := ⟨[], [], [], []⟩, portPtr := 0, lfsr := 1,
    reports := [], cells := [], arriving := [], poolFree := 154368, poolOpen := true, waiting := [], crossing := [], outPtr := [],
    inPtr := [], poolPtr := 0, poolTick := 0, poolAsked := [], poolBase := 0, poolWaits := [], buttressPtr := [],
    intakes := [], swaps := [], slicePtr := 0, initPtr := 0, arrPtr := 0, state := .run,
    forced := false, cellsLost := 0, drainEnd := 0, carve := Carve.default, conns := [], ops := [], reuse := [],
    trackerOf := [], abandoned := [], prior := [], trackers := [], works := [], bins := [], msgIndex := [],
    pullQueue := [], trees := [], locks := [], pends := [], lastPends := [],
    hbm := [] }

/-- Engine-block states (15 R481), in code order. -/
inductive BState where
  | run | migrating | resetting | off
  deriving DecidableEq, Repr

/-- A work item parked for the engines of a region: its number and arrival stamp (15 R480). -/
structure Item where
  id : Nat
  stamp : Nat
  deriving DecidableEq, Repr

/-- An engine block (15 R481 to R483). -/
structure Block where
  state : BState
  version : Nat
  /-- The engine code of the version, which its engines' code SRAM holds while the block is in RUN or MIGRATING (01 R43, 17 R516),
  and the code that a block command is to load. -/
  code : List Byte
  newCode : List Byte
  queue : List Item
  /-- Steps running: engine and item. -/
  running : List (Nat × Item)
  dispatchPtr : Nat
  movePtr : Nat
  /-- End of STEP_LIMIT, items moved, steps redone, the version to load, and whether it is a BLOCK_LOAD. `movePtr` of the
  region's first block is the pointer that settles the ties of R481. -/
  limit : Nat
  moved : Nat
  redone : Nat
  loading : Nat
  isLoad : Bool
  deriving DecidableEq, Repr

/-- A block after reset, before its engine code is loaded (15 R483). -/
def Block.reset : Block := ⟨.run, 0, [], [], [], [], 0, 0, 0, 0, 0, 0, false⟩

/-- Pair states (15 R462), in code order. -/
inductive PairState where
  | off | joining | paired | taken | fenced
  deriving DecidableEq, Repr

/-- The twin registers and the heartbeat times (15 R463 to R478). -/
structure Twin where
  state : PairState
  peerDead : Bool
  peerHeard : Bool
  fenceCause : Nat
  epochOwn : Nat
  epochAlt : Nat
  peerEpoch : Nat
  peerState : Nat
  peerSeq : Nat
  cfg : Reg
  peerSerial : Nat
  /-- TWIN_MAP byte t. -/
  map : Tbl Nat
  hbSeq : Nat
  lastHeard : Option Nat
  lastIssued : Nat
  /-- Start of the death window, and whether it runs: it ends with a declaration. -/
  windowStart : Nat
  windowOpen : Bool
  deriving DecidableEq, Repr

def Twin.reset : Twin :=
  ⟨.off, false, false, 0, 0, 0, 0, 0, 0, 0x500500000000#64, 0, [], 0, none, 0, 0, false⟩

/-! ## 14: the Warden -/

/-- A request registered in the Warden's intake (14 R443); for an in-band request the packet's header and
the region it arrived in (14 R435). -/
structure Request where
  path : Path
  stamp : Nat
  bytes : List Byte
  hdr : Option Hdr
  region : Nat
  /-- For a gate's request: 1 once its queue has been reset, 2 once its endpoint has (08 R265, 07 R224). -/
  orphan : Nat
  deriving DecidableEq, Repr

/-- A command that executes beyond the step that starts it (14 R443 to R446). -/
structure Exec where
  req : Request
  opcode : Nat
  detached : Bool
  started : Nat
  /-- INTERIMs sent so far. -/
  interims : Nat
  /-- What the command works on. -/
  a : Nat
  b : Nat
  data : List Byte
  /-- A CMD_ABORT waits for the safe point. -/
  aborting : Bool
  deriving DecidableEq, Repr

/-- A request sent to another device and not answered (14 R434, R436). -/
structure Outstanding where
  id : Nat
  /-- For MGMT_FORWARD: the outer command's path and tag. -/
  forward : Option (Path × Nat)
  ep : Nat
  sq : Nat
  tag : Nat
  router : Nat
  since : Nat
  /-- As for a request. -/
  orphan : Nat
  /-- An uncorrectable error took it: no reply finds it, and CMD_TIMEOUT ends it (18 R534). -/
  lost : Bool
  deriving DecidableEq, Repr

/-- The Warden (14). -/
structure Warden where
  trust : Tbl Reg
  ctrl : Reg
  /-- Live nonces with their EXPIRES, oldest first (14 R442). -/
  nonces : List (Nat × Nat)
  intake : List Request
  executing : List Exec
  intakePtr : Nat
  calls : List Outstanding
  /-- CLOCK_STATUS: BELFRY, HBM, BUTTRESS, WARDEN_PLL, DONE and NREF_OFFSET; CLOCK_ENGINES (14 R457). -/
  belfry : Nat
  hbm : Nat
  buttress : Nat
  pll : Bool
  done : Bool
  nref : Int
  engines : Nat
  deriving DecidableEq, Repr

def Warden.reset : Warden :=
  { trust := [], ctrl := 0xC903E8000A#64, nonces := [], intake := [], executing := [], intakePtr := 0, calls := [],
    belfry := 0, hbm := 0, buttress := 0, pll := false, done := false, nref := 0, engines := 0 }

/-! ## 17: start-up -/

/-- Where start-up stands (17 R512). -/
inductive Stage where
  | off
  /-- The Warden is released; BOOT_START follows. -/
  | released
  /-- Gate bring-up is done. -/
  | running
  deriving DecidableEq, Repr

/-- What start-up fixed (17 R513 to R523, R531). -/
structure Boot where
  stage : Stage
  slot : Nat
  fallback : Bool
  recovery : Bool
  configDefault : Bool
  engineFail : Bool
  /-- ENGINE_CODE_LOAD has loaded the engines (17 R516), and the Warden section in the Warden's memory (01 R43, 17 R514). -/
  engineLoaded : Bool
  firmware : List Byte
  fail0 : Nat
  fail1 : Nat
  version : Nat
  imageDigest : List Byte
  configDigest : List Byte
  /-- The owner key; empty when there is none (17 R519). -/
  ownerKey : List Byte
  gateMode : Nat
  priv : Nat
  /-- Carve-outs after R45. -/
  carve : Carve
  /-- The end of a CHIP_RESET's DELAY (17 R530). -/
  resetAt : Option Nat
  deriving DecidableEq, Repr

def Boot.reset : Boot :=
  ⟨.off, 0, false, false, false, false, false, [], 0, 0, 0, [], [], [], 0, 0, Carve.default, none⟩

/-- The fuses that a command writes (17 R517): the rollback floor, OWNER_FUSED and OWNER_DIGEST. -/
structure Fuses where
  floor : Nat
  ownerFused : Bool
  ownerDigest : List Byte
  deriving DecidableEq, Repr

/-! ## 18: errors and events -/

/-- A raise on its way to the Warden (18 R546). -/
structure Raise where
  /-- The island that raised it. -/
  island : Nat
  source : Nat
  code : Nat
  arg : Nat
  time : Nat
  injected : Bool
  deriving DecidableEq, Repr

/-- An open holdoff window of a source: its end, the raises held, the first and the latest (18 R549). -/
structure Window where
  ends : Nat
  held : Nat
  first : Raise
  last : Raise
  /-- A raise of the hardware, not of EVENT_INJECT, is held (R543, R554). -/
  hard : Bool
  deriving DecidableEq, Repr

/-- An event record as it is built (18 R550). -/
structure Record where
  raise_ : Raise
  count : Nat
  seq : Nat
  deriving DecidableEq, Repr

/-- Event routing and records (18 R546 to R551); `pending` has bit s for source s. -/
structure Events where
  pending : Nat
  /-- The Warden tick in which PENDING bits were last set, and which (00 R9). -/
  setAt : Nat
  setMask : Nat
  map : Tbl Nat
  windows : Tbl Window
  seq : Nat
  log : Tbl Record
  deriving DecidableEq, Repr

/-- Quarantined cells as masks, spares used by region * 65536 + array, and banks that failed and have no
copy yet; and banks that failed when their array had no spare left (18 R535, R536). -/
structure Quarantine where
  engines : Nat
  lanes : Nat
  inputs : Nat
  spares : Tbl Nat
  copying : List (Nat × Nat × Nat)
  failed : List (Nat × Nat × Nat)
  deriving DecidableEq, Repr

/-- The device, without its fuses and its flash. -/
structure Dev where
  /-- The Warden's master copy of the time base, ns (00 R13). -/
  now : Nat
  /-- How far an island's copy stands from it, plus 4: 0 to 8 (00 R13). -/
  skews : Tbl Nat
  /-- How many free values have been drawn: the model's own field (log entry 8). -/
  free : Nat
  /-- The next internal object number: the model's own field. -/
  nextId : Nat
  out : List Output
  counters : Tbl Nat
  raises : List Raise
  events : Events
  lantern : Lantern
  cages : Tbl Cage
  ports : Tbl Port
  chip : ChipRegs
  regions : Tbl Region
  gates : Tbl Gate
  eps : Tbl Endpoint
  warden : Warden
  epochs : Tbl Nat
  twin : Twin
  blocks : Tbl Block
  boot : Boot
  errCtrl : Reg
  /-- Start of the running error window, what each region's corrected errors, SRAM and HBM, rose by in it, and the regions
  whose CORRECTED_LIMIT (bit r) and HBM_CORRECTED_LIMIT (bit 4 + r) have been raised (18 R537). -/
  errStart : Nat
  errRise : Tbl (Nat × Nat)
  errRaised : Nat
  quarantine : Quarantine
  deriving DecidableEq, Repr

/-- The device right after VLANTERN is applied (17 R532). -/
def Dev.reset : Dev :=
  { now := 0, skews := [], free := 0, nextId := 0, out := [], counters := [], raises := [],
    events := ⟨0, 0, 0, [], [], 0, []⟩, lantern := Lantern.reset, cages := [], ports := [], chip := ChipRegs.reset,
    regions := [], gates := [], eps := [], warden := Warden.reset, epochs := [], twin := Twin.reset, blocks := [],
    boot := Boot.reset, errCtrl := 0x6403E8#64, errStart := 0, errRise := [], errRaised := 0, quarantine := ⟨0, 0, 0, [], [], []⟩ }

/-- The state of the block: the device, the parts that no power loss clears, and the queue of waiting
commands, first in, first out. -/
structure State where
  dev : Dev
  fuses : Fuses
  /-- The flash as a canonical list of cells; an unlisted byte reads 0xFF (log entry 4). -/
  flash : List Host.Cell
  pending : List Instr
  deriving DecidableEq, Repr

/-- The state right after reset: VLANTERN has just been applied and RESET_N is low (02 R54 step 1), the
fuses that a command writes are unblown and the flash is erased (log entries 2 and 4). -/
def State.reset : State :=
  { dev := Dev.reset, fuses := ⟨0, false, []⟩, flash := [], pending := [] }

end Sys2Proof.Machine
end

