-- ==== Sys2Proof/Machine/Numbers.lean ====
section
/-! DEFINITION. The numbers of the counters (18 R541, R542), by scope and in the order of the statements that
list them, and the numbers of the event sources (18 R545). -/

namespace Sys2Proof.Machine.Ctr

/-- Counter number bases of R541. -/
def regionBase (r : Nat) : Nat := 0x10000 + 0x1000 * r
def portBase (p : Nat) : Nat := 0x20000 + 0x100 * p
def epBase (e : Nat) : Nat := 0x30000 + 0x200 * e
def blockBase (b : Nat) : Nat := 0x40000 + 0x40 * b

/-! R460 (chip), from index 0x0. -/
def cmdsReceived : Nat := 0x0
def cmdIntakeDrops : Nat := 0x1
def cmdDupTags : Nat := 0x2
def badFrames : Nat := 0x3
def authRefusals : Nat := 0x4
def sigFails : Nat := 0x5
def interimsSent : Nat := 0x6
def cmdsAborted : Nat := 0x7
def lateReplies : Nat := 0x8
/-! R490 (chip), from index 0x10. -/
def hbSent : Nat := 0x10
def hbReceived : Nat := 0x11
def hbRejects : Nat := 0x12
def twinDeaths : Nat := 0x13
def takeovers : Nat := 0x14
def fenceEntries : Nat := 0x15
/-! R511 (chip), from index 0x20. -/
def p2Entries : Nat := 0x20
def p3Entries : Nat := 0x21
def entryCancels : Nat := 0x22
def wakes (n : Nat) : Nat := 0x22 + n
def wakesLost : Nat := 0x29
def powerRefusals : Nat := 0x2A
def brFrames : Nat := 0x2B
def brBadFrames : Nat := 0x2C
/-! R543 (chip), from index 0x40. -/
def chipCrossingDrops : Nat := 0x40
def chipSecdedCorrected : Nat := 0x41
def chipUncorrectableDrops : Nat := 0x42
def tj85S : Nat := 0x43
def tj95S : Nat := 0x44
def tj105S : Nat := 0x45
def powerOnS : Nat := 0x46
def eventsRaised : Nat := 0x47
def eventRecords : Nat := 0x48
def eventsCoalesced : Nat := 0x49
/-! R170 (region), from index 0x0. -/
def hdrDrops (r : Nat) : Nat := regionBase r + 0x0
def noRouteDrops (r : Nat) : Nat := regionBase r + 0x1
def rungDrops (r : Nat) : Nat := regionBase r + 0x2
def hopLimitDrops (r : Nat) : Nat := regionBase r + 0x3
def laHits (r : Nat) : Nat := regionBase r + 0x4
def laMisses (r : Nat) : Nat := regionBase r + 0x5
def nonminChosen (r : Nat) : Nat := regionBase r + 0x6
def reroutes (r : Nat) : Nat := regionBase r + 0x7
def truncDrops (r : Nat) : Nat := regionBase r + 0x8
def truncStomps (r : Nat) : Nat := regionBase r + 0x9
def ecrcErrors (r : Nat) : Nat := regionBase r + 0xA
def truncReceived (r : Nat) : Nat := regionBase r + 0xB
def commits (r : Nat) : Nat := regionBase r + 0xC
/-! R195 (region), from index 0x10. -/
def poolCloses (r : Nat) : Nat := regionBase r + 0x10
def cmarksSet (r : Nat) : Nat := regionBase r + 0x11
def mgmtHoldDrops (r : Nat) : Nat := regionBase r + 0x12
/-! R401 (region), from index 0x20. -/
def collUpSent (r : Nat) : Nat := regionBase r + 0x20
def collDownSent (r : Nat) : Nat := regionBase r + 0x21
def segmentsCombined (r : Nat) : Nat := regionBase r + 0x22
def compactElems (r : Nat) : Nat := regionBase r + 0x23
def fullElems (r : Nat) : Nat := regionBase r + 0x24
def instancesEnded (r : Nat) : Nat := regionBase r + 0x25
def partialInstances (r : Nat) : Nat := regionBase r + 0x26
def mismatches (r : Nat) : Nat := regionBase r + 0x27
def badSourceDrops (r : Nat) : Nat := regionBase r + 0x28
def staleInstanceDrops (r : Nat) : Nat := regionBase r + 0x29
def lateContributions (r : Nat) : Nat := regionBase r + 0x2A
def absentMarks (r : Nat) : Nat := regionBase r + 0x2B
def downTimeouts (r : Nat) : Nat := regionBase r + 0x2C
/-! R424 (region), from index 0x30. -/
def lockGrants (r : Nat) : Nat := regionBase r + 0x30
def lockQueued (r : Nat) : Nat := regionBase r + 0x31
def lockBusySent (r : Nat) : Nat := regionBase r + 0x32
def inheritsSent (r : Nat) : Nat := regionBase r + 0x33
def disinheritsSent (r : Nat) : Nat := regionBase r + 0x34
def forcedReleases (r : Nat) : Nat := regionBase r + 0x35
def abandonments (r : Nat) : Nat := regionBase r + 0x36
def pendWaits (r : Nat) : Nat := regionBase r + 0x37
def lateLockResponses (r : Nat) : Nat := regionBase r + 0x38
def lockRepeats (r : Nat) : Nat := regionBase r + 0x39
def lockCancels (r : Nat) : Nat := regionBase r + 0x3A
def lockBadOpcodes (r : Nat) : Nat := regionBase r + 0x3B
/-! R490 (region), from index 0x40. -/
def fenceDiscards (r : Nat) : Nat := regionBase r + 0x40
def staleEpochDrops (r : Nat) : Nat := regionBase r + 0x41
def altDrops (r : Nat) : Nat := regionBase r + 0x42
def blockResets (r : Nat) : Nat := regionBase r + 0x43
def blockLoads (r : Nat) : Nat := regionBase r + 0x44
def itemsMigrated (r : Nat) : Nat := regionBase r + 0x45
def stepsRedone (r : Nat) : Nat := regionBase r + 0x46
def regionDrains (r : Nat) : Nat := regionBase r + 0x47
def regionResets (r : Nat) : Nat := regionBase r + 0x48
/-! R543 (region), from index 0x80. -/
def crossingDrops (r : Nat) : Nat := regionBase r + 0x80
def secdedCorrected (r : Nat) : Nat := regionBase r + 0x81
def uncorrectableDrops (r : Nat) : Nat := regionBase r + 0x82
def cellsQuarantined (r : Nat) : Nat := regionBase r + 0x83
def sparesUsed (r : Nat) : Nat := regionBase r + 0x84
def hbmCorrected (r : Nat) : Nat := regionBase r + 0x85
def hbmUncorrectable (r : Nat) : Nat := regionBase r + 0x86
/-! R106 (port), from index 0x0. -/
def trainAttempts (p : Nat) : Nat := portBase p + 0x0
def tierFails (p : Nat) : Nat := portBase p + 0x1
def widthChanges (p : Nat) : Nat := portBase p + 0x2
def ckLosses (p : Nat) : Nat := portBase p + 0x3
def t0CodeErrors (p : Nat) : Nat := portBase p + 0x4
def limpFrameDrops (p : Nat) : Nat := portBase p + 0x5
def sleepEntries (p : Nat) : Nat := portBase p + 0x6
def wakeFails (p : Nat) : Nat := portBase p + 0x7
/-! R131 (port), from index 0x10. -/
def luSentData (p : Nat) : Nat := portBase p + 0x10
def luSentIdle (p : Nat) : Nat := portBase p + 0x11
def laneCorrected (p n : Nat) : Nat := portBase p + 0x12 + n
def fecUncorrectable (p : Nat) : Nat := portBase p + 0x1A
def crcFails (p : Nat) : Nat := portBase p + 0x1B
def naksSent (p : Nat) : Nat := portBase p + 0x1C
def naksReceived (p : Nat) : Nat := portBase p + 0x1D
def staleNaks (p : Nat) : Nat := portBase p + 0x1E
def resends (p : Nat) : Nat := portBase p + 0x1F
def resendTimeouts (p : Nat) : Nat := portBase p + 0x20
def duplicates (p : Nat) : Nat := portBase p + 0x21
def protocolErrors (p : Nat) : Nat := portBase p + 0x22
def retryLimitBreaks (p : Nat) : Nat := portBase p + 0x23
def creditTimeoutBreaks (p : Nat) : Nat := portBase p + 0x24
def linkBreaks (p : Nat) : Nat := portBase p + 0x25
def resumesKept (p : Nat) : Nat := portBase p + 0x26
def resumesFresh (p : Nat) : Nat := portBase p + 0x27
def replayDiscards (p : Nat) : Nat := portBase p + 0x28
def rxDiscards (p : Nat) : Nat := portBase p + 0x29
/-! R195 (port), from index 0x30. -/
def skidEntries (p : Nat) : Nat := portBase p + 0x30
def skidDrops (p : Nat) : Nat := portBase p + 0x31
def stopNs (p n : Nat) : Nat := portBase p + 0x32 + n
/-! R225 (endpoint), from index 0x0. -/
def badAccess (e : Nat) : Nat := epBase e + 0x0
def unprivWrites (e : Nat) : Nat := epBase e + 0x1
def bar4Oor (e : Nat) : Nat := epBase e + 0x2
def cplTimeouts (e : Nat) : Nat := epBase e + 0x3
def tagsExpired (e : Nat) : Nat := epBase e + 0x4
def lateCplDiscards (e : Nat) : Nat := epBase e + 0x5
def lateWriteDiscards (e : Nat) : Nat := epBase e + 0x6
def unexpectedCpl (e : Nat) : Nat := epBase e + 0x7
def flrs (e : Nat) : Nat := epBase e + 0x8
def hotResets (e : Nat) : Nat := epBase e + 0x9
def persts (e : Nat) : Nat := epBase e + 0xA
def surpriseRemovals (e : Nat) : Nat := epBase e + 0xB
def refusalsSent (e : Nat) : Nat := epBase e + 0xC
def respDiscards (e : Nat) : Nat := epBase e + 0xD
/-! R269 (endpoint), from index 0x10. -/
def doorbells (e : Nat) : Nat := epBase e + 0x10
def badDoorbells (e : Nat) : Nat := epBase e + 0x11
def pushes (e : Nat) : Nat := epBase e + 0x12
def pushMisses (e : Nat) : Nat := epBase e + 0x13
def entriesAccepted (e : Nat) : Nat := epBase e + 0x14
def malformed (e : Nat) : Nat := epBase e + 0x15
def ringFetchFails (e : Nat) : Nat := epBase e + 0x16
def ctxErrors (e : Nat) : Nat := epBase e + 0x17
def ctxWriteRejects (e : Nat) : Nat := epBase e + 0x18
def flushedEntries (e : Nat) : Nat := epBase e + 0x19
def staleResponses (e : Nat) : Nat := epBase e + 0x1A
def cqBadDoorbells (e : Nat) : Nat := epBase e + 0x1B
def eqOverflows (e : Nat) : Nat := epBase e + 0x1C
def recordsDiscarded (e : Nat) : Nat := epBase e + 0x1D
/-! R294 (endpoint), from index 0x20. -/
def tcHits (e : Nat) : Nat := epBase e + 0x20
def tcMisses (e : Nat) : Nat := epBase e + 0x21
def walks (e : Nat) : Nat := epBase e + 0x22
def walkFaults (e n : Nat) : Nat := epBase e + 0x22 + n
def specWalkDrops (e : Nat) : Nat := epBase e + 0x2A
def invalidations (e : Nat) : Nat := epBase e + 0x2B
def trOpRejects (e : Nat) : Nat := epBase e + 0x2C
def keyOpRejects (e : Nat) : Nat := epBase e + 0x2D
def keySets (e : Nat) : Nat := epBase e + 0x2E
def keyRevokes (e : Nat) : Nat := epBase e + 0x2F
def keyRefusals (e : Nat) : Nat := epBase e + 0x30
def apertureBad (e : Nat) : Nat := epBase e + 0x31
/-! R329 (endpoint), from index 0x40. -/
def rmaOps (e : Nat) : Nat := epBase e + 0x40
def rmaPktsSent (e : Nat) : Nat := epBase e + 0x41
def rmaPktsPlaced (e : Nat) : Nat := epBase e + 0x42
def retries (e : Nat) : Nat := epBase e + 0x43
def timeouts (e : Nat) : Nat := epBase e + 0x44
def outcomeUnknowns (e : Nat) : Nat := epBase e + 0x45
def partialWrites (e : Nat) : Nat := epBase e + 0x46
def refusalsReceived (e : Nat) : Nat := epBase e + 0x47
def refusalsRetryLater (e : Nat) : Nat := epBase e + 0x48
def staleAttemptDrops (e : Nat) : Nat := epBase e + 0x49
def lateResponses (e : Nat) : Nat := epBase e + 0x4A
def acksSent (e : Nat) : Nat := epBase e + 0x4B
def ackMapsSent (e : Nat) : Nat := epBase e + 0x4C
def windowCuts (e : Nat) : Nat := epBase e + 0x4D
def windowGrows (e : Nat) : Nat := epBase e + 0x4E
def fenceWaits (e : Nat) : Nat := epBase e + 0x4F
def connWaits (e : Nat) : Nat := epBase e + 0x50
def connEvictions (e : Nat) : Nat := epBase e + 0x51
def trackerExpiries (e : Nat) : Nat := epBase e + 0x52
def badOpcodes (e : Nat) : Nat := epBase e + 0x53
/-! R363 (endpoint), from index 0x60. -/
def sendsEager (e : Nat) : Nat := epBase e + 0x60
def sendsRndv (e : Nat) : Nat := epBase e + 0x61
def recvsPosted (e : Nat) : Nat := epBase e + 0x62
def matchOnArrival (e : Nat) : Nat := epBase e + 0x63
def matchOnPost (e : Nat) : Nat := epBase e + 0x64
def msgsHeld (e : Nat) : Nat := epBase e + 0x65
def seqSkips (e : Nat) : Nat := epBase e + 0x66
def rebases (e : Nat) : Nat := epBase e + 0x67
def rebasesLost (e : Nat) : Nat := epBase e + 0x68
def oldMessages (e : Nat) : Nat := epBase e + 0x69
def windowRefusals (e : Nat) : Nat := epBase e + 0x6A
def connRefusals (e : Nat) : Nat := epBase e + 0x6B
def sendWaits (e : Nat) : Nat := epBase e + 0x6C
def recvRejects (e : Nat) : Nat := epBase e + 0x6D
def uxFullRefusals (e : Nat) : Nat := epBase e + 0x6E
def rndvQueued (e : Nat) : Nat := epBase e + 0x6F
def truncations (e : Nat) : Nat := epBase e + 0x70
def entryExpiries (e : Nat) : Nat := epBase e + 0x71
def entriesDiscarded (e : Nat) : Nat := epBase e + 0x72
def rndvPulls (e : Nat) : Nat := epBase e + 0x73
def handleRefusals (e : Nat) : Nat := epBase e + 0x74
def lendExpiries (e : Nat) : Nat := epBase e + 0x75
def chainSteps (e : Nat) : Nat := epBase e + 0x76
/-! R460 (endpoint), from index 0x80. -/
def cmdsSent (e : Nat) : Nat := epBase e + 0x80
def cmdTimeouts (e : Nat) : Nat := epBase e + 0x81
/-! R543 (block), from index 0x0. -/
def blockCrossingDrops (b : Nat) : Nat := blockBase b + 0x0
def blockSecdedCorrected (b : Nat) : Nat := blockBase b + 0x1
def blockUncorrectableDrops (b : Nat) : Nat := blockBase b + 0x2
def blockCellsQuarantined (b : Nat) : Nat := blockBase b + 0x3

/-- The indices that the catalogue assigns in a region's and in a port's window (R542): the first of each range, and how many. -/
def regionRanges : List (Nat × Nat) := [(0x00, 13), (0x10, 3), (0x20, 13), (0x30, 12), (0x40, 9), (0x80, 7)]
def portRanges : List (Nat × Nat) := [(0x00, 8), (0x10, 26), (0x30, 22)]

/-- The counters that only VLANTERN resets (R540, R511). -/
def isLamplighter (n : Nat) : Bool := decide (0x20 ≤ n ∧ n < 0x2D)

end Sys2Proof.Machine.Ctr

namespace Sys2Proof.Machine.Src

/-! Event sources by object and k (R545). -/
def port (p k : Nat) : Nat := 6 * p + k
def cage (c k : Nat) : Nat := 768 + 2 * c + k
/-- Endpoint `e = 2 × gate + sub`. -/
def ep (e k : Nat) : Nat := 1024 + 8 * e + k
def region (r k : Nat) : Nat := 1152 + 32 * r + k
def block (b : Nat) : Nat := 1280 + b
def chip (k : Nat) : Nat := 1344 + k

/-- A source marked reserved is never raised (R545). -/
def reserved (s : Nat) : Bool :=
  decide (1408 ≤ s) || (decide (1152 ≤ s ∧ s < 1280) && decide (26 ≤ (s - 1152) % 32)) || decide (1354 ≤ s)

/-- The SCOPE field of a record (R550). -/
def scope (s : Nat) : Nat :=
  if s < 768 then 0 else if s < 1024 then 1 else if s < 1152 then 2 else if s < 1280 then 3
  else if s < 1344 then 4 else 5

end Sys2Proof.Machine.Src
end

