-- ==== Sys2Proof/Machine/Table.lean ====
section
/-! DEFINITION. Tables by key, memories as canonical lists of cells, and list operations. -/

namespace Sys2Proof.Machine

/-! ## Tables -/

/-- The value listed for a key. -/
def tget {α : Type} : Tbl α → Nat → Option α
  | [], _ => none
  | (j, x) :: t, k => if j = k then some x else tget t k

/-- The value of a key, with what an unlisted key holds. -/
def tgetD {α : Type} (t : Tbl α) (k : Nat) (d : α) : α := (tget t k).getD d

/-- The table with a key's value set: the entries of lesser keys, the new entry, the entries of greater keys. Keys keep
rising. -/
def tput {α : Type} (t : Tbl α) (k : Nat) (x : α) : Tbl α :=
  t.filter (fun e => decide (e.1 < k)) ++ (k, x) :: t.filter (fun e => decide (k < e.1))

/-- The table without a key. -/
def tdrop {α : Type} (t : Tbl α) (k : Nat) : Tbl α := t.filter (fun e => e.1 != k)

/-- The table with the value of a listed key changed. -/
def tmod {α : Type} (t : Tbl α) (k : Nat) (f : α → α) : Tbl α :=
  t.map (fun e => if e.1 = k then (e.1, f e.2) else e)

/-- The table without the keys of [lo, hi). -/
def tdropRange {α : Type} (t : Tbl α) (lo hi : Nat) : Tbl α :=
  t.filter (fun e => !(lo ≤ e.1 && e.1 < hi))

/-! ## Memories -/

/-- The canonical form of a memory whose unlisted bytes read as `d`: addresses rise strictly and no cell
lists `d`. -/
def Memory.wf (d : Byte) : List Host.Cell → Bool
  | [] => true
  | [c] => c.2 != d
  | c :: e :: m => c.2 != d && decide (c.1 < e.1) && Memory.wf d (e :: m)

/-- The byte at an address. -/
def Memory.read (d : Byte) : List Host.Cell → Nat → Byte
  | [], _ => d
  | c :: m, a => if c.1 = a then c.2 else Memory.read d m a

/-- The memory with one byte written, in canonical form. -/
def Memory.write (d : Byte) : List Host.Cell → Nat → Byte → List Host.Cell
  | [], a, b => if b = d then [] else [(a, b)]
  | c :: m, a, b =>
    if a < c.1 then (if b = d then c :: m else (a, b) :: c :: m)
    else if a = c.1 then (if b = d then m else (a, b) :: m)
    else c :: Memory.write d m a b

/-- `n` bytes from an address. -/
def Memory.readN (d : Byte) (m : List Host.Cell) (a : Nat) : Nat → List Byte
  | 0 => []
  | n + 1 => Memory.read d m a :: Memory.readN d m (a + 1) n

/-- Bytes written from an address upward. -/
def Memory.writeN (d : Byte) (m : List Host.Cell) (a : Nat) : List Byte → List Host.Cell
  | [] => m
  | b :: bs => Memory.writeN d (Memory.write d m a b) (a + 1) bs

/-! ## Lists -/

/-- The first element that holds a test, and the list without it. -/
def takeFirst {α : Type} (p : α → Bool) : List α → Option (α × List α)
  | [] => none
  | x :: xs => if p x then some (x, xs) else (takeFirst p xs).map (fun r => (r.1, x :: r.2))

/-- The list with every element that holds a test changed. -/
def modWhere {α : Type} (p : α → Bool) (f : α → α) (xs : List α) : List α :=
  xs.map (fun x => if p x then f x else x)

/-- The element of least key; the earliest of equals. -/
def minBy {α : Type} (key : α → Nat) : List α → Option α
  | [] => none
  | x :: xs => match minBy key xs with
    | none => some x
    | some y => if key x ≤ key y then some x else some y

/-- A number put into an ascending list without repeats. -/
def insertNat (n : Nat) (ns : List Nat) : List Nat :=
  ns.filter (fun m => decide (m < n)) ++ n :: ns.filter (fun m => decide (n < m))

/-- Do `f` for each element in turn. -/
def forEach {α β : Type} (xs : List α) (f : α → β → β) (b : β) : β := xs.foldl (fun b x => f x b) b

/-- One requester of an arbiter: its position, its priority (higher first) and its arrival stamp (00 R16). -/
structure Req where
  pos : Nat
  prio : Nat
  stamp : Nat
  deriving DecidableEq, Repr

/-- Distance of a position from the rotating pointer, in ascending order with wrap (00 R16 step 3). -/
def fromPointer (n ptr pos : Nat) : Nat := (pos + n - ptr % n) % n

/-- The winner among requesters by the steps of R16: priority, then age, then the rotating pointer over `n`
positions. It answers the winner's position and the pointer afterwards, which moves only when step 3 decides.
An arbiter that does not use a step gives every requester the same value in it. -/
def arbitrate (n ptr : Nat) (rs : List Req) : Option (Nat × Nat) :=
  let hi := rs.foldl (fun m r => max m r.prio) 0
  let a := rs.filter (fun r => r.prio == hi)
  match minBy (fun r => r.stamp) a with
  | none => none
  | some o =>
    match a.filter (fun r => r.stamp == o.stamp) with
    | [] => none
    | [x] => some (x.pos, ptr)
    | x :: xs =>
      match minBy (fun r => fromPointer n ptr r.pos) (x :: xs) with
      | none => none
      | some w => some (w.pos, (w.pos + 1) % n)

/-- The requesters that lose when `k` of them are served one after the other by the steps of R16, and the pointer
afterwards. -/
def losers (n : Nat) : Nat → Nat → List Req → List Req × Nat
  | 0, ptr, rs => (rs, ptr)
  | k + 1, ptr, rs =>
    match arbitrate n ptr rs with
    | none => (rs, ptr)
    | some (pos, ptr) => losers n k ptr (rs.filter (fun r => r.pos != pos))

end Sys2Proof.Machine
end

