-- ==== Sys2Proof/Machine/Ops.lean ====
section
/-! DEFINITION. The named operations over the device: islands and their time, counters, raises, outputs, free
values, the accessors of every table with what an unlisted key holds, and what a chip reset leaves. -/

namespace Sys2Proof.Machine

/-! ## Islands (01 R32), numbered for the table of copies of the time base -/

namespace Isl
def rx (p : Nat) : Nat := p
def belfry (r : Nat) : Nat := 128 + r
def block (b : Nat) : Nat := 132 + b
def gate (g : Nat) : Nat := 196 + g
def hbm (r : Nat) : Nat := 204 + r
/-- The Buttress direction from one region to another. -/
def buttress (r q : Nat) : Nat := 208 + 3 * r + (if q < r then q else q - 1)
def warden : Nat := 220
def lantern : Nat := 221
end Isl

/-- The tick of an island in ps, where it is longer than 1 ns (01 R32): a port receive island by its tier, the Warden
before its PLL runs, and Lantern; 0 where the copy advances every ns. -/
def Dev.tickPs (d : Dev) (i : Nat) : Nat :=
  if i < 128 then
    match (tgetD d.ports i Port.reset).train.tier with
    | 0 => 4000
    | 1 => 5120
    | 2 => 2560
    | _ => 1280
  else if i = Isl.warden then (if d.warden.pll then 0 else 1250)
  else if i = Isl.lantern then 40000
  else 0

/-- An island's copy of the time base (00 R13): the whole ns elapsed at its last tick, 64 bits wide. Ticks longer than
1 ns are counted from time 0 (log entry 12). -/
def Dev.clk (d : Dev) (i : Nat) : Nat :=
  let t := (d.now + tgetD d.skews i 4 - 4) % 2 ^ 64
  let p := d.tickPs i
  if p = 0 then t else t * 1000 / p * p / 1000

/-- The Belfry time of a region, the Warden's and the Lantern's. -/
def Dev.belfryNow (d : Dev) (r : Nat) : Nat := d.clk (Isl.belfry r)
def Dev.gateNow (d : Dev) (e : Nat) : Nat := d.clk (Isl.gate (e / 2))
def Dev.wardenNow (d : Dev) : Nat := d.clk Isl.warden
def Dev.lanternNow (d : Dev) : Nat := d.clk Isl.lantern

/-! ## Counters, raises, outputs, free values, object numbers -/

/-- The value of a counter (18 R540). -/
def Dev.counter (d : Dev) (n : Nat) : Nat := tgetD d.counters n 0

/-- A counter incremented `k` times, modulo 2^64 (18 R540). -/
def Dev.countBy (d : Dev) (n k : Nat) : Dev :=
  { d with counters := tput d.counters n ((d.counter n + k) % 2 ^ 64) }

/-- A counter incremented once. -/
def Dev.count (d : Dev) (n : Nat) : Dev := d.countBy n 1

/-- A counter set to 0 (14 R452). -/
def Dev.clearCounter (d : Dev) (n : Nat) : Dev := { d with counters := tdrop d.counters n }

/-- A source raised in an island, stamped with that island's time (18 R546, R550). -/
def Dev.raise (d : Dev) (island src code arg : Nat) : Dev :=
  { d with raises := d.raises ++ [⟨island, src, code, arg, d.clk island, false⟩] }

/-- Something leaves the device. -/
def Dev.emit (d : Dev) (o : Output) : Dev := { d with out := d.out ++ [o] }

/-- One free value is drawn: the number it is drawn at is `d.free`. -/
def Dev.draw (d : Dev) : Dev := { d with free := d.free + 1 }

/-- The next internal object number is taken: it is `d.nextId`. -/
def Dev.takeId (d : Dev) : Dev := { d with nextId := d.nextId + 1 }

/-! ## Ports -/

def Dev.port (d : Dev) (p : Nat) : Port := tgetD d.ports p Port.reset
def Dev.setPort (d : Dev) (p : Nat) (x : Port) : Dev := { d with ports := tput d.ports p x }
def Dev.modPort (d : Dev) (p : Nat) (f : Port → Port) : Dev := d.setPort p (f (d.port p))
def Dev.modTrain (d : Dev) (p : Nat) (f : Train → Train) : Dev :=
  d.modPort p (fun x => { x with train := f x.train })
def Dev.modToll (d : Dev) (p : Nat) (f : Toll → Toll) : Dev :=
  d.modPort p (fun x => { x with toll := f x.toll })

/-- A receive lane; lanes that are not listed are as an untrained lane (03 R88). -/
def Lane.reset : Lane := ⟨0, 0, false, 0, false, none⟩
def Train.lane (t : Train) (l : Nat) : Lane := tgetD t.lanes l Lane.reset
def Train.modLane (t : Train) (l : Nat) (f : Lane → Lane) : Train :=
  { t with lanes := tput t.lanes l (f (t.lane l)) }

/-! ## Regions -/

def Dev.region (d : Dev) (r : Nat) : Region := tgetD d.regions r Region.reset
def Dev.setRegion (d : Dev) (r : Nat) (x : Region) : Dev := { d with regions := tput d.regions r x }
def Dev.modRegion (d : Dev) (r : Nat) (f : Region → Region) : Dev := d.setRegion r (f (d.region r))

/-- The region's HBM: a byte that nothing has written reads 0 (log entry 4). -/
def hbmDefault : Byte := 0
def Dev.hbmRead (d : Dev) (r a n : Nat) : List Byte := Memory.readN hbmDefault (d.region r).hbm a n
def Dev.hbmWrite (d : Dev) (r a : Nat) (bs : List Byte) : Dev :=
  d.modRegion r (fun x => { x with hbm := Memory.writeN hbmDefault x.hbm a bs })

/-! ## Gates and endpoints -/

def Dev.gate (d : Dev) (g : Nat) : Gate := tgetD d.gates g Gate.reset
def Dev.modGate (d : Dev) (g : Nat) (f : Gate → Gate) : Dev :=
  { d with gates := tput d.gates g (f (d.gate g)) }

def Dev.ep (d : Dev) (e : Nat) : Endpoint := tgetD d.eps e Endpoint.reset
def Dev.setEp (d : Dev) (e : Nat) (x : Endpoint) : Dev := { d with eps := tput d.eps e x }
def Dev.modEp (d : Dev) (e : Nat) (f : Endpoint → Endpoint) : Dev := d.setEp e (f (d.ep e))

/-- A gate is bifurcated (07 R196, 17 R522). -/
def Dev.bifurcated (d : Dev) (g : Nat) : Bool := bit d.boot.gateMode g

/-- An endpoint exists: sub 0, or sub 1 of a bifurcated gate (07 R196). -/
def Dev.epExists (d : Dev) (e : Nat) : Bool := decide (e < 16) && (e % 2 == 0 || d.bifurcated (e / 2))

/-- A counter as commands and hosts read it: those of sub 1 of a gate that is not bifurcated read 0 (18 R541). -/
def Dev.counterValue (d : Dev) (n : Nat) : Nat :=
  if 0x30000 ≤ n ∧ n < 0x32000 ∧ !d.epExists ((n - 0x30000) / 0x200) then 0 else d.counter n

/-- PRIV of an endpoint (07 R204). -/
def Dev.priv (d : Dev) (e : Nat) : Bool := bit d.boot.priv e

/-- The region of an endpoint (01 R31). -/
def regionOf (e : Nat) : Nat := e / 4

def Endpoint.sq (x : Endpoint) (q : Nat) : Sq := tgetD x.sqs q Sq.reset
def Endpoint.modSq (x : Endpoint) (q : Nat) (f : Sq → Sq) : Endpoint :=
  { x with sqs := tput x.sqs q (f (x.sq q)) }
def Endpoint.cq (x : Endpoint) (q : Nat) : Cq := tgetD x.cqs q Cq.reset
def Endpoint.modCq (x : Endpoint) (q : Nat) (f : Cq → Cq) : Endpoint :=
  { x with cqs := tput x.cqs q (f (x.cq q)) }
def Endpoint.eq (x : Endpoint) (q : Nat) : Cq := tgetD x.eqs q Cq.reset
def Endpoint.modEq (x : Endpoint) (q : Nat) (f : Cq → Cq) : Endpoint :=
  { x with eqs := tput x.eqs q (f (x.eq q)) }
def Endpoint.key (x : Endpoint) (k : Nat) : Key := tgetD x.keys k Key.reset
def Endpoint.modKey (x : Endpoint) (k : Nat) (f : Key → Key) : Endpoint :=
  { x with keys := tput x.keys k (f (x.key k)) }

def Dev.sq (d : Dev) (e q : Nat) : Sq := (d.ep e).sq q
def Dev.modSq (d : Dev) (e q : Nat) (f : Sq → Sq) : Dev := d.modEp e (fun x => x.modSq q f)
def Dev.modCq (d : Dev) (e q : Nat) (f : Cq → Cq) : Dev := d.modEp e (fun x => x.modCq q f)
def Dev.modEq (d : Dev) (e q : Nat) (f : Cq → Cq) : Dev := d.modEp e (fun x => x.modEq q f)
def Dev.modKey (d : Dev) (e k : Nat) (f : Key → Key) : Dev := d.modEp e (fun x => x.modKey k f)

/-! ## Blocks, cages, locks -/

def Dev.block (d : Dev) (b : Nat) : Block := tgetD d.blocks b Block.reset
def Dev.modBlock (d : Dev) (b : Nat) (f : Block → Block) : Dev :=
  { d with blocks := tput d.blocks b (f (d.block b)) }
def Dev.cage (d : Dev) (c : Nat) : Cage := tgetD d.cages c Cage.reset
def Dev.modCage (d : Dev) (c : Nat) (f : Cage → Cage) : Dev :=
  { d with cages := tput d.cages c (f (d.cage c)) }
def Dev.modWarden (d : Dev) (f : Warden → Warden) : Dev := { d with warden := f d.warden }
def Dev.modLantern (d : Dev) (f : Lantern → Lantern) : Dev := { d with lantern := f d.lantern }
def Dev.modTwin (d : Dev) (f : Twin → Twin) : Dev := { d with twin := f d.twin }

/-- A lock cell of a slice: what it holds after the reset of its region (13 R406) until it is written. -/
def Region.lockCell (x : Region) (id : Nat) : LockCell := tgetD x.locks id LockCell.reset
def Dev.lockCell (d : Dev) (id : Nat) : LockCell := (d.region (id / 16384)).lockCell id
def Dev.modLockCell (d : Dev) (id : Nat) (f : LockCell → LockCell) : Dev :=
  d.modRegion (id / 16384) (fun x => { x with locks := tput x.locks id (f (x.lockCell id)) })

/-! ## What runs (16 R491, 17 R512, 14 R455) -/

/-- The islands of R491 are clock-gated: the device is in P2. -/
def Dev.gated (d : Dev) : Bool := d.lantern.state == 2

/-- The Warden island runs and takes events. -/
def Dev.wardenRuns (d : Dev) : Bool := d.boot.stage != .off && !d.gated

/-- The gate islands run: from gate bring-up onward, in P2 as well (01 R32, 16 R491). -/
def Dev.gatesRun (d : Dev) : Bool := d.boot.stage == .running

/-- The Belfry island of a region runs (14 R457, 16 R491). -/
def Dev.belfryRuns (d : Dev) (r : Nat) : Bool := bit d.warden.belfry r && !d.gated

/-- The chip-level registers as the units of a region see them: its Belfry's copies, and before these exist what is written
(01 R34, 14 R433). -/
def Dev.chipSeen (d : Dev) (r : Nat) : ChipRegs := if d.belfryRuns r then (d.region r).chip else d.chip

/-- The HBM island of a region runs. -/
def Dev.hbmRuns (d : Dev) (r : Nat) : Bool := bit d.warden.hbm r && !d.gated

/-- The island of an engine block runs. -/
def Dev.blockRuns (d : Dev) (b : Nat) : Bool := bit d.warden.engines b && !d.gated

/-- The regions, and the ports, gates' endpoints and engine blocks of one. -/
def allRegions : List Nat := [0, 1, 2, 3]
def portsOf (r : Nat) : List Nat := (List.range 32).map (32 * r + ·)
def epsOf (r : Nat) : List Nat := [4 * r, 4 * r + 1, 4 * r + 2, 4 * r + 3]
def blocksOf (r : Nat) : List Nat := (List.range 16).map (16 * r + ·)

/-! ## What a chip reset leaves (17 R532) -/

/-- The gate contacts after a chip reset: PERST# is a level of the board, WAKE# is Lantern's (16 R499). -/
def Gate.afterReset (g : Gate) : Gate := ⟨g.perst, g.perstAt, g.wakeLow, 0⟩

/-- NEXT_MSG_SEQ of connections that a reset frees (07 R224). -/
def addPrior (conns : Tbl Conn) (old : List (Nat × Nat × Nat)) : List (Nat × Nat × Nat) :=
  conns.foldl (fun t c =>
    let mine (m : Nat × Nat × Nat) : Bool := m.1 == c.2.localFen && m.2.1 == c.2.peerFen
    let n := ((t.find? mine).map (fun m => m.2.2)).getD 0
    t.filter (fun m => !mine m) ++ [(c.2.localFen, c.2.peerFen, max n c.2.nextSeq)]) old

/-- The ended PENDING entries after a reset of the endpoints whose FENs a test holds. -/
def Region.resetPends (x : Region) (p : Nat → Bool) : List PastPend :=
  x.lastPends.map (fun l => if p l.fen then { l with how := 2 } else l)

/-- A region after a chip reset: what tells the responses to earlier operations apart stays (07 R224, 08 R268). -/
def Region.afterChip (x : Region) : Region :=
  let ended := x.pends.foldl (fun t p => notePast (p.2.past p.1 2) t) x.lastPends
  { Region.reset with prior := addPrior x.conns x.prior, lastPends := { x with lastPends := ended }.resetPends (fun _ => true) }

/-- The device after RESET_N, CHIP_RESET, or the power loss of P3: everything but the Lantern domain, the
time base, the Lamplighter counters, the gate contacts, what Lantern has raised and the Warden has not registered (18 R546, log
entry 54), and the model's own counters and list of outputs (17 R532). -/
def Dev.chipReset (d : Dev) : Dev :=
  { Dev.reset with
    now := d.now, skews := d.skews, free := d.free, nextId := d.nextId, out := d.out,
    counters := d.counters.filter (fun c => Ctr.isLamplighter c.1), raises := d.raises.filter (fun x => x.island == Isl.lantern),
    lantern := d.lantern,
    gates := d.gates.map (fun g => (g.1, g.2.afterReset)), regions := d.regions.map (fun x => (x.1, x.2.afterChip)), errStart := d.now }

/-! ## Meanings as functions of the device -/

/-- A command that acts on the device alone: flash, fuses and the queue stay. -/
def act (f : Dev → Dev) (s : State) : Host.Outcome State Fault Refusal := .next { s with dev := f s.dev }

/-- A command that acts when a condition on the device holds, and otherwise leaves it (the unit is not
running, or the time has not come). -/
def actIf (c : Dev → Bool) (f : Dev → Dev) (s : State) : Host.Outcome State Fault Refusal :=
  act (fun d => if c d then f d else d) s

end Sys2Proof.Machine
end

