-- ==== Sys2Proof/Machine/Operands.lean ====
section
/-! DEFINITION. The operand forms: packet headers as bits (05 R134, R138, R139), packet images and their ECRC
(R132, R140), FENs (R143), candidate sets (R145), and Ocmiset packets (14 R425, R426). -/

namespace Sys2Proof
open Machine

/-! ## Packet headers -/

/-- The 512-bit header (05 R134, R138). -/
def Hdr.toNat (h : Hdr) : Nat :=
  pack [(h.dstFen, 18), (h.srcFen, 18), (h.srcEpoch, 8), (h.cls, 3), (b2n h.fence, 1), (h.mode, 2), (h.plen, 13),
    (0, 1), (h.rung, 2), (b2n h.cmark, 1), (b2n h.nonmin, 1), (b2n h.nonminDone, 1), (h.interGroup, 10),
    (h.hops, 6), (b2n h.laValid, 1), (0, 42), (h.laSet, 56), (0, 8), (h.unit, 4), (h.opcode, 8), (h.dstEpi, 12),
    (h.srcEpi, 12), (0, 4), (h.msgSeq, 24), (h.msgLen, 32), (h.msgOff, 32), (h.ext, 192)] ||| h.reserved

/-- The reserved bits of the header's common part (05 R134, R138). -/
def hdrReserved : Nat :=
  2 ^ 63 + (2 ^ 128 - 2 ^ 86) + (2 ^ 192 - 2 ^ 184) + (2 ^ 232 - 2 ^ 228)

/-- The header that 512 bits spell. -/
def Hdr.ofNat (x : Nat) : Hdr :=
  { dstFen := bits x 17 0, srcFen := bits x 35 18, srcEpoch := bits x 43 36, cls := bits x 46 44,
    fence := bit x 47, mode := bits x 49 48, plen := bits x 62 50, rung := bits x 65 64, cmark := bit x 66,
    nonmin := bit x 67, nonminDone := bit x 68, interGroup := bits x 78 69, hops := bits x 84 79,
    laValid := bit x 85, laSet := bits x 183 128, unit := bits x 195 192, opcode := bits x 203 196,
    dstEpi := bits x 215 204, srcEpi := bits x 227 216, msgSeq := bits x 255 232, msgLen := bits x 287 256,
    msgOff := bits x 319 288, ext := bits x 511 320, reserved := x &&& hdrReserved }

/-- Fields of bits [511:320] for UNIT ENDPOINT (05 R139). -/
def Hdr.remoteAddr (h : Hdr) : Nat := bits h.ext 63 0
def Hdr.reachKey (h : Hdr) : Nat := bits h.ext 127 64
def Hdr.operand (h : Hdr) : Nat := bits h.ext 191 128
def endpointExt (addr key operand : Nat) : Nat := pack [(addr, 64), (key, 64), (operand, 64)]

/-- Fields for UNIT COOPER. -/
def Hdr.treeId (h : Hdr) : Nat := bits h.ext 11 0
def Hdr.inst (h : Hdr) : Nat := bits h.ext 31 16
def Hdr.dtype (h : Hdr) : Nat := bits h.ext 35 32
def Hdr.redop (h : Hdr) : Nat := bits h.ext 39 36
def Hdr.exact_ (h : Hdr) : Bool := bit h.ext 40
def Hdr.fullForm (h : Hdr) : Bool := bit h.ext 41
def Hdr.elemCount (h : Hdr) : Nat := bits h.ext 63 48
def Hdr.elemOffset (h : Hdr) : Nat := bits h.ext 95 64
def Hdr.collArg (h : Hdr) : Nat := bits h.ext 191 96
def cooperExt (tree inst dtype redop : Nat) (exact full : Bool) (count off arg : Nat) : Nat :=
  pack [(tree, 12), (0, 4), (inst, 16), (dtype, 4), (redop, 4), (b2n exact, 1), (b2n full, 1), (0, 6),
    (count, 16), (off, 32), (arg, 96)]

/-- Fields for UNIT LOCKSMITH. -/
def Hdr.lockId (h : Hdr) : Nat := bits h.ext 15 0
def Hdr.lockPrio (h : Hdr) : Nat := bits h.ext 23 16
def Hdr.grantAddr (h : Hdr) : Nat := bits h.ext 95 32
def Hdr.lockArg (h : Hdr) : Nat := bits h.ext 191 96
def lockExt (id prio grant arg : Nat) : Nat := pack [(id, 16), (prio, 8), (0, 8), (grant, 64), (arg, 96)]

/-- Hop k of a DIRECTED header (05 R155), and the header with it replaced. -/
def Hdr.hop (h : Hdr) (k : Nat) : Nat := bits h.laSet (7 * k + 6) (7 * k)
def Hdr.setHop (h : Hdr) (k v : Nat) : Hdr := { h with laSet := putBits h.laSet (7 * k + 6) (7 * k) v }
def Hdr.dirLen (h : Hdr) : Nat := bits h.interGroup 3 0

/-- ROUTER, GATE and SUB of a FEN (05 R143). -/
def fenRouter (f : Nat) : Nat := bits f 17 4
def fenGate (f : Nat) : Nat := bits f 3 1
def fenSub (f : Nat) : Nat := bits f 0 0
/-- The endpoint 2 × gate + sub that a FEN names, and the FEN of an endpoint of a router. -/
def fenEp (f : Nat) : Nat := bits f 3 0
def fenOf (router e : Nat) : Nat := (router % 2 ^ 14) * 16 + e % 16

/-! ## Packet images -/

/-- N of R132: the flits of a packet by its PAYLOAD_LEN; above 4,096 it is 33 (05 R137). -/
def flitsOf (plen : Nat) : Nat := if plen > 4096 then 33 else (68 + roundUp 4 plen + 127) / 128

/-- Payload with its zero padding to a multiple of 4. -/
def padded (payload : List Byte) : List Byte := payload ++ zeros (roundUp 4 payload.length - payload.length)

/-- The ECRC of a packet (05 R140): header bytes 8–23 count as zero. -/
def ecrcOf (h : Hdr) (payload : List Byte) : Nat :=
  crc32c (putBytes (leBytes 64 h.toNat) 8 (zeros 16) ++ padded payload)

/-- A packet as its source builds it (05 R132, R135, R141). -/
def mkPacket (h : Hdr) (payload : List Byte) : Packet :=
  let h' := { h with plen := payload.length }
  { hdr := h', payload := payload, ecrc := ecrcOf h' payload }

/-- The packet image in flits (05 R132). -/
def Packet.image (p : Packet) : List Byte :=
  let img := leBytes 64 p.hdr.toNat ++ padded p.payload ++ leBytes 4 p.ecrc
  img ++ zeros (128 * flitsOf p.hdr.plen - img.length)

/-- Flit k of a packet. -/
def Packet.flit (p : Packet) (k : Nat) : Flit := sliceBytes p.image (128 * k) 128

/-- The value that replaces the ECRC of a stomped packet (05 R142). -/
def stompEcrc : Nat := 0xC3D2E1F0

/-- The VC of a packet on a link (06 R171). -/
def Hdr.vc (h : Hdr) : Nat := 4 * h.cls + h.rung

end Sys2Proof

namespace Sys2Proof.Machine

/-! ## Candidate sets and route entries -/

/-- Whether a port lies in a candidate set (05 R145). -/
def inSet (set p : Nat) : Bool :=
  (List.range 4).any (fun k =>
    let base := bits set (14 * k + 6) (14 * k)
    let len := bits set (14 * k + 13) (14 * k + 7)
    decide (base ≤ p ∧ p < base + len ∧ p < 128))

/-- The ports of a set, ascending. -/
def setPorts (set : Nat) : List Nat := (List.range 128).filter (inSet set)

/-- A set whose four ranges are all empty (05 R145). -/
def emptySet (set : Nat) : Bool := (List.range 4).all (fun k => bits set (14 * k + 13) (14 * k + 7) == 0)

/-- Fields of a route-table entry (05 R146). -/
def entryValid (e : Nat) : Bool := bit e 0
def entryDefer (e : Nat) : Bool := bit e 1
def entryNonminOk (e : Nat) : Bool := bit e 2
def entryNextValid (e : Nat) (kind : Bool) : Bool := bit e (if kind then 4 else 3)
def entryOwn (e : Nat) : Nat := bits e 63 8
def entryNext (e : Nat) (kind : Bool) : Nat := if kind then bits e 175 120 else bits e 119 64

/-! ## Ocmiset packets -/

namespace Ocm

/-- Fields of the 16-byte header (14 R426). -/
def type (b : List Byte) : Nat := bits (byteAt b 0) 3 0
def signed (b : List Byte) : Bool := bit (byteAt b 0) 4
def status (b : List Byte) : Nat := byteAt b 1
def opcode (b : List Byte) : Nat := field b 2 2
def tag (b : List Byte) : Nat := field b 4 2
def target (b : List Byte) : Nat := field b 6 2
def index (b : List Byte) : Nat := bits (target b) 13 0
def level (b : List Byte) : Nat := bits (target b) 15 14
def paramLen (b : List Byte) : Nat := bits (field b 8 2) 12 0
def replyMax (b : List Byte) : Nat := bits (field b 10 2) 12 0
def params (b : List Byte) : List Byte := sliceBytes b 16 (paramLen b)

/-- CHK: CRC-32C over the packet with bytes 12–15 taken as 0. -/
def chk (b : List Byte) : Nat := crc32c (putBytes b 12 (zeros 4))

/-- Check 1 of R427. -/
def goodFrame (b : List Byte) : Bool :=
  decide (16 ≤ b.length ∧ b.length ≤ 4096) && field b 12 4 == chk b && type b == 1 &&
    bits (byteAt b 0) 7 5 == 0 && bits (field b 8 2) 15 13 == 0 && bits (field b 10 2) 15 13 == 0 &&
    paramLen b % 4 == 0 && b.length == 16 + paramLen b + (if signed b then 128 else 0)

/-- A whole packet from its header fields, with CHK. -/
def build (type status opcode tag target replyMax : Nat) (params : List Byte) : List Byte :=
  let h := leBytes 12 (pack [(type, 4), (0, 4), (status, 8), (opcode, 16), (tag, 16), (target, 16),
    (params.length, 16), (replyMax, 16)])
  h ++ leBytes 4 (chk (h ++ zeros 4 ++ params)) ++ params

/-- The status codes of R430. -/
def ok : Nat := 0x00
def running : Nat := 0x01
def badFrame : Nat := 0x02
def unknownOpcode : Nat := 0x03
def wrongTarget : Nat := 0x04
def notAuthorised : Nat := 0x05
def badSignature : Nat := 0x06
def targetDown : Nat := 0x07
def replyTooLarge : Nat := 0x08
def invalidParameter : Nat := 0x09
def wrongState : Nat := 0x0A
def noResource : Nat := 0x0B
def aborted : Nat := 0x0C
def hardwareFault : Nat := 0x0D
def noReply : Nat := 0x0E

/-- Authority: 0 READ, 1 CONTROL, 2 SIGNED (R439). A row of the master opcode index (R459): opcode,
authority, levels accepted beside or instead of the chip (bit per level), detached. -/
structure Row where
  opcode : Nat
  auth : Nat
  levels : Nat
  detached : Bool
  deriving DecidableEq, Repr

/-- The master opcode index (R459). -/
def indexLow : List Row :=
  [⟨0x0311, 1, 1, false⟩, ⟨0x0501, 1, 1, false⟩, ⟨0x0502, 1, 1, false⟩, ⟨0x0503, 1, 1, false⟩,
   ⟨0x0504, 0, 1, false⟩, ⟨0x0C01, 1, 1, false⟩, ⟨0x0C02, 1, 1, false⟩, ⟨0x0C03, 1, 1, false⟩,
   ⟨0x0C04, 0, 1, false⟩, ⟨0x0D01, 1, 1, false⟩, ⟨0x0D02, 1, 1, false⟩, ⟨0x0D03, 0, 1, false⟩,
   ⟨0x0E00, 0, 15, false⟩, ⟨0x0E01, 0, 1, false⟩, ⟨0x0E02, 1, 1, false⟩, ⟨0x0E03, 1, 1, false⟩,
   ⟨0x0E04, 0, 1, false⟩, ⟨0x0E05, 1, 1, false⟩, ⟨0x0E06, 1, 1, false⟩, ⟨0x0E08, 0, 1, false⟩,
   ⟨0x0E09, 1, 1, false⟩, ⟨0x0E10, 1, 1, false⟩, ⟨0x0E11, 0, 1, false⟩, ⟨0x0E20, 1, 1, false⟩]

def indexHigh : List Row :=
  [⟨0x0F01, 1, 1, false⟩, ⟨0x0F02, 0, 1, false⟩, ⟨0x0F03, 1, 1, false⟩, ⟨0x0F04, 1, 1, false⟩,
   ⟨0x0F10, 1, 4, true⟩, ⟨0x0F11, 1, 4, true⟩, ⟨0x0F20, 1, 2, true⟩, ⟨0x0F21, 1, 2, true⟩,
   ⟨0x0F22, 1, 2, false⟩, ⟨0x1001, 1, 1, false⟩, ⟨0x1002, 0, 1, false⟩, ⟨0x1003, 1, 1, false⟩,
   ⟨0x1101, 0, 1, false⟩, ⟨0x1102, 2, 1, true⟩, ⟨0x1103, 2, 1, true⟩, ⟨0x1104, 2, 1, false⟩,
   ⟨0x1110, 0, 1, true⟩, ⟨0x1111, 0, 1, false⟩, ⟨0x1120, 2, 1, false⟩, ⟨0x1201, 1, 1, false⟩,
   ⟨0x1202, 0, 1, false⟩, ⟨0x1203, 0, 15, false⟩, ⟨0x1204, 2, 1, false⟩]

/-- The row of an opcode. -/
def row (op : Nat) : Option Row := (indexLow ++ indexHigh).find? (fun r => r.opcode == op)

/-- Whether a target lies in the ranges of R428 and among the levels a row accepts; BLOCK_RESET and BLOCK_LOAD target an
engine block (15 R482), not a port block. -/
def targetOk (r : Row) (level index : Nat) : Bool :=
  bit r.levels level &&
    decide (index < if level = 0 then 1 else if level = 1 then 4 else if level = 2 then (if r.levels = 4 then 64 else 96) else 2176)

end Ocm

/-- The error was found in a cell, so that 18 R535 raises its own event. -/
def cellError : ErrData → Bool
  | .engine _ | .lane _ _ | .inputCell _ _ | .bank _ _ _ => true
  | _ => false

end Sys2Proof.Machine
end

