-- ==== Sys2Proof/Machine/Rails.lean ====
section
/-! DEFINITION. The Lantern domain's rails, resets, faults, temperature and wakes (02 R54 to R73, 16 R495 to R504,
17 R532, 18 R543). Power states' commands stand in Machine/Lamp.lean. -/

namespace Sys2Proof.Machine

/-! ## Isolation (16 R499) -/

/-- The signals that leave a domain, in the order of R499's table. -/
inductive ClampSignal where
  | crossingWires | crossingData | farSideAlive | transmitters | sramControl | hbmControl | spiSelect | spiClock | spiData
  | cageScan | lanternLines
  deriving DecidableEq, Repr

/-- What a clamp holds a signal at: its last value, low, high, high impedance, or the electrical idle of a transmitter. -/
inductive ClampLevel where
  | held | low | high | highImpedance | electricalIdle
  deriving DecidableEq, Repr

/-- The clamp values of R499; an SRAM macro whose select and write enable are 0 is in retention mode. -/
def ClampSignal.level : ClampSignal → ClampLevel
  | .crossingWires => .held
  | .transmitters => .electricalIdle
  | .spiSelect => .high
  | .spiData => .highImpedance
  | .crossingData | .farSideAlive | .sramControl | .hbmControl | .spiClock | .cageScan | .lanternLines => .low

/-- An island has come out of its reset: the Warden's at R54 step 7, the gates' at gate bring-up (17 R512), the others by
CLOCK_SWITCH (14 R455); a Buttress direction with its pair of regions. -/
def Dev.outOfReset (d : Dev) (i : Nat) : Bool :=
  let w := d.warden
  if i < 128 then bit w.belfry (i / 32)
  else if i < 132 then bit w.belfry (i - 128)
  else if i < 196 then bit w.engines (i - 132)
  else if i < 204 then d.gatesRun
  else if i < 208 then bit w.hbm (i - 204)
  else if i < 220 then bit w.belfry ((i - 208) / 3) && (List.range 4).any (fun q =>
    q != (i - 208) / 3 && Isl.buttress ((i - 208) / 3) q == i && bit w.belfry q)
  else if i = Isl.warden then d.boot.stage != .off
  else true

/-- The level at which a signal that leaves an island stands while a clamp holds it. -/
def Dev.clampedAt (d : Dev) (i : Nat) (x : ClampSignal) : Option ClampLevel :=
  if i ≠ Isl.lantern ∧ (d.lantern.clamped ∨ !d.outOfReset i) then some x.level else none

/-! ## Rail groups -/

/-- The bit of a group in the enables, power-goods and FAULT_GROUP (16 R510). -/
def railBit : Rail → Nat
  | .sram => 0
  | .core => 1
  | .loom => 2
  | .hbm => 3

/-- The group that comes up after one (02 R54). -/
def railNext : Rail → Option Rail
  | .sram => some .core
  | .core => some .loom
  | .loom => some .hbm
  | .hbm => none

/-- The highest group whose enable is asserted: the next to be removed (02 R56). -/
def topRail (enables : Nat) : Option Rail :=
  if bit enables 3 then some .hbm else if bit enables 2 then some .loom else if bit enables 1 then some .core
  else if bit enables 0 then some .sram else none

/-- The Lantern domain is powered and out of reset (02 R54 step 2). -/
def Dev.lanternRuns (d : Dev) : Bool := d.lantern.powered && d.lantern.resetN

/-- An enable asserted at the current time (02 R54 steps 3 to 6). A power-good that stands high is registered high at
the window's start (R55). -/
def Dev.enableRail (d : Dev) (g : Rail) : Dev :=
  d.modLantern (fun l =>
    { l with enables := putBit l.enables (railBit g) true, cameUp := putBit l.cameUp (railBit g) (bit l.pg (railBit g)),
             phase := if bit l.pg (railBit g) then .settling g d.lanternNow else .waiting g d.lanternNow })

/-- The counters but the Lamplighter's take their reset value (18 R540). -/
def Dev.dropCounters (d : Dev) : Dev := { d with counters := d.counters.filter (fun c => Ctr.isLamplighter c.1) }

/-- R54 from step 3. An exit from P3 sets RESET_INFO.CAUSE 3 (17 R531) and clears the counters (18 R540); a Bellrope wake
after a fault has LAST_FAULT cleared here (16 R504), FAULT_GROUP stays (R510). -/
def Dev.startRails (d : Dev) : Dev :=
  let d := if d.lantern.exiting.isSome then
      d.dropCounters.modLantern (fun l => { l with resetCause := 3, cellsHeld := 0, lastFault := 0 }) else d
  d.enableRail .sram

/-- The rails are off: R54 restarts when RESET_N is high and the device is not dormant (02 R58, 17 R530), or
when a wake has registered (16 R503). -/
def Dev.railsOff (d : Dev) : Dev :=
  let d := d.modLantern (fun l => { l with phase := .off })
  if d.lantern.resetN && (d.lantern.state == 0 || d.lantern.exiting.isSome) then d.startRails else d

/-- The highest asserted enable is deasserted (02 R56). With none asserted the removal has ended: the model's choice is
that it ends once the last group's power-good is registered low or 10 ms have passed, and not at the deassertion (DESIGN
CHOICE, log entry 16). -/
def Dev.dropEnable (d : Dev) : Dev :=
  match topRail d.lantern.enables with
  | none => d.railsOff
  | some g => d.modLantern (fun l => { l with enables := putBit l.enables (railBit g) false,
                                              phase := .removing g d.lanternNow })

/-- Removal begins, unless it is running already (02 R56). -/
def Dev.removeRails (d : Dev) : Dev :=
  match d.lantern.phase with
  | .removing _ _ => d
  | _ => d.dropEnable

/-- Power goes: the clamps close, every domain but Lantern loses its state (16 R499, 17 R532), and the rails
come off. The counters stand until the exit from P3, or the chip reset, that clears them (18 R540). -/
def Dev.powerOff (d : Dev) : Dev :=
  ({ d.chipReset with counters := d.counters }.modLantern (fun l => { l with clamped := true, entering := none })).removeRails

/-- A fault entry to P3: the record, RETAIN_VALID cleared, rails removed (02 R55, R57, R66, R71, 16 R502). -/
def Dev.faultEntry (d : Dev) (kind group : Nat) : Dev :=
  let d := d.modLantern (fun l => { l with lastFault := kind, faultGroup := group, retainValid := false,
                                           state := 3, exiting := none })
  d.powerOff

/-! ## Power-up and power-down commands -/

/-- RESET_N_RELEASE (02 R54 step 2, R62): BR_ADDR is sampled, the Lantern domain leaves reset, and PWREN_SRAM
is asserted once no rail is being removed. -/
def Dev.resetNRelease (d : Dev) (straps : BitVec 7) : Dev :=
  if !d.lantern.powered || d.lantern.resetN then d else
  let d := d.modLantern (fun l => { l with resetN := true, brAddr := straps.toNat, rope := .idle, brAck := none })
  match d.lantern.phase with
  | .removing _ _ => d
  | _ => d.startRails

def execResetNRelease (straps : BitVec 7) (s : State) : Host.Outcome State Fault Refusal :=
  act (fun d => d.resetNRelease straps) s

/-- POWER_GOOD_HIGH (02 R54, R55): a power-good within 20 ms of the enable starts the settling wait; one
registered at the window's end tick is too late. From the tick at which it is registered the group has come up (DESIGN
CHOICE, log entry 16). -/
def Dev.powerGoodHigh (d : Dev) (g : Rail) : Dev :=
  let now := d.lanternNow
  let d := d.modLantern (fun l => { l with pg := putBit l.pg (railBit g) true })
  match d.lantern.phase with
  | .waiting h since =>
    if h = g ∧ now < since + 20000000 then
      d.modLantern (fun l => { l with cameUp := putBit l.cameUp (railBit g) true, phase := .settling g now })
    else d
  | _ => d

/-- The power-goods are registered while RESET_N is low as well (R56, R58). -/
def execPowerGoodHigh (g : Rail) (s : State) : Host.Outcome State Fault Refusal :=
  actIf (fun d => d.lantern.powered) (fun d => d.powerGoodHigh g) s

/-- The Warden is released (02 R54 step 7): the clamps open, and every domain stands as a reset leaves it. -/
def Dev.releaseWarden (d : Dev) : Dev :=
  let d := d.modLantern (fun l => { l with phase := .up, clamped := false })
  { d with boot := { d.boot with stage := .released } }

/-- RAIL_SETTLE_END (02 R54): 100 µs after a power-good, the next enable, or after HBM the Warden. -/
def Dev.railSettleEnd (d : Dev) : Dev :=
  match d.lantern.phase with
  | .settling g since =>
    if d.lanternNow < since + 100000 then d else
    match railNext g with
    | some h => d.enableRail h
    | none => d.releaseWarden
  | _ => d

def execRailSettleEnd (s : State) : Host.Outcome State Fault Refusal := actIf Dev.lanternRuns Dev.railSettleEnd s

/-- RAIL_START_FAULT (02 R55): 20 ms after an enable without its power-good. -/
def Dev.railStartFault (d : Dev) : Dev :=
  match d.lantern.phase with
  | .waiting g since => if d.lanternNow < since + 20000000 then d else d.faultEntry 1 (2 ^ railBit g)
  | _ => d

def execRailStartFault (s : State) : Host.Outcome State Fault Refusal := actIf Dev.lanternRuns Dev.railStartFault s

/-- RAIL_REMOVE_NEXT (02 R56): the group last disabled is registered low, or 10 ms have passed. It runs while
RESET_N is low as well (R58). -/
def Dev.railRemoveNext (d : Dev) (pgLow : Bool) : Dev :=
  match d.lantern.phase with
  | .removing g since =>
    if pgLow || decide (since + 10000000 ≤ d.lanternNow) then
      let d := if pgLow then d.modLantern (fun l => { l with pg := putBit l.pg (railBit g) false }) else d
      d.dropEnable
    else d
  | _ => d

def execRailRemoveNext (pgLow : Bool) (s : State) : Host.Outcome State Fault Refusal :=
  actIf (fun d => d.lantern.powered) (fun d => d.railRemoveNext pgLow) s

/-- BROWN_OUT (02 R57): a power-good is registered low; of a group that came up, while its enable is asserted and RESET_N is
high, that is a brown-out. -/
def Dev.brownOut (d : Dev) (g : Rail) : Dev :=
  let hit := d.lantern.resetN && bit d.lantern.enables (railBit g) && bit d.lantern.cameUp (railBit g)
  let d := d.modLantern (fun l => { l with pg := putBit l.pg (railBit g) false })
  if hit then d.faultEntry 2 (2 ^ railBit g) else d

def execBrownOut (g : Rail) (s : State) : Host.Outcome State Fault Refusal :=
  actIf (fun d => d.lantern.powered) (fun d => d.brownOut g) s

/-- What RESET_N registered low does, with a cause for RESET_INFO (02 R58, 17 R530 to R532): every rail is
removed, RETAIN_VALID and a thermal trip are cleared, and the device is to restart at step 2. -/
def Dev.resetAll (d : Dev) (cause cells : Nat) : Dev :=
  let d := d.modLantern (fun l => { l with resetCause := cause, cellsHeld := cells, tripped := false,
                                           retainValid := false, state := 0, exiting := none, rope := .idle, brAck := none,
                                           wakeIn := false, wakeTicks := 0, tjStart := d.lanternNow, tjHigh := none })
  d.dropCounters.powerOff

/-- RESET_N_ASSERTED (02 R58). -/
def Dev.resetNAsserted (d : Dev) : Dev :=
  if !d.lanternRuns then d else
  (d.modLantern (fun l => { l with resetN := false })).resetAll 1 0

def execResetNAsserted (s : State) : Host.Outcome State Fault Refusal := act Dev.resetNAsserted s

/-- LANTERN_CLOCK_FAULT (02 R66): LCLK_IN stopped for 2 µs or more. -/
def execLanternClockFault (stoppedNs : Nat) (s : State) : Host.Outcome State Fault Refusal :=
  actIf (fun d => d.lanternRuns && decide (2000 ≤ stoppedNs)) (fun d => d.faultEntry 3 0) s

/-- VLANTERN_APPLIED (17 R532): everything takes its reset value and the time base starts at 0. The levels of
the gates' PERST# are the board's. -/
def Dev.vlanternApplied (d : Dev) : Dev :=
  { Dev.reset with skews := d.skews, free := d.free, nextId := d.nextId, out := d.out,
                   gates := d.gates.map (fun g => (g.1, { Gate.reset with perst := g.2.perst })) }

def execVlanternApplied (s : State) : Host.Outcome State Fault Refusal := act Dev.vlanternApplied s

/-- VLANTERN_REMOVED (16 R500, 02 R72): the Lantern domain loses its memory and the trip latch, and nothing
runs. -/
def Dev.vlanternRemoved (d : Dev) : Dev :=
  { d.chipReset with lantern := { Lantern.reset with powered := false }, counters := [] }

def execVlanternRemoved (s : State) : Host.Outcome State Fault Refusal := act Dev.vlanternRemoved s

/-! ## Temperature -/

/-- The events of one sensor of region `r` (02 R71, 18 R545): warning from 95 °C, critical from 105 °C. -/
def Dev.sensor (d : Dev) (r : Nat) (t : Int) : Dev :=
  let d := if 95 ≤ t then d.raise Isl.lantern (Src.region r 0) t.toNat 0 else d
  if 105 ≤ t then d.raise Isl.lantern (Src.region r 1) t.toNat 0 else d

/-- The highest reading so far. -/
def hotter (h : Option Int) (t : Int) : Option Int :=
  match h with
  | none => some t
  | some x => some (max x t)

/-- THERMAL_SAMPLE (02 R71): sensor i is in region i div 4. -/
def Dev.thermalSample (d : Dev) (readings : List Int) : Dev :=
  let d := forEach ((readings.take 16).zipIdx) (fun x d => d.sensor (x.2 / 4) x.1) d
  let d := d.modLantern (fun l => { l with tjHigh := (readings.take 16).foldl hotter l.tjHigh })
  if (readings.take 16).any (fun t => decide (110 ≤ t)) then
    (d.modLantern (fun l => { l with tripped := true })).faultEntry 4 0
  else d

def execThermalSample (readings : List Int) (s : State) : Host.Outcome State Fault Refusal :=
  actIf Dev.lanternRuns (fun d => d.thermalSample readings) s

/-- TJ_SECOND (18 R543, 02 R73): a second of the Lantern island has ended. -/
def Dev.tjSecond (d : Dev) : Dev :=
  if d.lanternNow < d.lantern.tjStart + 1000000000 then d else
  let h := d.lantern.tjHigh.getD 0
  let d := if 85 ≤ h ∧ h < 95 then d.count Ctr.tj85S else if 95 ≤ h ∧ h ≤ 105 then d.count Ctr.tj95S
    else if 105 < h then d.count Ctr.tj105S else d
  (d.count Ctr.powerOnS).modLantern (fun l => { l with tjStart := l.tjStart + 1000000000, tjHigh := none })

def execTjSecond (s : State) : Host.Outcome State Fault Refusal := actIf Dev.lanternRuns Dev.tjSecond s

/-! ## Wakes (16 R496, R497, R503, R504) -/

/-- A source applies while its enable is 1; the port sources need the port's LINK_EN bit as well (16 R497). -/
def Lantern.wakeEnabled (l : Lantern) (code loc : Nat) : Bool :=
  l.wakeCtrl.getLsbD (code - 1) &&
    (if code = 4 ∨ code = 5 then (if loc < 64 then l.linkEnLo.getLsbD loc else l.linkEnHi.getLsbD (loc - 64)) else true)

/-- The states a source is valid in: attention and link activity in P2 only (16 R497). -/
def wakeValidIn (code st : Nat) : Bool := if code = 3 ∨ code = 4 then st == 2 else st == 2 || st == 3

/-- Level sources: WAKE_IN, the attention button, a gate (16 R497). -/
def wakeIsLevel (code : Nat) : Bool := code == 1 || code == 3 || code == 6

/-- Whether a dormant or hushed device accepts a wake: after a fault only Bellrope, after a thermal trip none
(16 R504, 02 R72). -/
def Lantern.accepts (l : Lantern) (code loc : Nat) : Bool :=
  if l.tripped then false
  else if l.state == 3 && l.lastFault != 0 then code == 2
  else l.wakeEnabled code loc && wakeValidIn code l.state

/-- WAKESRC of sources registered in one Lantern tick, each with its place; the lowest code first (16 R510). -/
def wakeRecord (srcs : List (Nat × Nat)) (source now : Nat) (cancel : Bool) : WakeRec :=
  let first := (minBy (fun x => x.1) srcs).getD (0, 0)
  { primary := first.1, sources := srcs.foldl (fun m x => putBit m (x.1 - 1) true) 0, loc := first.2,
    source := source, cancel := cancel, time := now / 1000 % 2 ^ 32 }

/-- An exit begins by the sources given (16 R503): from P3 the rails start once they are all off. -/
def Dev.startExit (d : Dev) (srcs : List (Nat × Nat)) : Dev :=
  let now := d.lanternNow
  let d := forEach srcs (fun x d => d.count (Ctr.wakes x.1)) d
  let d := d.modLantern (fun l => { l with wakeSrc := wakeRecord srcs l.state now false, wakeAt := some now,
                                           exiting := some (l.state, now) })
  if d.lantern.state == 3 && d.lantern.phase == .off then d.startRails else d

/-- The cancel of an entry whose window has not opened (16 R496). -/
def Dev.cancelEntry (d : Dev) (code loc target : Nat) : Dev :=
  let now := d.lanternNow
  let d := (d.count Ctr.entryCancels).count (Ctr.wakes code)
  d.modLantern (fun l => { l with entering := none, retainValid := false, wakeAt := some now,
                                  wakeSrc := wakeRecord [(code, loc)] target now true })

/-- The level sources that are high (16 R497), with their places: WAKE_IN; an attention button of a seated
module; in P2 a gate whose endpoint has registered D0, in P3 one whose PERST# is high. -/
def Dev.levels (d : Dev) : List (Nat × Nat) :=
  let st := d.lantern.state
  let a := if d.lantern.wakeIn then [(1, 0)] else []
  let b := match (List.range 128).find? (fun c => (d.cage c).attn && (d.cage c).present) with
    | some c => [(3, c)]
    | none => []
  let gateHigh (g : Nat) : Bool :=
    if st = 3 then (d.gate g).perst else
      [2 * g, 2 * g + 1].any (fun e => (d.ep e).state == .link || (d.ep e).state == .run)
  let c := match (List.range 8).find? gateHigh with
    | some g => [(6, g)]
    | none => []
  (a ++ b ++ c).filter (fun x => d.lantern.accepts x.1 x.2)

/-- A further wake of the Lantern tick in which WAKESRC was recorded: it is counted, and PRIMARY and WHERE are those of the
lowest code of the tick (16 R510, R511). -/
def WakeRec.join (w : WakeRec) (code loc : Nat) : WakeRec :=
  { w with primary := min code w.primary, loc := if code < w.primary then loc else w.loc,
           sources := putBit w.sources (code - 1) true }

def Dev.joinWake (d : Dev) (code loc : Nat) : Dev :=
  if wakeIsLevel code && bit d.lantern.wakeSrc.sources (code - 1) then d else
  (d.count (Ctr.wakes code)).modLantern (fun l => { l with wakeSrc := l.wakeSrc.join code loc })

/-- A wake during an exit: one of the exit's own tick joins it, a later one is noted in SOURCES alone (16 R503). -/
def Dev.wakeInExit (d : Dev) (code loc : Nat) : Dev :=
  if !d.lantern.accepts code loc then d
  else if d.lantern.wakeAt = some d.lanternNow then d.joinWake code loc
  else d.modLantern (fun l => { l with wakeSrc := { l.wakeSrc with sources := putBit l.wakeSrc.sources (code - 1) true } })

/-- The gate links that are up go to L1 in P2 (16 R491). -/
def Dev.linksToL1 (d : Dev) : Dev :=
  forEach (List.range 16) (fun e d =>
    if (d.ep e).linkWidth = 0 ∨ (d.ep e).l1 then d else (d.modEp e (fun x => { x with l1 := true })).emit (.pcieL1 e)) d

/-- Step 5 of R495 at the window's end tick: P2 gates the islands, P3 clamps and removes the rails. A level
that is high then starts the exit (16 R497). -/
def Dev.entryEnd (d : Dev) (target : Nat) : Dev :=
  let d := if target = 2 then d.count Ctr.p2Entries else d.count Ctr.p3Entries
  let high := ({ d with lantern := { d.lantern with state := target } } : Dev).levels
  let d := d.modLantern (fun l => { l with entering := none, state := target })
  let d := if target = 3 then d.powerOff else d.linksToL1
  if high.isEmpty then d else d.startExit high

/-- A wake registers (16 R496, R497, R503): it cancels an entry, is lost in the window, waits for the window's
end when it is a level, starts an exit, or is noted during one. -/
def Dev.wake (d : Dev) (code loc : Nat) : Dev :=
  let now := d.lanternNow
  if !d.lanternRuns then d else
  match d.lantern.entering with
  | some e =>
    if !(d.lantern.wakeEnabled code loc && wakeValidIn code e.target) then d else
    match e.window with
    | none => d.cancelEntry code loc e.target
    | some w =>
      if now < w + 320 then (if wakeIsLevel code then d else d.count Ctr.wakesLost)
      else
        let d := d.entryEnd e.target
        if d.lantern.exiting.isSome then d.wakeInExit code loc else d.startExit [(code, loc)]
  | none =>
    if d.lantern.exiting.isSome then d.wakeInExit code loc
    else if d.lantern.accepts code loc then d.startExit [(code, loc)]
    else if d.lantern.wakeSrc.cancel && d.lantern.wakeAt == some now && d.lantern.wakeEnabled code loc &&
        wakeValidIn code d.lantern.wakeSrc.source then d.joinWake code loc
    else d

/-- WAKE_IN in one Lantern tick (02 R63): it registers high in the third consecutive tick in which it reads high, stays
high while it reads high, and is low when it reads low. It has no effect while RESET_N is low. -/
def Dev.wakeInTick (d : Dev) (high : Bool) : Dev :=
  if !d.lanternRuns then d else
  let n := if high then min 3 (d.lantern.wakeTicks + 1) else 0
  let d := d.modLantern (fun l => { l with wakeTicks := n, wakeIn := n == 3 })
  if n = 3 then d.wake 1 0 else d

/-- WAKE_REGISTERED (16 R497): the source as its own rule registers it. -/
def Dev.wakeRegistered (d : Dev) : WakeSource → Dev
  | .wakeIn samples => forEach samples (fun high d => d.wakeInTick high) d
  | .bellrope => d.wake 2 0
  | .attention cage => if (d.cage cage.val).attn && (d.cage cage.val).present then d.wake 3 cage.val else d
  | .linkActivity port => d.wake 4 port.val
  | .linkPattern port => d.wake 5 port.val
  | .gate gate => d.wake 6 gate.val

def execWakeRegistered (src : WakeSource) (s : State) : Host.Outcome State Fault Refusal :=
  act (fun d => d.wakeRegistered src) s

end Sys2Proof.Machine
end

