-- ==== Sys2Proof/Machine/Code8.lean ====
section
/-! DEFINITION. Line codes of the lanes (03): the 8b/10b code of T0 with its running disparity, and the Gray-coded PAM4
symbols of T2 and T3. -/

namespace Sys2Proof.Machine

/-! ## 8b/10b (03 R83: IEEE 802.3 Clause 36) -/

/-- A T0 symbol as decoded: a data code group, a K code group, or an invalid code group or disparity error. -/
inductive Sym where
  | d (b : Byte)
  | k (b : Byte)
  | bad
  deriving DecidableEq, Repr

/-- The low `n` bits of a number in reverse order. -/
def revBits : Nat → Nat → Nat
  | 0, _ => 0
  | n + 1, x => (x % 2) * 2 ^ n + revBits n (x / 2)

/-- Sub-blocks abcdei of D.0 to D.31 at running disparity -, bit a leftmost. -/
def sixTable : List Nat :=
  [0b100111, 0b011101, 0b101101, 0b110001, 0b110101, 0b101001, 0b011001, 0b111000,
   0b111001, 0b100101, 0b010101, 0b110100, 0b001101, 0b101100, 0b011100, 0b010111] ++
  [0b011011, 0b100011, 0b010011, 0b110010, 0b001011, 0b101010, 0b011010, 0b111010,
   0b110011, 0b100110, 0b010110, 0b110110, 0b001110, 0b101110, 0b011110, 0b101011]

/-- Sub-blocks fghj of D.x.0 to D.x.6 and D.x.P7, and of K.x.0 to K.x.7, at running disparity -. -/
def fourData : List Nat := [0b1011, 0b1001, 0b0101, 0b1100, 0b1101, 0b1010, 0b0110, 0b1110]
def fourCtl : List Nat := [0b1011, 0b0110, 0b1010, 0b1100, 0b1101, 0b0101, 0b1001, 0b0111]

/-- The abcdei sub-block of five bits at a running disparity (`rd`: it is +). K.28 has its own. -/
def sixOf (rd ctl28 : Bool) (x : Nat) : Nat :=
  let c := if ctl28 then 0b001111 else sixTable.getD x 0
  if rd && (popCount c 6 != 3 || c == 0b111000) then 63 - c else c

/-- The fghj sub-block of three bits: a K takes the complement at +; a data group takes it where the sub-block is unbalanced,
and D.x.A7 replaces D.x.P7 where five like bits would meet. -/
def fourOf (rd ctl : Bool) (x y : Nat) : Nat :=
  let alt := y == 7 && (if rd then x == 11 || x == 13 || x == 14 else x == 17 || x == 18 || x == 20)
  let c := if ctl then fourCtl.getD y 0 else if alt then 0b0111 else fourData.getD y 0
  if rd && (ctl || popCount c 4 != 2 || c == 0b1100) then 15 - c else c

/-- Running disparity after a sub-block of `n` bits. -/
def rdAfter (n : Nat) (rd : Bool) (c : Nat) : Bool :=
  let ones := popCount c n
  if n / 2 < ones ∨ c = 2 ^ (n / 2) - 1 then true
  else if ones < n / 2 ∨ c = 2 ^ n - 2 ^ (n / 2) then false
  else rd

/-- A code group as ten bits, the first sent at bit 0, from its two sub-blocks. -/
def groupOf (six four : Nat) : Nat := revBits 6 six + 64 * revBits 4 four

/-- The code group of a symbol at a running disparity, and the disparity after it. -/
def encodeSym (rd : Bool) (s : Sym) : Nat × Bool :=
  let (ctl, b) := match s with
    | .d b => (false, b.toNat)
    | .k b => (true, b.toNat)
    | .bad => (false, 0)
  let x := b % 32
  let six := sixOf rd (ctl && x == 28) x
  let rd1 := rdAfter 6 rd six
  let four := fourOf rd1 ctl x (b / 32)
  (groupOf six four, rdAfter 4 rd1 four)

/-- Consecutive symbols on one lane. -/
def encodeSyms (rd : Bool) : List Sym → List Nat × Bool
  | [] => ([], rd)
  | s :: ss =>
    let r := encodeSym rd s
    let t := encodeSyms r.2 ss
    (r.1 :: t.1, t.2)

/-- The symbol a code group stands for at a running disparity; a group that has no meaning there is an invalid code group or
a disparity error. -/
def decodeGroup (rd : Bool) (g : Nat) : Sym :=
  let six := revBits 6 (g % 64)
  let four := revBits 4 (g / 64)
  let rd1 := rdAfter 6 rd six
  let sym (ctl : Bool) (x y : Nat) : Sym := if ctl then .k (BitVec.ofNat 8 (32 * y + x)) else .d (BitVec.ofNat 8 (32 * y + x))
  if six = sixOf rd true 28 then
    match (List.range 8).find? (fun y => fourOf rd1 true 28 y == four) with
    | some y => sym true 28 y
    | none => .bad
  else
    match (List.range 32).find? (fun x => sixOf rd false x == six) with
    | none => .bad
    | some x =>
      match (List.range 8).find? (fun y => fourOf rd1 false x y == four) with
      | some y => sym false x y
      | none => if (x == 23 || x == 27 || x == 29 || x == 30) && fourOf rd1 true x 7 == four then sym true x 7 else .bad

/-- Running disparity after a received code group, whatever it stands for. -/
def rdAfterGroup (rd : Bool) (g : Nat) : Bool := rdAfter 4 (rdAfter 6 rd (revBits 6 (g % 64))) (revBits 4 (g / 64))

/-- Consecutive code groups received on one lane. -/
def decodeGroups (rd : Bool) : List (BitVec 10) → List Sym × Bool
  | [] => ([], rd)
  | g :: gs =>
    let t := decodeGroups (rdAfterGroup rd g.toNat) gs
    (decodeGroup rd g.toNat :: t.1, t.2)

/-! ## PAM4 (03 R76) -/

/-- Gray coding: the level of a PAM4 symbol whose more significant bit is `hi`. -/
def grayLevel (hi lo : Bool) : Nat :=
  match hi, lo with
  | false, false => 0
  | false, true => 1
  | true, true => 2
  | true, false => 3

/-- The symbols of a word of `n` bits on a lane, in the order sent, bit 0 first: levels 0 and 1 at T1 (NRZ); at T2 and T3
bits 2i and 2i + 1 form symbol i. -/
def lineSymbols (tier n word : Nat) : List Nat :=
  if tier ≤ 1 then (List.range n).map (fun i => bits word i i)
  else (List.range (n / 2)).map (fun i => grayLevel (bit word (2 * i + 1)) (bit word (2 * i)))

/-- The bytes a lane carries in one word or part of a link unit, as line symbols. -/
def lineBytes (tier : Nat) (bs : List Byte) : List Nat := lineSymbols tier (8 * bs.length) (leNat bs)

end Sys2Proof.Machine
end

