-- ==== Sys2Proof/Machine/Pilot.lean ====
section
/-! DEFINITION. Pilot's choice of a hop (05 R137, R144 to R158), the live masks, the cells of the Belfry buffer
(06 R173 to R176), and what pruning a port does. The commands stand in Machine/Routes.lean and
Machine/Belfry.lean. -/

namespace Sys2Proof

/-- The header checks of R137; `net` when the header came from a network port. -/
def Hdr.bad (h : Hdr) (net : Bool) : Bool :=
  decide (5 ≤ h.cls) || h.mode == 3 || (h.mode == 2 && h.cls != 4) || (h.mode == 2 && decide (8 < h.dirLen)) ||
    decide (4096 < h.plen) || (h.mode == 2 && net && (h.hops == 0 || decide (h.dirLen < h.hops)))

end Sys2Proof

namespace Sys2Proof.Machine

/-! ## Register fields, as the device treats them -/

/-- A field of a register. -/
def rbits (x : Reg) (h l : Nat) : Nat := bits x.toNat h l
def rbit (x : Reg) (i : Nat) : Bool := x.getLsbD i

/-- PILOT_CTRL and PILOT_TUNE (05 R168). -/
def ChipRegs.routerId (c : ChipRegs) : Nat := rbits c.pilotCtrl 13 0
def ChipRegs.altRouterId (c : ChipRegs) : Nat := rbits c.pilotCtrl 27 14
def ChipRegs.altValid (c : ChipRegs) : Bool := rbit c.pilotCtrl 28
def ChipRegs.groupShift (c : ChipRegs) : Nat := clamp 4 14 (rbits c.pilotCtrl 32 29)
def ChipRegs.numGroups (c : ChipRegs) : Nat := clamp 1 1024 (rbits c.pilotCtrl 43 33)
def ChipRegs.liveWrite (c : ChipRegs) : Bool := rbit c.pilotCtrl 44
def ChipRegs.hopLimit (c : ChipRegs) : Nat := max 1 (rbits c.pilotCtrl 50 45)
def ChipRegs.hintWeight (c : ChipRegs) : Nat := rbits c.pilotCtrl 54 51
def ChipRegs.nonminBias (c : ChipRegs) : Nat := rbits c.pilotCtrl 62 55
def ChipRegs.nonminEn (c : ChipRegs) : Bool := rbit c.pilotCtrl 63
def ChipRegs.wakeCost (c : ChipRegs) : Nat := rbits c.pilotTune 7 0
def ChipRegs.idValid (c : ChipRegs) : Bool := rbit c.pilotTune 8

/-- FC_CTRL and FC_MARK (06 R193). -/
def ChipRegs.poolStop (c : ChipRegs) : Nat := min 65536 (rbits c.fcCtrl 17 0)
def ChipRegs.poolGo (c : ChipRegs) : Nat := max (c.poolStop + 1) (rbits c.fcCtrl 35 18)
def ChipRegs.vcPoolCap (c : ChipRegs) : Nat := clamp 33 154368 (rbits c.fcCtrl 53 36)
def ChipRegs.cmarkLine (c : ChipRegs) : Nat := max 1 (rbits c.fcMark 15 0)
def ChipRegs.cmarkEn (c : ChipRegs) : Bool := rbit c.fcMark 16
/-- MGMT_HOLD in ns. -/
def ChipRegs.mgmtHold (c : ChipRegs) : Nat := 1000 * max 10 (rbits c.fcMark 47 32)

/-- PORT_ROUTE (05 R169). -/
def Port.kind (x : Port) : Bool := rbit x.route 0
def Port.rungStep (x : Port) : Bool := rbit x.route 1
def Port.routeEn (x : Port) : Bool := rbit x.route 2

/-- A router ID names this device: ROUTER_ID, or ALT_ROUTER_ID while ALT_VALID is 1, with ID_VALID 1
(05 R144). -/
def ChipRegs.isLocal (c : ChipRegs) (router : Nat) : Bool :=
  c.idValid && (router == c.routerId || (c.altValid && router == c.altRouterId))

/-- A region's Belfry runs and is not in reset (14 R457, 15 R484). -/
def Dev.regionRuns (d : Dev) (r : Nat) : Bool := d.belfryRuns r && (d.region r).state != .resetting

/-! ## Live masks (05 R157, 15 R484) -/

/-- A port is live: its Tollkeeper is OPEN, ROUTE_EN is 1 and its region is in RUN. -/
def Dev.portLive (d : Dev) (p : Nat) : Bool :=
  (d.port p).toll.state == .opened && (d.port p).routeEn && (d.region (p / 32)).state == .run

/-- A port in LIMP that is live for the management class. -/
def Dev.portLimp (d : Dev) (p : Nat) : Bool :=
  (d.port p).train.state == .limp && (d.port p).routeEn && (d.region (p / 32)).state == .run

/-- The masks of a region brought up to date for one port. -/
def Dev.setLive (d : Dev) (r p : Nat) : Dev :=
  let a := d.portLive p
  let b := d.portLimp p
  d.modRegion r (fun x => { x with live := putBit x.live p a, limp := putBit x.limp p b })

/-- Pilot of region `r` may choose port `p` for a class. A port of a region outside RUN is treated as outside
every mask (15 R484). -/
def Dev.usable (d : Dev) (r p cls : Nat) : Bool :=
  (d.region (p / 32)).state == .run &&
    (bit (d.region r).live p || (cls == 4 && bit (d.region r).limp p))

/-! ## Costs and choices (05 R152 to R154) -/

/-- Bytes queued for egress on a port, all VCs (04 R123, 05 R152). DESIGN CHOICE: every flit of a granted packet that has not
been handed to Tollkeeper counts, one that is still arriving (cut-through) and one that replaces a lost flit as well
(log entry 20). -/
def Port.egressBytes (x : Port) : Nat := 128 * (x.egress.foldl (fun n e => n + (e.flits - e.sent)) 0)

/-- The figure a region uses for a port: its own ports' now, others' as last reported (05 R152). -/
def Dev.egressFigure (d : Dev) (r p : Nat) : Nat :=
  if p / 32 = r then (d.port p).egressBytes else tgetD (d.region r).reports p 0

/-- The least hint of a list of port blocks. -/
def minHint (x : Port) : List Nat → Nat
  | [] => 0
  | [b] => tgetD x.hints b 0
  | b :: bs => min (tgetD x.hints b 0) (minHint x bs)

/-- The cost of a candidate port, by the entry that applies; an entry that is absent has no valid NEXT. -/
def Dev.portCost (d : Dev) (r p entry : Nat) : Nat :=
  let x := d.port p
  let c := (d.region r).chip
  let q := min 255 (d.egressFigure r p / 4096)
  let next := setPorts (entryNext entry x.kind)
  let h := if entryNextValid entry x.kind && !next.isEmpty then minHint x (next.map (· / 4))
    else (List.range 32).foldl (fun n b => n + tgetD x.hints b 0) 0 / 32
  q + c.hintWeight * h + (if x.train.txAsleep then c.wakeCost else 0)

/-- The usable port of least cost among candidates, with its cost and the pointer after the choice: ties go to
step 3 of R16 (05 R154). -/
def Dev.bestPort (d : Dev) (r cls entry : Nat) (ports : List Nat) : Option (Nat × Nat × Nat) :=
  let cs := (ports.filter (fun p => d.usable r p cls)).map (fun p => (p, d.portCost r p entry))
  match minBy (fun x => x.2) cs with
  | none => none
  | some m =>
    match arbitrate 128 (d.region r).portPtr
        ((cs.filter (fun x => x.2 == m.2)).map (fun x => ⟨x.1, 0, 0⟩)) with
    | none => none
    | some w => some (w.1, m.2, w.2)

/-- An entry of the live bank; a group at or above NUM_GROUPS, or VALID 0, gives none (05 R147). -/
def Region.groupEntry (x : Region) (g : Nat) : Option Nat :=
  let e := tgetD x.banks.group g 0
  if g < x.chip.numGroups && entryValid e then some e else none
def Region.routerEntry (x : Region) (id : Nat) : Option Nat :=
  let e := tgetD x.banks.router id 0
  if entryValid e then some e else none

/-- The entry that applies to a table-routed packet, and its header, in which NONMIN_DONE may be set (05 R147). -/
def Region.entryFor (x : Region) (h : Hdr) : Hdr × Option Nat :=
  let shift := x.chip.groupShift
  let away := h.nonmin && !h.nonminDone
  let home := x.chip.routerId / 2 ^ shift == h.interGroup
  if away && !home then (h, x.groupEntry h.interGroup) else
  let h := if away then { h with nonminDone := true } else h
  let dst := fenRouter h.dstFen
  let g := dst / 2 ^ shift
  if x.chip.numGroups ≤ g then (h, none) else
  match x.groupEntry g with
  | some e => if entryDefer e then (h, x.routerEntry dst) else (h, some e)
  | none => (h, x.routerEntry dst)

/-- One step of the LFSR of R153: Galois form, x^32 + x^22 + x^2 + x + 1, left shift. -/
def lfsrStep (x : Nat) : Nat :=
  if bit x 31 then (x * 2 % 2 ^ 32) ^^^ 0x00400007 else x * 2 % 2 ^ 32

/-- Up to `n` draws from a state, one per tick: the first group that is neither `own` nor `dst` and has a
VALID entry (05 R153). -/
def Region.drawGroup (x : Region) (own dst : Nat) : Nat → Nat → Option (Nat × Nat)
  | 0, _ => none
  | n + 1, s =>
    let g := bits s 15 0 % x.chip.numGroups
    if g = own ∨ g = dst then x.drawGroup own dst n (lfsrStep s)
    else match x.groupEntry g with
      | some e => some (g, e)
      | none => x.drawGroup own dst n (lfsrStep s)

/-- The non-minimal choice of R153, given the best minimal port: the port, the pointer after it, the group and
its entry. -/
def Dev.nonminChoice (d : Dev) (r : Nat) (h : Hdr) (entry : Nat) (best : Option (Nat × Nat × Nat)) :
    Option (Nat × Nat × Nat × Nat) :=
  let x := d.region r
  if !(x.chip.nonminEn && entryNonminOk entry && h.mode == 0 && h.rung == 0 && !h.nonmin) then none else
  let shift := x.chip.groupShift
  match x.drawGroup (x.chip.routerId / 2 ^ shift) (fenRouter h.dstFen / 2 ^ shift) 4 x.lfsr with
  | none => none
  | some (g, e) =>
    match d.bestPort r h.cls e (setPorts (entryOwn e)) with
    | none => none
    | some (p, cnon, ptr) =>
      match best with
      | none => some (p, ptr, g, e)
      | some (_, cmin, _) => if 2 * cnon + x.chip.nonminBias < cmin then some (p, ptr, g, e) else none

/-! ## Drops -/

/-- A drop counted in a region, with the event of the same name where R545 has one. -/
def Dev.dropCount (d : Dev) (r ctr : Nat) (k : Option Nat) : Dev :=
  let d := d.count ctr
  match k with
  | some k => d.raise (Isl.belfry r) (Src.region r k) 0 0
  | none => d

def Dev.noRoute (d : Dev) (r : Nat) : Dev := d.dropCount r (Ctr.noRouteDrops r) (some 11)
def Dev.hdrDrop (d : Dev) (r : Nat) : Dev := d.dropCount r (Ctr.hdrDrops r) none

/-- A discard at a crossing whose far side is stopped, counted in the source's region (01 R34, 18 R545). -/
def Dev.crossingDrop (d : Dev) (r : Nat) : Dev := d.dropCount r (Ctr.crossingDrops r) (some 16)

/-! ## Intakes of the units (06 R183) -/

/-- The intake of a crossbar port for a class. -/
def intakeKey (x cls : Nat) : Nat := 8 * x + cls

/-- The unit takes a packet from its intake: the command that registers it in the unit (06 R183). -/
def Dev.takeIntake (d : Dev) (r : Nat) (pkt : Packet) : Dev :=
  d.modRegion r (fun x =>
    let keys := (List.range 8).map (fun i => intakeKey (56 + i) pkt.hdr.cls)
    match keys.find? (fun k => (tgetD x.intakes k []).contains pkt) with
    | some k =>
      let rest := (tgetD x.intakes k []).erase pkt
      { x with intakes := if rest.isEmpty then tdrop x.intakes k else tput x.intakes k rest }
    | none => x)

/-- A packet that a unit of a running region registers leaves its intake and has its effect. -/
def onArrival (r : Nat) (pkt : Packet) (f : Dev → Dev) (s : State) : Host.Outcome State Fault Refusal :=
  actIf (fun d => d.regionRuns r) (fun d => f (d.takeIntake r pkt)) s

/-! ## The hop of a header -/

/-- The tests of a network egress (05 R156): the hop limit before the rung, and the header as it leaves by
R149 for a table-routed packet. -/
def Dev.leaveBy (d : Dev) (r p : Nat) (h : Hdr) (entry : Option Nat) : Dev × Option (Hop × Hdr) :=
  let x := d.port p
  let c := (d.region r).chip
  if entry.isSome && decide (c.hopLimit ≤ h.hops) then (d.dropCount r (Ctr.hopLimitDrops r) (some 12), none)
  else if x.rungStep && h.rung == 3 then (d.dropCount r (Ctr.rungDrops r) (some 13), none)
  else
    let h := if x.rungStep then { h with rung := h.rung + 1 } else h
    let h := match entry with
      | some e => { h with hops := h.hops + 1, laSet := entryNext e x.kind, laValid := entryNextValid e x.kind }
      | none => h
    (d, some (.port p, h))

/-- The local endpoint of TWIN_MAP entry t, when it is valid (15 R468). -/
def Twin.mapped (t : Twin) (e : Nat) : Option Nat :=
  let b := tgetD t.map e 0
  if bit b 4 then some (bits b 3 0) else none

/-- The endpoint a FEN of this device names: by itself under ROUTER_ID, through TWIN_MAP under ALT_ROUTER_ID
(05 R144, 15 R468). -/
def Dev.endpointOf (d : Dev) (r fen : Nat) : Option Nat :=
  let c := (d.region r).chip
  if c.altValid && fenRouter fen == c.altRouterId && fenRouter fen != c.routerId then d.twin.mapped (fenEp fen)
  else some (fenEp fen)

/-- Delivery to a unit of this device (05 R144, 15 R468); `r` is the region the packet arrived in. -/
def Dev.deliverHop (d : Dev) (r : Nat) (h : Hdr) : Dev × Option (Hop × Hdr) :=
  let c := (d.region r).chip
  let alt := c.altValid && fenRouter h.dstFen == c.altRouterId && fenRouter h.dstFen != c.routerId
  let g := fenGate h.dstFen
  if h.unit = 0 then
    let e := (d.endpointOf r h.dstFen).getD (fenEp h.dstFen)
    (d, some (.unit (e / 4) (56 + e / 2 % 2), h))
  else if h.unit = 1 then
    if alt then (d.count (Ctr.altDrops r), none) else (d, some (.unit (g / 2) (58 + h.treeId % 2), h))
  else if h.unit = 2 then
    if alt then (d.count (Ctr.altDrops r), none) else (d, some (.unit (h.lockId / 16384) 60, h))
  else if h.unit = 3 then (d, some (.unit r 63, h))
  else (d.hdrDrop r, none)

/-- A hop of a DIRECTED packet may lead to a port: it is live, or in LIMP whatever its ROUTE_EN (05 R155). -/
def Dev.directedOk (d : Dev) (r p : Nat) : Bool :=
  d.usable r p 4 || ((d.region (p / 32)).state == .run && (d.port p).train.state == .limp)

/-- The hop of a DIRECTED packet (05 R155). -/
def Dev.directedHop (d : Dev) (r : Nat) (net : Option Nat) (h : Hdr) : Dev × Option (Hop × Hdr) :=
  let send (d : Dev) (h : Hdr) (k : Nat) : Dev × Option (Hop × Hdr) :=
    if d.directedOk r (h.hop k) then d.leaveBy r (h.hop k) { h with hops := k + 1 } none else (d.noRoute r, none)
  match net with
  | none => if h.dirLen = 0 then d.deliverHop r h else send d h 0
  | some a =>
    let h := h.setHop (h.hops - 1) a
    if h.hops = h.dirLen then d.deliverHop r h else send d h h.hops

/-- The hop of a table-routed packet (05 R147 to R156). `la` is set when the header is being registered, so
that the carried set is checked and counted (R150); a packet that is chosen again has no carried set. DESIGN CHOICE: a tie
broken for the carried set moves the rotating pointer even when the check then fails and the entry's choice moves it again
(log entry 20). -/
def Dev.tableHop (d : Dev) (r : Nat) (net : Option Nat) (h : Hdr) (la : Bool) : Dev × Option (Hop × Hdr) :=
  let x := d.region r
  let carried := la && h.laValid
  if net.isSome && !x.chip.idValid then (d.noRoute r, none)
  else if x.chip.isLocal (fenRouter h.dstFen) then
    let d := if carried then d.count (if emptySet h.laSet then Ctr.laHits r else Ctr.laMisses r) else d
    d.deliverHop r h
  else
    let (h', entry) := x.entryFor h
    let e := entry.getD 0
    let first := if carried then d.bestPort r h.cls e (setPorts h.laSet) else none
    let d := match first with
      | some (_, _, ptr) => d.modRegion r (fun x => { x with portPtr := ptr })
      | none => d
    let best := if entry.isSome then d.bestPort r h.cls e (setPorts (entryOwn e)) else none
    let non := if entry.isSome then d.nonminChoice r h e best else none
    let hit := match first, non with
      | some (p, _, _), none => entry.isSome && inSet (entryOwn e) p
      | _, _ => false
    let d := if carried then d.count (if hit then Ctr.laHits r else Ctr.laMisses r) else d
    match hit, first, non, best with
    | true, some (p, _, _), _, _ => d.leaveBy r p h' entry
    | _, _, some (p, ptr, g, ge), _ =>
      let d := (d.count (Ctr.nonminChosen r)).modRegion r (fun x => { x with portPtr := ptr })
      d.leaveBy r p { h' with nonmin := true, interGroup := g } (some ge)
    | _, _, none, some (p, _, ptr) =>
      (d.modRegion r (fun x => { x with portPtr := ptr })).leaveBy r p h' entry
    | _, _, none, none => (d.noRoute r, none)

/-- Pilot's hop for a header that passed R137. -/
def Dev.hopOf (d : Dev) (r : Nat) (net : Option Nat) (h : Hdr) (la : Bool) : Dev × Option (Hop × Hdr) :=
  if h.mode = 2 then d.directedHop r net h else d.tableHop r net h la

/-! ## Cells of the Belfry buffer (06 R173 to R176) -/

def cellKey (input vc : Nat) : Nat := input * 20 + vc
def Region.cellsOf (x : Region) (input vc : Nat) : Cells := tgetD x.cells (cellKey input vc) ⟨0, 0, 0⟩
def Cells.all (c : Cells) : Nat := c.floor + c.pool + c.skid

/-- SKID_USED of an input, over its VCs. -/
def Region.skidOf (x : Region) (input : Nat) : Nat :=
  (List.range 20).foldl (fun n v => n + (x.cellsOf input v).skid) 0

/-- Cells of the region's buffer in use (06 R194). -/
def Region.cellsUsed (x : Region) : Nat := x.cells.foldl (fun n c => n + c.2.all) 0

def Region.setCells (x : Region) (input vc : Nat) (c : Cells) : Region :=
  { x with cells := if c.all = 0 then tdrop x.cells (cellKey input vc) else tput x.cells (cellKey input vc) c }

/-- One cell of (input, VC) freed: to the skid, then the pool, then the floor (06 R176). -/
def Region.freeCell (x : Region) (input vc : Nat) : Region :=
  let c := x.cellsOf input vc
  if 0 < c.skid then x.setCells input vc { c with skid := c.skid - 1 }
  else if 0 < c.pool then { x.setCells input vc { c with pool := c.pool - 1 } with poolFree := x.poolFree + 1 }
  else x.setCells input vc { c with floor := c.floor - 1 }

/-- `n` cells freed. -/
def Region.freeCells (x : Region) (input vc : Nat) : Nat → Region
  | 0 => x
  | n + 1 => (x.freeCell input vc).freeCells input vc n

/-- The packet whose flit took a pool cell this tick is known once its header is registered. -/
def Region.nameAsk (x : Region) (input vc id : Nat) : Region :=
  { x with poolAsked := modWhere (fun a => a == (input, vc, none)) (fun _ => (input, vc, some id)) x.poolAsked }

/-- The flits of a packet that an input holds or has held: all of them once none is arriving. -/
def Region.storedOf (x : Region) (input vc id flits : Nat) : Nat :=
  match tget x.arriving (cellKey input vc) with
  | some a => if a.id = some id then a.stored else flits
  | none => flits

/-- The flits of a packet still to come are discarded as they arrive. -/
def Region.discardRest (x : Region) (input vc id : Nat) : Region :=
  match tget x.arriving (cellKey input vc) with
  | some a =>
    if a.id = some id then
      { x with arriving := if a.left = 0 then tdrop x.arriving (cellKey input vc)
                           else tput x.arriving (cellKey input vc) { a with discard := true, id := none } }
    else x
  | none => x

/-- A packet gives up its place: the cells of its flits that have arrived and have not left are freed, on both
sides of a Buttress crossing, and flits still to come are discarded (06 R174). -/
def Dev.release (d : Dev) (r input vc id flits sent : Nat) : Dev :=
  match (d.region r).crossing.find? (fun c => c.id == id) with
  | some c =>
    let crossed := flits - c.flits
    let held := (d.region c.srcRegion).storedOf c.srcInput c.srcVc id flits
    let d := d.modRegion r (fun x =>
      { x.freeCells input vc (crossed - sent) with crossing := x.crossing.filter (fun c => c.id != id) })
    d.modRegion c.srcRegion (fun x =>
      (x.freeCells c.srcInput c.srcVc (held - crossed)).discardRest c.srcInput c.srcVc id)
  | none =>
    d.modRegion r (fun x =>
      (x.freeCells input vc (x.storedOf input vc id flits - sent)).discardRest input vc id)

/-- A packet placed among those that wait for switch allocation, or dropped with its cells. -/
def Dev.place (d : Dev) (r : Nat) (w : Waiting) (o : Option (Hop × Hdr)) : Dev :=
  match o with
  | some (hop, h) =>
    let w' := { w with pkt := { w.pkt with hdr := h }, hop := hop }
    d.modRegion r (fun x => { x with waiting := x.waiting ++ [w'] })
  | none => d.release r w.input w.vc w.id (flitsOf w.arrived.hdr.plen) 0

/-- The network port an input of a region is, if it is one (01 R36). -/
def netPort (r input : Nat) : Option Nat := if input < 32 then some (32 * r + input) else none

/-- An epoch is ahead of an entry that checks (15 R470). -/
def epochAhead (entry epoch : Nat) : Bool :=
  let ahead := (epoch + 256 - bits entry 7 0) % 256
  bit entry 8 && ahead != 0 && decide (ahead < 128)

/-- A region learns an epoch, and the table with it, from which the other copies take it (15 R470, R479). An entry of the table that a
write has changed, and that the region has not taken over yet, learns it only as its own CHECK and EPOCH allow. -/
def Dev.learnEpoch (d : Dev) (q src epoch : Nat) : Dev :=
  let d := d.modRegion q (fun x => { x with epochs := tput x.epochs src (256 + epoch) })
  if epochAhead (tgetD d.epochs src 0) epoch then { d with epochs := tput d.epochs src (256 + epoch) } else d

/-- The tests at the delivering region: ECRC, then the epoch, then the fence (05 R141, 15 R470, R473). True when the packet
passes. -/
def Dev.deliveryTests (d : Dev) (q : Nat) (pkt : Packet) : Dev × Bool :=
  let h := pkt.hdr
  if ecrcOf h pkt.payload ≠ pkt.ecrc then
    (if pkt.ecrc = stompEcrc then d.dropCount q (Ctr.truncReceived q) (some 10)
     else d.dropCount q (Ctr.ecrcErrors q) (some 9), false)
  else if h.cls = 4 then (d, true) else
  let src := fenRouter h.srcFen
  let entry := tgetD (d.region q).epochs src 0
  let ahead := (h.srcEpoch + 256 - bits entry 7 0) % 256
  if bit entry 8 && decide (128 ≤ ahead) then (d.dropCount q (Ctr.staleEpochDrops q) (some 14), false)
  else
    let d := if bit entry 8 && ahead != 0 then d.learnEpoch q src h.srcEpoch else d
    if d.twin.state = .fenced then (d.count (Ctr.fenceDiscards q), false) else (d, true)

/-- A packet placed by its hop; one for a unit of this device passes the tests of its delivery first (05 R141). -/
def Dev.placeTested (d : Dev) (r : Nat) (w : Waiting) (o : Option (Hop × Hdr)) : Dev :=
  match o with
  | some (.unit q y, h) =>
    let (d, ok) := d.deliveryTests q { w.arrived with hdr := h }
    d.place r w (if ok then some (.unit q y, h) else none)
  | o => d.place r w o

/-- A packet chosen again (05 R158): the header as it arrived, the entry alone, counted in REROUTES. -/
def Dev.chooseAgain (d : Dev) (r : Nat) (w : Waiting) : Dev :=
  let d := d.count (Ctr.reroutes r)
  let (d, o) := d.hopOf r w.net w.arrived.hdr false
  d.placeTested r { w with pkt := w.arrived } o

/-- The packets of a region that wait for a port and may no longer take it are chosen again (05 R157, R158). -/
def Dev.rerouteWaiting (d : Dev) (r p : Nat) : Dev :=
  let gone (w : Waiting) : Bool := w.hop == .port p &&
    !(if w.arrived.hdr.mode = 2 then d.directedOk r p else d.usable r p w.pkt.hdr.cls)
  let ws := (d.region r).waiting.filter gone
  let d := d.modRegion r (fun x => { x with waiting := x.waiting.filter (fun w => !gone w) })
  forEach ws (fun w d => d.chooseAgain r w) d

/-- A packet of an egress queue as one that waits. -/
def Egress.asWaiting (e : Egress) : Waiting :=
  { id := e.id, input := e.input, vc := e.inVc, stamp := e.stamp, net := e.net, arrived := { e.pkt with hdr := e.arrived },
    pkt := e.pkt, hop := .unit e.region 63 }

/-- Flits of an egress packet that its port's region has or has had: those across a Buttress, of the ones that are to cross; else
those stored, and in place of missing ones zeros. -/
def Dev.flitsHere (d : Dev) (e : Egress) : Nat :=
  match (d.region e.region).crossing.find? (fun c => c.id == e.id), e.cutAt with
  | some c, n => n.getD e.flits - c.flits
  | none, some _ => e.flits
  | none, none => (d.region e.region).storedOf e.input e.inVc e.id e.flits

/-- Port-block egress holds at least one flit for the port: of a granted packet a flit that has come and has not been
handed over, or one handed over and not yet in a unit (04 R121). -/
def Dev.egressHolds (d : Dev) (p : Nat) : Bool :=
  let x := d.port p
  !x.toll.handed.isEmpty || x.egress.any (fun e => decide (e.sent < d.flitsHere e))

/-- The credit timer runs while NEXT_SEQ equals CREDIT_LIMIT and egress holds a flit for the port (04 R121). -/
def Dev.starve (d : Dev) (p : Nat) : Dev :=
  let x := d.port p
  let hungry := x.toll.state == .opened && x.toll.nextSeq == x.toll.creditLimit && d.egressHolds p
  let since := if hungry then some (x.toll.starvedSince.getD (d.belfryNow (p / 32))) else none
  d.modToll p (fun t => { t with starvedSince := since })

/-- The credit timers of the OPEN ports follow what their egress holds (04 R121): after a change of what a crossbar or a Buttress
has brought, or of the packets that an egress holds. -/
def Dev.starveAll (d : Dev) : Dev :=
  forEach ((d.ports.filter (fun x => x.2.toll.state == .opened)).map (fun x => x.1)) (fun p d => d.starve p) d

/-- Flits of an egress packet that have come to this device: those here, and those stored in the region it is crossing from. -/
def Dev.flitsCome (d : Dev) (e : Egress) : Nat :=
  match (d.region e.region).crossing.find? (fun c => c.id == e.id) with
  | some c => (d.region c.srcRegion).storedOf c.srcInput c.srcVc e.id e.flits
  | none => d.flitsHere e

/-- The cells of an egress packet that is given up: of one already cut, those of the flits that were to be kept. -/
def Dev.releaseEgress (d : Dev) (e : Egress) : Dev :=
  match e.cutAt, (d.region e.region).crossing.find? (fun c => c.id == e.id) with
  | none, _ => d.release e.region e.input e.inVc e.id e.flits e.sent
  | some n, none => d.modRegion e.region (fun x => x.freeCells e.input e.inVc (n - e.sent))
  | some n, some c =>
    let d := d.modRegion e.region (fun x =>
      { x.freeCells e.input e.inVc (n - c.flits - e.sent) with crossing := x.crossing.filter (fun c => c.id != e.id) })
    d.modRegion c.srcRegion (fun x => x.freeCells c.srcInput c.srcVc c.flits)

/-- Egress of a pruned port: packets of which nothing has been handed over are chosen again; the remaining flits of one partly
handed over are discarded, and it is stomped from there (05 R158, R142). DESIGN CHOICE: a packet that crossed a Buttress to the
port is chosen again in the port's region, which holds its cells, and counts REROUTES there (log entry 20). -/
def Dev.pruneEgress (d : Dev) (p : Nat) : Dev :=
  let es := (d.port p).egress
  let kept := (es.filter (fun e => e.sent != 0)).map (fun e => { e with cutAt := some (e.cutAt.getD e.sent) })
  let d := d.modPort p (fun x => { x with egress := kept })
  forEach es (fun e d =>
    if e.sent = 0 then d.chooseAgain e.region e.asWaiting
    else (if e.cutAt.isSome then d else d.count (Ctr.truncStomps e.region)).releaseEgress e) (d.starve p)

/-- The first `n` flits of an egress packet stay; the others are lost: those stored are freed, here and in the region the packet
is crossing from, and flits still to come are discarded (05 R142). Flits that stay and have still to cross go on crossing. -/
def Dev.stompFrom (d : Dev) (p : Nat) (e : Egress) (n : Nat) : Dev :=
  let have_ := d.flitsHere e
  let d := d.modRegion e.region (fun x => x.freeCells e.input e.inVc (have_ - n))
  let d := match (d.region e.region).crossing.find? (fun c => c.id == e.id) with
    | some c =>
      let held := (d.region c.srcRegion).storedOf c.srcInput c.srcVc e.id e.flits
      let d := d.modRegion e.region (fun x =>
        { x with crossing := if n ≤ have_ then x.crossing.filter (fun c => c.id != e.id)
                             else modWhere (fun c => c.id == e.id) (fun c => { c with flits := n - have_ }) x.crossing })
      d.modRegion c.srcRegion (fun x =>
        (x.freeCells c.srcInput c.srcVc (held - max n have_)).discardRest c.srcInput c.srcVc e.id)
    | none => d.modRegion e.region (fun x => x.discardRest e.input e.inVc e.id)
  d.modPort p (fun y => { y with egress := modWhere (fun f => f.id == e.id) (fun f => { f with cutAt := some n }) y.egress })

/-- A packet that waits is dropped as truncated (05 R142). -/
def Dev.dropWaiting (d : Dev) (r q id : Nat) (w : Waiting) : Dev :=
  let d := (d.count (Ctr.truncDrops r)).modRegion q (fun x => { x with waiting := x.waiting.filter (fun w => w.id != id) })
  d.release q w.input w.vc id (flitsOf w.arrived.hdr.plen) 0

/-- The region in which a packet waits, and its place there. -/
def Dev.whereWaits (d : Dev) (id : Nat) : Option (Nat × Waiting) :=
  [0, 1, 2, 3].findSome? (fun q => ((d.region q).waiting.find? (fun w => w.id == id)).map (fun w => (q, w)))

/-- Which flits of a truncated packet are good, so that only the missing ones become zeros (05 R142): all that have come; those in the
port's region, when the region they cross from is lost; or only those handed over already. -/
inductive Kept where
  | come | here | sent
  deriving DecidableEq, Repr

def Dev.keptOf (d : Dev) (e : Egress) : Kept → Nat
  | .come => d.flitsCome e
  | .here => d.flitsHere e
  | .sent => e.sent

/-- A packet known to be truncated is disposed of (05 R142): dropped when no flit of it has been handed to an
egress or it is bound for a unit, stomped otherwise. It may wait in another region since it was chosen again there. `r` is the
region it arrived in. -/
def Dev.disposeTruncated (d : Dev) (r id : Nat) (kept : Kept) : Dev :=
  match d.whereWaits id with
  | some (q, w) => d.dropWaiting r q id w
  | none =>
    match d.ports.find? (fun y => y.2.egress.any (fun e => e.id == id)) with
    | some (p, y) =>
      (match y.egress.find? (fun e => e.id == id) with
      | none => d
      | some e =>
        if e.cutAt.isSome then d else
        if e.sent = 0 then
          let d := (d.count (Ctr.truncDrops r)).modPort p (fun y =>
            { y with egress := y.egress.filter (fun e => e.id != id) })
          (d.release e.region e.input e.inVc id e.flits 0).starve p
        else ((d.count (Ctr.truncStomps r)).stompFrom p e (d.keptOf e kept)).starve p)
    | none =>
      match [0, 1, 2, 3].findSome? (fun q => ((d.region q).crossing.find? (fun c => c.id == id)).map (fun c => (q, c))) with
      | some (q, c) =>
        (d.count (Ctr.truncDrops r)).release q c.input c.vc id
          ((c.toUnit.map (fun u => flitsOf u.2.hdr.plen)).getD c.flits) 0
      | none => d

/-- The packet arriving at a network input on a VC is truncated: `lost` of its flits never come (04 R128), the
others are discarded as they arrive (06 R174). `released` counts flits on their way when none is stored yet. -/
def Dev.truncateArriving (d : Dev) (r input vc lost released : Nat) : Dev :=
  let k := cellKey input vc
  match tget (d.region r).arriving k with
  | none =>
    let d := d.count (Ctr.truncDrops r)
    if released = 0 then d
    else d.modRegion r (fun x => { x with arriving := tput x.arriving k ⟨released, 0, true, none⟩ })
  | some a =>
    let d := if a.discard then d else match a.id with
      | some id => d.disposeTruncated r id .come
      | none => (d.count (Ctr.truncDrops r)).modRegion r (fun x => x.freeCells input vc a.stored)
    let left := a.left - lost
    d.modRegion r (fun x =>
      { x with arriving := if left = 0 then tdrop x.arriving k else tput x.arriving k ⟨left, 0, true, none⟩ })

/-- A port is pruned in its own region in the tick it leaves OPEN (05 R157, R158); the other regions follow by
LIVE_MASK_UPDATE. -/
def Dev.prune (d : Dev) (p : Nat) : Dev :=
  let r := p / 32
  let d := d.setLive r p
  (d.pruneEgress p).rerouteWaiting r p

end Sys2Proof.Machine
end

