-- ==== Sys2Proof/Machine/Toll.lean ====
section
/-! DEFINITION. Tollkeeper (04): the Reed-Solomon code, the link unit and its control field, the link-layer
states, breaks, holding and resumption. The commands stand in Machine/Link.lean. -/

namespace Sys2Proof.Machine

/-! ## RS(144,136) over GF(2^8) (04 R108) -/

/-- Times α = 2 in GF(2^8), with x^8 + x^4 + x^3 + x^2 + 1. -/
def gfDouble (a : Nat) : Nat := if a < 128 then a * 2 else (a * 2) ^^^ 0x11D

/-- The product of two field elements, over the low `n` bits of the first. -/
def gfMulN : Nat → Nat → Nat → Nat
  | 0, _, _ => 0
  | n + 1, a, b => (if a % 2 = 1 then b else 0) ^^^ gfMulN n (a / 2) (gfDouble b)

def gfMul (a b : Nat) : Nat := gfMulN 8 a b

/-- α^n. -/
def gfExp : Nat → Nat
  | 0 => 1
  | n + 1 => gfDouble (gfExp n)

/-- a^n. -/
def gfPow (a : Nat) : Nat → Nat
  | 0 => 1
  | n + 1 => gfMul a (gfPow a n)

/-- The inverse: a^254. -/
def gfInv (a : Nat) : Nat := gfPow a 254

/-- The value of a polynomial, lowest coefficient first. -/
def gfEval (x : Nat) : List Nat → Nat
  | [] => 0
  | c :: cs => c ^^^ gfMul x (gfEval x cs)

/-- The sum of two polynomials. -/
def gfAdd : List Nat → List Nat → List Nat
  | [], ys => ys
  | xs, [] => xs
  | x :: xs, y :: ys => (x ^^^ y) :: gfAdd xs ys

def gfScale (k : Nat) (xs : List Nat) : List Nat := xs.map (gfMul k)

/-- The product of two polynomials. -/
def gfProd : List Nat → List Nat → List Nat
  | [], _ => []
  | x :: xs, ys => gfAdd (gfScale x ys) (0 :: gfProd xs ys)

/-- The generator polynomial: the product of (x − α^i) for i = 0 to 7. -/
def rsGen : List Nat := (List.range 8).foldl (fun g i => gfProd g [gfExp i, 1]) [1]

/-- One step of the division by the generator: the remainder (8 coefficients, lowest first) after the next
data symbol, taken from the highest degree down. -/
def rsShift (r : List Nat) (c : Nat) : List Nat :=
  let f := (r.getD 7 0) ^^^ c
  gfAdd (0 :: r.take 7) (gfScale f (rsGen.take 8))

/-- The 8 parity symbols of 136 data symbols; parity symbol k is the coefficient of x^k (04 R108). -/
def rsParity (data : List Nat) : List Nat := data.reverse.foldl rsShift (List.replicate 8 0)

/-- The 8 syndromes of a codeword, lowest coefficient first. -/
def rsSyndromes (c : List Nat) : List Nat := (List.range 8).map (fun i => gfEval (gfExp i) c)

/-- The state of the Berlekamp-Massey recursion. -/
structure Bm where
  c : List Nat
  b : List Nat
  len : Nat
  m : Nat
  last : Nat
  deriving DecidableEq, Repr

/-- One step of it, for syndrome `n`. -/
def bmStep (s : List Nat) (x : Bm) (n : Nat) : Bm :=
  let disc := (List.range (x.len + 1)).foldl (fun a i => a ^^^ gfMul (x.c.getD i 0) (s.getD (n - i) 0)) 0
  if disc = 0 then { x with m := x.m + 1 } else
  let f := gfMul disc (gfInv x.last)
  let c := gfAdd x.c (List.replicate x.m 0 ++ gfScale f x.b)
  if 2 * x.len ≤ n then ⟨c, x.c, n + 1 - x.len, 1, disc⟩ else { x with c := c, m := x.m + 1 }

/-- The derivative of a polynomial over a field of characteristic 2. -/
def gfDeriv (xs : List Nat) : List Nat := (xs.zipIdx.drop 1).map (fun x => if x.2 % 2 = 1 then x.1 else 0)

/-- The error at a position, if there is one (Forney). -/
def rsErrorAt (loc omega : List Nat) (j : Nat) : Option (Nat × Nat) :=
  let xi := gfExp ((255 - j) % 255)
  if gfEval xi loc = 0 then
    some (j, gfMul (gfMul (gfExp j) (gfEval xi omega)) (gfInv (gfEval xi (gfDeriv loc))))
  else none

/-- Decoding of one codeword, lowest coefficient first: the errors it corrects, or none when it finds more than
4 (04 R108). -/
def rsErrors (c : List Nat) : Option (List (Nat × Nat)) :=
  let s := rsSyndromes c
  if s.all (· == 0) then some [] else
  let b := (List.range 8).foldl (bmStep s) ⟨[1], [1], 0, 1, 1⟩
  let omega := (gfProd s b.c).take 8
  let es := (List.range 144).filterMap (rsErrorAt b.c omega)
  let fixed := es.foldl (fun c e => c.set e.1 (c.getD e.1 0 ^^^ e.2)) c
  if b.len ≤ 4 ∧ es.length = b.len ∧ (rsSyndromes fixed).all (· == 0) then some es else none

/-! ## The link unit (04 R107, R109) -/

/-- The wire byte of symbol `k` of codeword `c`: parity first, then the data bytes ascending. -/
def wireOf (c k : Nat) : Nat := if k < 8 then 272 + 2 * k + c else 2 * (k - 8) + c

/-- A codeword of a unit's wire bytes, lowest coefficient first. -/
def codeword (wire : List Byte) (c : Nat) : List Nat := (List.range 144).map (fun k => byteAt wire (wireOf c k))

/-- The wire bytes of 272 data bytes: parity appended. -/
def rsEncode (data : List Byte) : List Byte :=
  let p (c : Nat) := rsParity ((List.range 136).map (fun i => byteAt data (2 * i + c)))
  let p0 := p 0
  let p1 := p 1
  data ++ (List.range 8).flatMap (fun k => [BitVec.ofNat 8 (p0.getD k 0), BitVec.ofNat 8 (p1.getD k 0)])

/-- The wire byte at position j of the n-th lane of an active group of W lanes, in near mode (04 R109). -/
def wireAt (w j n : Nat) : Nat := 2 * (w * (j / 2) + n) + j % 2

/-- The unit of a far-mode block whose byte lies at position j in slot s (04 R110). -/
def farUnit (s j : Nat) : Nat := (s + j / 2) % 8

/-- What the n-th lane of W active lanes carries of one near-mode unit (04 R109). -/
def laneBytes (w : Nat) (wire : List Byte) (n : Nat) : List Byte :=
  (List.range (288 / w)).map (fun j => wire.getD (wireAt w j n) 0)

/-- What the n-th lane carries in slot s of a far-mode block of units (04 R110). -/
def farLaneBytes (w s : Nat) (block : List (List Byte)) (n : Nat) : List Byte :=
  (List.range (288 / w)).map (fun j => (block.getD (farUnit s j) []).getD (wireAt w j n) 0)

/-- The wire bytes of the unit in a near-mode slot, from the bytes of its lanes (04 R109). -/
def unitOfSlot (w : Nat) (slot : List (List Byte)) : List Byte :=
  (List.range 288).map (fun b => (slot.getD (b / 2 % w) []).getD (2 * (b / 2 / w) + b % 2) 0)

/-- The slot of a far-mode block that carries position j of unit k: `farUnit` solved for the slot (04 R110). -/
def farSlot (k j : Nat) : Nat := (k + 8 - j / 2 % 8) % 8

/-- The wire bytes of unit k of a far-mode block, from its 8 slots (04 R110). -/
def unitOfBlock (w : Nat) (slots : List (List (List Byte))) (k : Nat) : List Byte :=
  (List.range 288).map (fun b =>
    let j := 2 * (b / 2 / w) + b % 2
    ((slots.getD (farSlot k j) []).getD (b / 2 % w) []).getD j 0)

/-- The lane of the active group that carries a wire byte, in either mode (04 R109, R110). -/
def laneOfByte (w b : Nat) : Nat := b / 2 % w

/-- Lanes of a width code: the width W and the first lane gW (03 R84). -/
def widthLanes (code : Nat) : Nat := 2 ^ bits code 1 0
def widthFirst (code : Nat) : Nat := bits code 4 2 * widthLanes code
/-- The active lanes of a width code. -/
def activeLanes (code : Nat) : List Nat := (List.range (widthLanes code)).map (widthFirst code + ·)
/-- A width code whose group is in range (03 R84). -/
def widthOk (code : Nat) : Bool := decide (code < 32) && decide (widthFirst code + widthLanes code ≤ 8)

/-- The control field (04 R112). -/
structure Control where
  resent : Bool
  seq : Nat
  ack : Nat
  credit : Nat
  nakSeq : Nat
  nakValid : Bool
  rs : Nat
  rsSeen : Bool
  stop : Nat
  f0Vc : Nat
  f0Valid : Bool
  f1Vc : Nat
  f1Valid : Bool
  hintBlock : Nat
  hintLevel : Nat
  deriving DecidableEq, Repr

def Control.toNat (c : Control) : Nat :=
  pack [(b2n c.resent, 1), (c.seq, 12), (c.ack, 12), (c.credit, 12), (c.nakSeq, 12), (b2n c.nakValid, 1), (c.rs, 2),
    (b2n c.rsSeen, 1), (c.stop, 20), (c.f0Vc, 5), (b2n c.f0Valid, 1), (c.f1Vc, 5), (b2n c.f1Valid, 1),
    (c.hintBlock, 5), (c.hintLevel, 4)]

def Control.ofNat (x : Nat) : Control :=
  { resent := bit x 0, seq := bits x 12 1, ack := bits x 24 13, credit := bits x 36 25, nakSeq := bits x 48 37,
    nakValid := bit x 49, rs := bits x 51 50, rsSeen := bit x 52, stop := bits x 72 53, f0Vc := bits x 77 73,
    f0Valid := bit x 78, f1Vc := bits x 83 79, f1Valid := bit x 84, hintBlock := bits x 89 85,
    hintLevel := bits x 93 90 }

/-- The 288 wire bytes of a unit (04 R107, R112, R113). -/
def buildUnit (c : Control) (f0 f1 : Flit) : List Byte :=
  let body := sliceBytes f0 0 128 ++ sliceBytes f1 0 128 ++ leBytes 12 c.toNat
  rsEncode (body ++ leBytes 4 (crc32 body))

/-! ## Register fields (04 R130) -/

/-- RESEND_TIMEOUT in ns, CREDIT_TIMEOUT and REPLAY_HOLD in ns. -/
def Port.resendTimeout (x : Port) : Nat := max 500 (rbits x.tkCtrl 15 0)
def Port.creditTimeout (x : Port) : Nat := 1000 * clamp 8 1024 (rbits x.tkCtrl 31 16)
def Port.replayHold (x : Port) : Nat := 1000 * min 10000 (rbits x.tkCtrl 47 32)

/-- s lies in [a, a + n) modulo 4,096 (04 R112). -/
def seqIn (s a n : Nat) : Bool := decide ((s + 4096 - a % 4096) % 4096 < n)
/-- The distance from a to b modulo 4,096. -/
def seqDist (a b : Nat) : Nat := (b + 4096 - a % 4096) % 4096

/-! ## Holding and discarding (04 R124 to R129) -/

/-- Truncations that no released flit precedes in the crossing any more reach Belfry (04 R128). -/
def Dev.crossCuts (d : Dev) (p : Nat) : List Cross → Dev
  | .cut vc left seen :: cs =>
    ((d.emit (.rxTruncated p vc)).truncateArriving (p / 32) (p % 32) vc left seen).crossCuts p cs
  | cs => d.modToll p (fun t => { t with crossing := cs })

/-- A released flit is registered in Belfry: it leaves the crossing, its unit's slot is freed with the last flit of the unit,
and truncations that follow it arrive (04 R116, R128). -/
def Dev.crossFlit (d : Dev) (p : Nat) : Dev :=
  match (d.port p).toll.crossing with
  | .flit last :: cs =>
    let d := if last then d.modToll p (fun t => { t with unfreed := (t.unfreed + 1) % 4096 }) else d
    d.crossCuts p cs
  | _ => d

/-- The receive state is discarded: packets whose earlier flits have been released are truncated, behind those flits
(04 R128). -/
def Dev.truncateRx (d : Dev) (p : Nat) : Dev :=
  let ls := (d.port p).toll.rxLeft
  let cuts := ls.map (fun x => Cross.cut x.1 x.2.1 x.2.2)
  let unlast (c : Cross) : Cross := match c with
    | .flit _ => .flit false
    | c => c
  let d := d.modToll p (fun t => { t with rxLeft := [], crossing := t.crossing.map unlast ++ cuts })
  d.crossCuts p (d.port p).toll.crossing

/-- Units still held are dropped, and counted in REPLAY_DISCARDS and RX_DISCARDS where R125 or R126 discards
them. Egress packets of which a part had been sent are given up with them. -/
def Dev.discardHeld (d : Dev) (p : Nat) (counted : Bool) : Dev :=
  let t := (d.port p).toll
  let d := if !counted then d else (d.countBy (Ctr.replayDiscards p) t.replay.length).countBy (Ctr.rxDiscards p) t.reorder.length
  let d := d.truncateRx p
  let d := d.modPort p (fun x => { x with egress := x.egress.filter (fun e => e.cutAt.isNone) })
  d.modToll p (fun t => { t with replay := [], due := [], handed := [], reorder := [], missing := [], nextSeq := 0,
                                 rxExpect := 0, unfreed := 0, peerAck := 0, creditLimit := 1024 })

/-- The link state is dropped and the state is CLOSED (04 R124, R125). -/
def Dev.closeLink (d : Dev) (p : Nat) (counted : Bool) : Dev :=
  (d.discardHeld p counted).modToll p (fun t => { t with state := .closed, holdStart := none, starvedSince := none })

/-- Causes of an exit from OPEN (04 R130), as bits. DESIGN CHOICE: an exit because ENABLE is cleared, the region resets or the
input cell is quarantined records the retrain request, since R130 lists no cause for it (log entry 41). -/
def causeRetry : Nat := 1
def causeCredit : Nat := 2
def causeCk : Nat := 4
def causeProtocol : Nat := 8
def causeRequest : Nat := 16

/-- The unit whose resend timeout runs: the oldest in replay, unless its resend is due already (04 R118). -/
def Port.timedUnit (x : Port) : Option Replay :=
  (minBy (fun u => seqDist x.toll.peerAck u.seq) x.toll.replay).filter (fun u => !x.toll.due.contains u.seq)

/-- Whether the retry limit allows a resend of a unit (04 R119): eight are allowed, the ninth is a break. -/
def Replay.mayResend (u : Replay) : Bool := decide (u.resends < 8)

/-- The breaks that the timers of an OPEN port bring in this tick (04 R119, R121). -/
def Dev.timedCauses (d : Dev) (p : Nat) : Nat :=
  let x := d.port p
  let now := d.belfryNow (p / 32)
  let retry := match x.timedUnit with
    | some u => !u.mayResend && decide (u.sentAt + x.resendTimeout ≤ now)
    | none => false
  let credit := match x.toll.starvedSince with
    | some t => decide (t + x.creditTimeout ≤ now)
    | none => false
  (if retry then causeRetry else 0) + (if credit then causeCredit else 0)

/-- Breaks of the retry limit and of the credit timer are counted by cause (04 R131). -/
def Dev.countCauses (d : Dev) (p causes : Nat) : Dev :=
  let d := if bit causes 0 then d.count (Ctr.retryLimitBreaks p) else d
  if bit causes 1 then d.count (Ctr.creditTimeoutBreaks p) else d

/-- The port leaves UP (04 R124, R125, R129, 18 R545): OPEN or RESUME goes to HELD, the hold window opens, the
port is pruned, and PORT_DOWN is raised. A REPLAY_HOLD of 0 discards at once (R130). DESIGN CHOICE: RESUME entered from
CLOSED and left by a request has had no hold window, and stays HELD with none until the next UP (log entry 19). The breaks that the port's timers bring in the same tick are recorded and
counted with it (R129). -/
def Dev.leaveUp (d : Dev) (p asked : Nat) : Dev :=
  let r := p / 32
  let now := d.belfryNow r
  let was := (d.port p).toll.state
  let causes := if was == .opened then asked ||| d.timedCauses p else asked
  let d := d.countCauses p causes
  let broken := causes % 16 != 0
  let d := if broken then (d.count (Ctr.linkBreaks p)).modToll p (fun t => { t with breakAt := some now }) else d
  let d := d.modToll p (fun t => { t with txBlock := [], rxBlock := [] })
  let d := d.raise (Isl.belfry r) (Src.port p 0) (if bit causes 2 then 0x20 else causes) 0
  let d := match was with
    | .opened =>
      let d := d.modToll p (fun t => { t with state := .held, holdStart := some now, breakCause := causes,
                                              starvedSince := none })
      d.prune p
    | .resume =>
      d.modToll p (fun t => { t with state := .held, holdStart := if broken then some now else t.holdStart })
    | _ => d
  if (d.port p).toll.state == .held && (d.port p).replayHold == 0 then d.closeLink p true else d

/-- The port enters UP (04 R124, R125, R127): RESUME with RS KEEP inside the hold window when the peer is the
same as at the last OPEN, and with RS FRESH otherwise. -/
def Dev.tollUp (d : Dev) (p : Nat) : Dev :=
  let x := d.port p
  let now := d.belfryNow (p / 32)
  let late := match x.toll.holdStart with
    | some t => decide (t + x.replayHold ≤ now)
    | none => true
  let d := if x.toll.state == .held && late then d.closeLink p true else d
  let same := x.toll.openPeer == some (x.train.peerSerial, x.train.peerPort)
  d.modToll p (fun t => { t with state := .resume, rs := if t.state == .held && same then 1 else 2, peerRs := 0,
                                 stopAll := true, dataRun := 0 })

/-- Entry to OPEN (04 R126, 05 R157, R158): held state is kept when both ends are KEEP, and dropped otherwise;
every hint is 0; the port is live in its own region. -/
def Dev.enterOpen (d : Dev) (p ack : Nat) : Dev :=
  let t := (d.port p).toll
  let keep := t.rs == 1 && t.peerRs == 1
  let d := if keep then
      let kept := (t.replay.filter (fun u => seqIn u.seq ack (seqDist ack t.nextSeq))).map
        (fun u => { u with resends := 0 })
      (d.count (Ctr.resumesKept p)).modToll p (fun t => { t with replay := kept, due := kept.map (fun u => u.seq) })
    else (d.discardHeld p true).count (Ctr.resumesFresh p)
  let d := d.modPort p (fun x => { x with hints := [] })
  let peer := some ((d.port p).train.peerSerial, (d.port p).train.peerPort)
  let d := d.modToll p (fun t => { t with state := .opened, holdStart := none, openPeer := peer })
  d.setLive (p / 32) p

end Sys2Proof.Machine
end

