-- ==== Sys2Proof/Machine/Train.lean ====
section
/-! DEFINITION. Port training (03): register fields, what a port sends in each state, the transitions between the
states of R80, tiers and their exclusion, widths, requests, and sleep. The commands stand in
Machine/Lanes.lean. -/

namespace Sys2Proof.Machine

/-! ## PORT_CTRL (03 R105) -/

def Port.enable (x : Port) : Bool := rbit x.ctrl 0
def Port.maxTier (x : Port) : Nat := rbits x.ctrl 2 1
def Port.maxWidth (x : Port) : Nat := rbits x.ctrl 4 3
def Port.farMode (x : Port) : Bool := rbit x.ctrl 5
def Port.limpEn (x : Port) : Bool := rbit x.ctrl 6
def Port.sleepEn (x : Port) : Bool := rbit x.ctrl 7
def Port.manualAlign (x : Port) : Bool := rbit x.ctrl 9
/-- IDLE_SLEEP in ns; 0 counts as 1 µs. -/
def Port.idleSleep (x : Port) : Nat := 1000 * max 1 (rbits x.ctrl 31 16)
def Port.laneErrLimit (x : Port) : Nat := rbits x.ctrl 47 32

/-- SERIAL of this device (00 R19). -/
def ownSerial : Nat := Config.serial.toNat

/-- The highest tier that is not excluded (03 R81). -/
def Train.topTier (t : Train) : Nat :=
  if bit t.excluded 0 then 0 else if bit t.excluded 1 then 1 else if bit t.excluded 2 then 2 else 3

/-- TIER_MAX a port sends. -/
def Port.tierMax (x : Port) : Nat := min x.maxTier x.train.topTier

/-- The mask of good receive lanes (03 R105). -/
def Train.laneGood (t : Train) : Nat := (List.range 8).foldl (fun m l => m + (if (t.lane l).good then 2 ^ l else 0)) 0

/-- The good lanes, ascending. -/
def Train.goodLanes (t : Train) : List Nat := (List.range 8).filter (fun l => (t.lane l).good)

/-- The lanes that a training runs on: all eight at T0, where no width is agreed, and in a retest; else the active group, since
lanes outside it send electrical idle (03 R84, R86, R94, R97). -/
def Train.trainLanes (t : Train) : List Nat :=
  if t.tier = 0 ∨ t.retest then List.range 8 else activeLanes t.width

/-- The good lanes among them, ascending. -/
def Train.goodTrained (t : Train) : List Nat := t.trainLanes.filter (fun l => (t.lane l).good)

/-! ## What a port sends (03 R84, R86, R103, R105) -/

def symCom : Byte := 0xBC
def symIdle : Byte := 0x1C
def symTs1 : Byte := 0x3C
def symTs2 : Byte := 0x5C
def symFc : Byte := 0x7C
/-- D21.5. -/
def symFill : Byte := 0xB5

/-- The common fields of TS1, TS2 and training words, as bytes: SERIAL (03 R84, R86). -/
def idBytes : List Byte := leBytes 6 ownSerial

/-- An ordered set from its ID and symbols 2 to 14, with CHK (03 R84, R85). -/
def orderedSet (id : Byte) (body : List Byte) : List Sym :=
  [.k symCom, .k id] ++ (body.map Sym.d) ++ [.d (BitVec.ofNat 8 (crc8 body))]

/-- IDLE (03 R85). -/
def idleSet : List Sym := [.k symCom, .k symIdle] ++ List.replicate 14 (.d symFill)

/-- The WIDTH this end sends: MAX_WIDTH, which the agreed width does not exceed; with a request raised without a retest, no more
than the width it has (03 R94, R96, R97). -/
def Port.wantWidth (x : Port) : Nat :=
  let t := x.train
  if t.req && !t.retest then min x.maxWidth (bits t.width 1 0) else x.maxWidth

/-- TS1, or TS2 in a countdown, as a port sends it on a lane (03 R84). -/
def Port.trainingSet (x : Port) (p lane : Nat) : List Sym :=
  let t := x.train
  let ts2 := t.countdown.isSome
  let cd := t.countdown.getD ⟨0, false, false, x.wantWidth, 0, false⟩
  let s2 := pack [(lane, 4), (x.tierMax, 2), (b2n x.farMode, 1), (b2n x.limpEn, 1)]
  let s12 := pack [(b2n t.aligned, 1), (b2n t.req, 1), (b2n t.leader, 1)]
  let s13 := if ts2 then pack [(cd.target, 2), (b2n cd.far, 1)] else 0
  let body := leBytes 1 s2 ++ leBytes 1 p ++ idBytes ++ leBytes 1 cd.width ++ leBytes 1 t.laneGood ++ leBytes 1 s12 ++
    leBytes 1 s13 ++ leBytes 1 (if ts2 then cd.left - 1 else t.seq)
  orderedSet (if ts2 then symTs2 else symTs1) body

/-- PRBS-7 (x^7 + x^6 + 1) from all ones: `n` bits, as a number with the first bit at bit 0 (03 R86). -/
def prbs7 : Nat → Nat → Nat
  | 0, _ => 0
  | n + 1, s =>
    let out := bits s 6 6
    out + 2 * prbs7 n ((s * 2 % 128) + (bits s 6 6 ^^^ bits s 5 5))

/-- A training word as a port sends it on a lane (03 R86), with its SLEEP and WAKE bits. The leader runs the countdown, so
its words alone carry one (R93). -/
def Port.trainingWord (x : Port) (p lane cnt : Nat) (sleep wake : Bool) : List Byte :=
  let t := x.train
  let b4 := pack [(lane, 4), (t.tier, 2), (b2n x.farMode, 1)]
  let cd := if t.leader then t.countdown else none
  let width := match cd with
    | some c => c.width
    | none => x.wantWidth
  let b7 := pack [(b2n t.aligned, 1), (b2n t.req, 1), (b2n t.leader, 1), (b2n sleep, 1), (b2n wake, 1)]
  let b16 := match cd with
    | some c => c.left - 1
    | none => 0xFF
  let b17 := match cd with
    | some c => pack [(c.target, 2), (b2n c.final, 1), (b2n c.far, 1)]
    | none => 0
  let body := leBytes 1 b4 ++ leBytes 1 cnt ++ leBytes 1 width ++ leBytes 1 b7 ++ idBytes ++ leBytes 1 p ++
    leBytes 1 t.laneGood ++ leBytes 1 b16 ++ leBytes 1 b17 ++ leBytes 16 (prbs7 128 127)
  leBytes 4 0x9B3E61C5 ++ body ++ leBytes 2 (crc16 body)

/-- FC with its stop bits (03 R85). -/
def fcSet (stop seq : Nat) : List Sym :=
  orderedSet symFc (leBytes 3 (stop % 2 ^ 20) ++ List.replicate 9 symFill ++ leBytes 1 seq)

/-! ## Widths (03 R97) -/

/-- Whether every lane of a width code is good in a mask. -/
def groupGood (mask code : Nat) : Bool := (activeLanes code).all (bit mask)

/-- The widest width up to `w` with a group whose lanes are all good in the mask; its lowest group. -/
def widestGroup (mask : Nat) : Nat → Option Nat
  | 0 => ((List.range 8).map (fun g => 4 * g)).find? (groupGood mask)
  | w + 1 =>
    match ((List.range (8 / 2 ^ (w + 1))).map (fun g => 4 * g + (w + 1))).find? (groupGood mask) with
    | some c => some c
    | none => widestGroup mask w

/-- The width the leader agrees (03 R97, R98): no more than its MAX_WIDTH and what the follower sends, its MAX_WIDTH or, adopted, its
request; no more than the leader's own request when it has one raised; and above T0 without a retest no more than the present
width, since a port widens only by a retest (R94). -/
def Port.agreeWidth (x : Port) : Option Nat :=
  let t := x.train
  let both := min x.maxWidth (bits t.peer.width 1 0)
  let asked := if t.req then min both x.wantWidth else both
  let keeps := (t.state == .step || t.state == .retrain) && !t.retest
  widestGroup (t.laneGood &&& t.peer.laneGood) (if keeps then min asked (bits t.width 1 0) else asked)

/-! ## Transitions (03 R80) -/

/-- A lane is quarantined (18 R535): a retest does not restore it. -/
def Dev.laneQuarantined (d : Dev) (p l : Nat) : Bool := bit d.quarantine.lanes (9 * p + l)

/-- Lane settings at DETECT and at each tier step: both 0 (03 R88). -/
def Train.clearSlips (t : Train) : Train :=
  { t with lanes := (List.range 8).map (fun l => (l, { t.lane l with bitSlip := 0, wordDelay := 0, found := none })) }

/-- Every lane that is not quarantined is taken as good, to be tested (03 R96). -/
def Dev.retestLanes (d : Dev) (p : Nat) : Dev :=
  d.modTrain p (fun t =>
    (List.range 8).foldl (fun t l => t.modLane l (fun x => { x with good := !d.laneQuarantined p l })) t)

/-- The part of a training that begins anew in every state. -/
def Train.fresh (t : Train) (st : PState) (now : Nat) : Train :=
  { t with state := st, since := now, alignedRun := 0, aligned := false, phased := false, countdown := none,
           checkFails := 0, leaving := [], wakeRun := 0, beaconEnd := none, rxAsleep := false, txAsleep := false,
           lanes := t.lanes.map (fun l => (l.1, { l.2 with found := none })) }

/-- The port leaves its state: from UP the link is left with its causes, from LIMP its packets are chosen
again. -/
def Dev.leaveState (d : Dev) (p causes : Nat) (f : Train → Train) : Dev :=
  match (d.port p).train.state with
  | .up => (d.modTrain p f).leaveUp p causes
  | .limp => (d.modTrain p f).prune p
  | _ => d.modTrain p f

/-- A CLOCK_SWITCH has completed for a region (03 R79, 14 R456): its Belfry runs, and no CLOCK_SWITCH that started it still executes. -/
def Warden.switched (w : Warden) (r : Nat) : Bool :=
  w.done && bit w.belfry r && !w.executing.any (fun x => x.opcode == 0x0E20 && bit x.b (4 + r))

/-- Whether a port may leave DISABLED: CLOCK_SWITCH has completed for its region, the region is not in reset,
and its Belfry input cell is not quarantined (03 R79, 14 R456, 15 R484, 18 R535). -/
def Dev.mayTrain (d : Dev) (p : Nat) : Bool :=
  d.warden.switched (p / 32) && (d.region (p / 32)).state != .resetting &&
    !bit d.quarantine.inputs (64 * (p / 32) + p % 32)

/-- Entry to DETECT (03 R80, R88, R106). -/
def Dev.toDetect (d : Dev) (p causes : Nat) : Dev :=
  let now := d.belfryNow (p / 32)
  let d := d.leaveState p causes (fun t =>
    { (t.clearSlips).fresh .detect now with tier := 0, peerValid := false, selfLoop := false, req := false, retest := false })
  let d := d.retestLanes p
  (d.count (Ctr.trainAttempts p)).emit (.ckOut p 1)

/-- Entry to DISABLED, and the link is closed when ENABLE is 0 or the region resets; a quarantined input cell leaves it HELD
for its window (03 R80, 04 R124, R125). DESIGN CHOICE: the cause is the retrain request (log entry 41). -/
def Dev.toDisabled (d : Dev) (p : Nat) (close : Bool) : Dev :=
  let now := d.belfryNow (p / 32)
  let d := d.leaveState p causeRequest (fun t => { t.fresh .disabled now with tier := 0 })
  (if close then d.closeLink p false else d).emit (.ckOut p 0)

/-- Entry to BACKOFF. `limp`: both ends go there because LIMP_EN is 0 at one (03 R103). -/
def Dev.toBackoff (d : Dev) (p : Nat) (limp : Bool) : Dev :=
  let now := d.belfryNow (p / 32)
  let d := d.leaveState p causeRequest (fun t => { t.fresh .backoff now with limpBackoff := limp })
  d.emit (.ckOut p 0)

/-- One failure of a tier; two in a row exclude it and every tier above, and so does one in a limp retry, which returns
the port to LIMP (03 R81, R104, R106). -/
def Dev.tierFail (d : Dev) (p tier : Nat) : Dev :=
  let t := (d.port p).train
  let n := tgetD t.fails tier 0 + 1
  let d := (d.count (Ctr.tierFails p)).modTrain p (fun t => { t with fails := tput t.fails tier n, limpTry := false })
  if (2 ≤ n ∨ t.limpTry) ∧ 1 ≤ tier then
    d.modTrain p (fun t => { t with
      excluded := (List.range 3).foldl (fun m k => if tier ≤ k + 1 then putBit m k true else m) t.excluded })
  else d

/-- A write of RETRAIN or ENABLE clears every exclusion, and the count of failures begins anew (03 R81). -/
def Dev.clearExclusions (d : Dev) (p : Nat) : Dev :=
  let now := d.belfryNow (p / 32)
  d.modTrain p (fun t => { t with excluded := 0, fails := [], exclCleared := now })

/-- The exclusions are lifted for one attempt: a further failure of the tier that led to T0 is consecutive to those before it
(03 R103, R104). -/
def Dev.liftExclusions (d : Dev) (p : Nat) : Dev :=
  let now := d.belfryNow (p / 32)
  d.modTrain p (fun t => { t with excluded := 0, exclCleared := now })

/-- A step to a tier begins; the tier it comes from has passed (03 R80, R81, R88, R93). -/
def Dev.toStep (d : Dev) (p tier width : Nat) : Dev :=
  let now := d.belfryNow (p / 32)
  d.leaveState p causeRequest (fun t =>
    { (t.clearSlips).fresh .step now with tier := tier, width := width, fails := tdrop t.fails t.tier })

/-- Symbols sent on one lane at T0, in its running disparity (03 R83). -/
def Dev.sendT0 (d : Dev) (p lane : Nat) (syms : List Sym) : Dev :=
  let r := encodeSyms (bit (d.port p).train.txRd lane) syms
  (d.emit (.t0 p lane r.1)).modTrain p (fun t => { t with txRd := putBit t.txRd lane r.2 })

/-- A TS1 or TS2 on each of the eight data lanes, and the next SEQ or count (03 R84, R92). DESIGN CHOICE: TS2 sets go out on all eight
lanes too, also from an end that knows the agreed width; the spec does not say which lanes are active between the agreement and
the countdown's end (log entry 17). -/
def Dev.sendTraining (d : Dev) (p : Nat) : Dev :=
  let x := d.port p
  let d := forEach (List.range 8) (fun l d => d.sendT0 p l (x.trainingSet p l)) d
  d.modTrain p (fun t => { t with seq := if t.countdown.isSome then t.seq else (t.seq + 1) % 256 })

/-- Time that `n` symbols take at T0, ns (03 R76). -/
def symTime (n : Nat) : Nat := 4 * n

/-- The lanes of a port in LIMP are taken for `n` more symbols. -/
def Dev.takeLanes (d : Dev) (p n : Nat) : Dev :=
  let now := d.belfryNow (p / 32)
  d.modTrain p (fun t => { t with busyUntil := max t.busyUntil now + symTime n })

/-- What lane n of W active lanes carries of a T0 frame: SFF, its share of the 136 bytes, EFF (03 R103). -/
def frameShare (w : Nat) (bytes : List Byte) (n : Nat) : List Sym :=
  [.k 0xFB] ++ ((List.range (136 / w)).map (fun i => Sym.d (bytes.getD (w * i + n) 0))) ++ [.k 0xFD]

/-- The 136 bytes of header, flit and CRC of a T0 frame (03 R103). -/
def frameBytes (vc : Nat) (f : Flit) : List Byte :=
  let b := leBytes 4 vc ++ sliceBytes f 0 128
  b ++ leBytes 4 (crc32 b)

/-- A T0 frame leaves on the active lanes (03 R103). -/
def Dev.sendFrame (d : Dev) (p vc : Nat) (f : Flit) : Dev :=
  let code := (d.port p).train.width
  let w := widthLanes code
  let d := forEach (List.range w) (fun n d => d.sendT0 p (widthFirst code + n) (frameShare w (frameBytes vc f) n)) d
  d.takeLanes p (2 + 136 / w)

/-- One training word on each lane of a list, and the next WORD_CNT (03 R86). -/
def Dev.sendWord (d : Dev) (p : Nat) (lanes : List Nat) (sleep wake : Bool) : Dev :=
  let x := d.port p
  let d := forEach lanes (fun l d => d.emit (.lane p l (lineBytes x.train.tier (x.trainingWord p l x.train.seq sleep wake)))) d
  d.modTrain p (fun t => { t with seq := (t.seq + 1) % 256 })

/-- `n` training words in a row on each active lane. -/
def Dev.sendWords (d : Dev) (p : Nat) (sleep wake : Bool) : Nat → Dev
  | 0 => d
  | n + 1 => (d.sendWord p (activeLanes (d.port p).train.width) sleep wake).sendWords p sleep wake n

/-- A sleeping direction wakes: CK at full rate and `n` WAKE words on every active lane (03 R101, R102). -/
def Dev.wakeTx (d : Dev) (p n : Nat) : Dev :=
  let d := (d.emit (.ckOut p 1)).sendWords p false true n
  let now := d.belfryNow (p / 32)
  d.modTrain p (fun t => { t with txAsleep := false, idleSince := now })

/-- A RETRAIN begins (03 R94, R96, R102): a sleeping direction wakes first. `retest`: every lane is tested
again. -/
def Dev.toRetrain (d : Dev) (p causes : Nat) (retest : Bool) : Dev :=
  let d := if (d.port p).train.txAsleep then d.wakeTx p 16 else d
  let now := d.belfryNow (p / 32)
  let d := d.leaveState p causes (fun t => { t.fresh .retrain now with phased := !retest, retest := retest })
  if retest then d.retestLanes p else d

/-- A request is raised: it starts RETRAIN in UP, and waits until UP otherwise (03 R96, R98). -/
def Dev.request (d : Dev) (p : Nat) : Dev :=
  if (d.port p).train.state = .up then
    (d.modTrain p (fun t => { t with req := true })).toRetrain p causeRequest false
  else d.modTrain p (fun t => { t with reqLater := true })

/-- A lane fails: it is not good, and one in the active group raises a width request, which waits until UP while a training
runs (03 R96, R98). -/
def Dev.laneFail (d : Dev) (p l : Nat) : Dev :=
  let active := (activeLanes (d.port p).train.width).contains l
  let d := d.modTrain p (fun t => t.modLane l (fun x => { x with good := false, found := none }))
  if active then d.request p else d

/-- The lane error windows of 1 ms run back to back from UP; one whose end has come is judged, and the window that the tick lies in
begins (03 R96, 00 R14). -/
def Dev.laneErrorWindow (d : Dev) (p : Nat) : Dev :=
  let x := d.port p
  let t := x.train
  let past := (d.belfryNow (p / 32) - t.errStart) / 1000000
  if t.state != .up || past == 0 then d else
  let worn := (List.range 8).filter (fun l => decide (x.laneErrLimit < (t.lane l).corrected))
  let d := d.modTrain p (fun t =>
    { t with errStart := t.errStart + 1000000 * past, lanes := (List.range 8).map (fun l => (l, { t.lane l with corrected := 0 })) })
  forEach worn (fun l d => d.laneFail p l) d

/-- A request that waits still applies at UP (03 R98): a failed lane in the agreed group, or a width that a write of RETRAIN
asked for and the port does not have. A RETRAIN that ends in UP meets what Tollkeeper demanded. -/
def Train.laneRequest (t : Train) (width : Nat) : Bool := t.reqLater && (activeLanes width).any (fun l => !(t.lane l).good)
def Train.widthRequest (t : Train) (width : Nat) : Bool :=
  t.reqLater && (match t.reqWidth with
    | some w => w != bits width 1 0
    | none => false)

/-- Entry to UP (03 R80, R96, R98, R106, 18 R545): the width is compared with the previous one, the lane error
windows begin, Tollkeeper resumes, and a request that still applies is raised again. -/
def Dev.toUp (d : Dev) (p tier width : Nat) (far : Bool) : Dev :=
  let r := p / 32
  let now := d.belfryNow r
  let t := (d.port p).train
  let changed := match t.prevWidth with
    | some w => bits w 1 0 != bits width 1 0
    | none => false
  let d := if changed then (d.count (Ctr.widthChanges p)).raise (Isl.belfry r) (Src.port p 2) width 0 else d
  let d := d.modTrain p (fun t =>
    { t.fresh .up now with tier := tier, width := width, far := far, prevWidth := some width, errStart := now,
                           idleSince := now, req := false, reqLater := false, retest := false, limpTry := false,
                           reqWidth := if t.widthRequest width then t.reqWidth else none,
                           fails := tdrop t.fails tier,
                           lanes := (List.range 8).map (fun l => (l, { t.lane l with corrected := 0 })) })
  let d := (d.raise (Isl.belfry r) (Src.port p 1) width tier).tollUp p
  if t.widthRequest width then (d.modTrain p (fun t => { t with req := true })).toRetrain p causeRequest true
  else if t.laneRequest width then d.request p
  else d

/-- Entry to LIMP (03 R103): the agreed width holds; Pilot of the region may use the port for management. DESIGN CHOICE: all 20 VCs
count as stopped until the first FC set is accepted; R122 says so of RESUME, and the spec says nothing of LIMP (log entry 17). -/
def Dev.toLimp (d : Dev) (p width : Nat) : Dev :=
  let r := p / 32
  let now := d.belfryNow r
  let d := d.modTrain p (fun t =>
    { t.fresh .limp now with tier := 0, width := width, fcAt := now, fcStop := 0, busyUntil := now, limpTry := false })
  let d := d.modToll p (fun t => { t with stopAll := false, peerStop := 0xFFFFF })
  (d.raise (Isl.belfry r) (Src.port p 4) 0 0).setLive r p

/-! ## Breaks (04) -/

/-- The link of a port in UP is broken (04 R119 to R121, R116): RETRAIN. A further cause in the tick of a break is recorded
with it (04 R129). -/
def Dev.breakLink (d : Dev) (p causes : Nat) : Dev :=
  if (d.port p).train.state = .up then d.toRetrain p causes false
  else if (d.port p).toll.breakAt = some (d.belfryNow (p / 32)) then
    d.modToll p (fun t => { t with breakCause := t.breakCause ||| causes })
  else d

/-- What a direction owes (03 R99): an acknowledgement, a NAK, a credit return, a change of a stop bit. -/
def Port.owes (x : Port) : Bool :=
  x.toll.told != (x.toll.rxExpect, (x.toll.unfreed + 1024) % 4096, x.stopSent) ||
    x.toll.missing.any (fun m => m.sent.isNone)

/-- A direction needs to send (03 R99, R101). -/
def Port.needsSend (x : Port) : Bool :=
  x.owes || !x.egress.isEmpty || !x.toll.handed.isEmpty || !x.toll.due.isEmpty

/-- A transmit direction goes to sleep (03 R100, R106): 4 sleep words, electrical idle, the CK beacon. -/
def Dev.sleepTx (d : Dev) (p : Nat) : Dev :=
  let d := d.sendWords p true false 4
  let now := d.belfryNow (p / 32)
  ((d.emit (.ckOut p 2)).count (Ctr.sleepEntries p)).modTrain p (fun t => { t with txAsleep := true, txSince := now })

/-- A training or countdown runs (03 R98). -/
def PState.training (s : PState) : Bool :=
  s == .detect || s == .t0Align || s == .t0Config || s == .step || s == .retrain

/-! ## What a transmitter sends as time passes (03 R80, R84, R86, R92, R93, R104) -/

/-- A transmit slot of a training state in ps: an ordered set of 16 symbols, or a training word (03 R76). -/
def slotPs (tier : Nat) : Nat := if tier = 0 then 64000 else if tier = 1 then 5120 else if tier = 2 then 2560 else 1280

/-- The time a state's transmitter has sent for: at a step the transmit and CK paths relock for 5 µs first (03 R93). -/
def Train.sending (t : Train) (now : Nat) : Nat := if t.state == .step then now - (t.since + 5000) else now - t.since

/-- Slots that begin in the ns that ends now. -/
def Train.slotsNow (t : Train) (now : Nat) : Nat :=
  let p := slotPs t.tier
  let upTo (ns : Nat) : Nat := (1000 * ns + p - 1) / p
  upTo (t.sending now) - upTo (t.sending (now - 1))

/-- One slot of a training state: the countdown that runs goes on, and ends once its 0 has been sent (03 R92, R93). -/
def Dev.sendSlot (d : Dev) (p : Nat) : Dev :=
  let t := (d.port p).train
  let own := t.state == .t0Config || t.leader
  match t.countdown with
  | some c =>
    if own && c.left == 0 then d.modTrain p (fun t => { t with countdown := some { c with ended := true } })
    else
      let d := if t.tier = 0 then d.sendTraining p
        else d.sendWord p t.trainLanes false false
      if own then d.modTrain p (fun t => { t with countdown := some { c with left := c.left - 1 } }) else d
  | none =>
    if t.tier = 0 then d.sendTraining p
    else d.sendWord p t.trainLanes false false

def Dev.sendSlots (d : Dev) (p : Nat) : Nat → Dev
  | 0 => d
  | n + 1 => (d.sendSlot p).sendSlots p n

/-- IDLE on the active lanes of a port in LIMP whose lanes carry nothing else (03 R85, R104). -/
def Dev.sendIdle (d : Dev) (p : Nat) : Dev :=
  if d.belfryNow (p / 32) < (d.port p).train.busyUntil then d else
  (forEach (activeLanes (d.port p).train.width) (fun l d => d.sendT0 p l idleSet) d).takeLanes p 16

/-- What the transmitter of a port sends by itself in one ns. -/
def Dev.tickPort (d : Dev) (p : Nat) : Dev :=
  let t := (d.port p).train
  if t.state.training then d.sendSlots p (t.slotsNow (d.belfryNow (p / 32)))
  else if t.state == .limp then d.sendIdle p
  else d

/-! ## PORT_CTRL.ENABLE and RETRAIN (03 R79 to R81, R94) -/

/-- ENABLE becomes 1 or 0. A port that may not train yet waits in DISABLED. -/
def Dev.portEnable (d : Dev) (p : Nat) (on : Bool) : Dev :=
  let was := (d.port p).enable
  let d := d.modPort p (fun x => { x with ctrl := BitVec.ofNat 64 (putBit x.ctrl.toNat 0 on) })
  if was == on then d
  else if on then
    let d := d.clearExclusions p
    if d.mayTrain p then d.toDetect p causeRequest else d
  else d.toDisabled p true

/-- RETRAIN written 1 (03 R81, R94): a request for MAX_WIDTH, which waits until UP while a training runs (R98). -/
def Dev.portRetrain (d : Dev) (p : Nat) : Dev :=
  let d := d.clearExclusions p
  let x := d.port p
  if x.train.state = .up then
    (d.modTrain p (fun t => { t with req := true, reqWidth := some x.maxWidth })).toRetrain p causeRequest true
  else if x.train.state.training then d.modTrain p (fun t => { t with reqLater := true, reqWidth := some x.maxWidth })
  else d

/-- Ports whose ENABLE is 1 and that wait in DISABLED leave it, in a region whose clocks have started (03 R79,
14 R456). -/
def Dev.startPorts (d : Dev) (r : Nat) : Dev :=
  forEach (portsOf r) (fun p d =>
    if (d.port p).enable && (d.port p).train.state == .disabled && d.mayTrain p then d.toDetect p causeRequest
    else d) d

end Sys2Proof.Machine
end

