-- ==== Sys2Proof/Machine/Link.lean ====
section
/-! DEFINITION. The commands of the link layer (04): a unit received, a unit sent, and the link timers. -/

namespace Sys2Proof.Machine

/-- The Belfry island of a port's region runs. -/
def Dev.portRuns (d : Dev) (p : Nat) : Bool := d.belfryRuns (p / 32)

/-- The receive half of a port runs: in P2 as well (16 R491, R492). -/
def Dev.rxRuns (d : Dev) (p : Nat) : Bool := bit d.warden.belfry (p / 32)

/-! ## Receiving (04 R114) -/

/-- Corrected symbols are counted against their lanes (04 R111, 03 R96). -/
def Dev.countCorrected (d : Dev) (p : Nat) (c : Nat) (es : List (Nat × Nat)) : Dev :=
  let w := (d.port p).train.width
  forEach es (fun e d =>
    let l := widthFirst w + laneOfByte (widthLanes w) (wireOf c e.1)
    (d.count (Ctr.laneCorrected p l)).modTrain p (fun t =>
      t.modLane l (fun x => { x with corrected := x.corrected + 1 }))) d

/-- The wire bytes with the errors of one codeword corrected. -/
def correct (wire : List Byte) (c : Nat) (es : List (Nat × Nat)) : List Byte :=
  es.foldl (fun w e =>
    let i := wireOf c e.1
    w.set i (BitVec.ofNat 8 (byteAt w i ^^^ e.2))) wire

/-- A resend of a unit becomes due, by a NAK or by its timeout (04 R118, R119). `ctr` is what counts it. DESIGN CHOICE: a NAK that
would need a ninth resend counts in RETRY_LIMIT_BREAKS alone, since it is not acted on (log entry 19). -/
def Dev.dueResend (d : Dev) (p seq ctr : Nat) : Dev :=
  let t := (d.port p).toll
  match t.replay.find? (fun u => u.seq == seq) with
  | none => d
  | some u =>
    if t.due.contains seq then d.count ctr
    else if u.mayResend then (d.count ctr).modToll p (fun t => { t with due := t.due ++ [seq] })
    else d.breakLink p causeRetry

/-- The ACK of a peer speaks of this end's units: the link is OPEN, or both ends KEEP (04 R126). -/
def Toll.ackCounts (t : Toll) : Bool := t.state == .opened || (t.rs == 1 && t.peerRs == 1)

/-- Step 4 of R114 (04 R118, R120, R122, R123): ACK frees replay, CREDIT_LIMIT, STOP and the hint are taken, and
a NAK makes its unit due or is stale. -/
def Dev.applyControl (d : Dev) (p : Nat) (c : Control) : Dev :=
  let d := d.modToll p (fun t =>
    let kept := if t.ackCounts then t.replay.filter (fun u => seqIn u.seq c.ack (seqDist c.ack t.nextSeq)) else t.replay
    { t with peerAck := c.ack, creditLimit := c.credit, peerStop := c.stop, stopAll := false, replay := kept,
             due := t.due.filter (fun s => kept.any (fun u => u.seq == s)) })
  let d := d.modPort p (fun x => { x with hints := tput x.hints c.hintBlock c.hintLevel })
  if !c.nakValid then d else
  let t := (d.port p).toll
  if t.ackCounts && seqIn c.nakSeq t.peerAck (seqDist t.peerAck t.nextSeq) then d.dueResend p c.nakSeq (Ctr.naksReceived p)
  else d.count (Ctr.staleNaks p)

/-- RX_EXPECT advanced past every consecutive stored number (04 R116). -/
def advance (held : List (Nat × List (Nat × Flit))) : Nat → Nat → Nat
  | 0, s => s
  | n + 1, s => if held.any (fun u => u.1 == s) then advance held n ((s + 1) % 4096) else s

/-- A flit released to the Belfry crossing, in the VC's packet stream (04 R116, 05 R133); `last`: it ends its unit. -/
def Dev.releaseFlit (d : Dev) (p : Nat) (last : Bool) (vc : Nat) (f : Flit) : Dev :=
  let d := d.emit (.rxFlit p vc f)
  d.modToll p (fun t =>
    let (left, seen) := tgetD t.rxLeft vc (flitsOf (bits (leNat (f.take 8)) 62 50), 0)
    { t with crossing := t.crossing ++ [.flit last],
             rxLeft := if left ≤ 1 then tdrop t.rxLeft vc else tput t.rxLeft vc (left - 1, seen + 1) })

/-- The sequence number of the next unit to release: those released and not yet freed lie before it. -/
def Toll.nextRelease (t : Toll) : Nat :=
  (t.unfreed + (t.crossing.filter (fun c => c == .flit true)).length) % 4096

/-- The flits of a unit are released, flit 0 before flit 1. -/
def Dev.releaseFlits (d : Dev) (p : Nat) : List (Nat × Flit) → Dev
  | [] => d
  | f :: fs => (d.releaseFlit p fs.isEmpty f.1 f.2).releaseFlits p fs

/-- Stored units are released strictly in sequence (04 R116); a slot is freed when both flits are registered in Belfry
(FLIT_STORE). In P2 they stay stored (16 R492). -/
def Dev.releaseUnits : Nat → Dev → Nat → Dev
  | 0, d, _ => d
  | n + 1, d, p =>
    let t := (d.port p).toll
    if t.nextRelease = t.rxExpect then d else
    match t.reorder.find? (fun u => u.1 == t.nextRelease) with
    | none => d
    | some u =>
      let d := d.releaseFlits p u.2
      let d := d.modToll p (fun t => { t with reorder := t.reorder.filter (fun v => v.1 != u.1) })
      Dev.releaseUnits n d p

def Dev.releaseStored (d : Dev) (p : Nat) : Dev := if d.gated then d else Dev.releaseUnits 1024 d p

/-- The numbers a unit with SEQ s shows to be missing (04 R117): each is listed once, in ascending order. -/
def Dev.findGaps (d : Dev) (p s : Nat) : Dev :=
  d.modToll p (fun t =>
    let gap := seqDist t.rxExpect s
    let ms := t.missing.filter (fun m => seqIn m.seq t.rxExpect 1024 && !t.reorder.any (fun u => u.1 == m.seq))
    if 1024 < gap then { t with missing := ms } else
    let new := ((List.range gap).map (fun i => (t.rxExpect + i) % 4096)).filter (fun s =>
      !t.reorder.any (fun u => u.1 == s) && !ms.any (fun m => m.seq == s))
    { t with missing := ms ++ new.map (fun s => ⟨s, none⟩) })

/-- A breach of R112 or R116. -/
def Dev.protocolError (d : Dev) (p : Nat) : Dev := (d.count (Ctr.protocolErrors p)).breakLink p causeProtocol

/-- A good DATA unit of a port whose transmit direction sleeps is a wake in P2 (16 R497). -/
def Dev.linkWake (d : Dev) (p : Nat) : Dev := if (d.port p).train.txAsleep then d.wake 4 p else d

/-- Step 5 of R114 for a DATA unit (04 R116). A duplicate has been accepted good as well: the resend of a unit whose wake was lost
is the wake (16 R497). -/
def Dev.takeData (d : Dev) (p : Nat) (c : Control) (flits : List (Nat × Flit)) : Dev :=
  let t := (d.port p).toll
  let ahead := seqDist t.rxExpect c.seq
  if 3072 ≤ ahead ∨ t.reorder.any (fun u => u.1 == c.seq) then (d.count (Ctr.duplicates p)).linkWake p
  else if ahead < 1024 then
    let d := d.modToll p (fun t =>
      let held := t.reorder ++ [(c.seq, flits)]
      { t with reorder := held, rxExpect := advance held 1024 t.rxExpect })
    let d := d.releaseStored p
    (d.findGaps p c.seq).linkWake p
  else d.protocolError p

/-- A unit that breaks R112: F1_VALID without F0_VALID, or a VC that does not exist. -/
def Control.breach (c : Control) (flits : List (Nat × Flit)) : Bool :=
  c.f1Valid && !c.f0Valid || flits.any (fun f => decide (20 ≤ f.1))

/-- Step 5 of R114 has receive state to act on: the link is OPEN; or it resumes with KEEP at both ends, so that the peer's numbers
go on; or a break at step 4 has just left it HELD (04 R124, R126). With FRESH at either end the numbers begin anew at OPEN. -/
def Toll.takesSeq (t : Toll) : Bool :=
  match t.state with
  | .opened | .held => true
  | .resume => t.rs == 1 && t.peerRs == 1
  | .closed => false

/-- Steps 4 and 5 of R114 of a good unit. A break at step 4 holds the link state (04 R124), and step 5 still takes the unit's SEQ and
flits into it; a breach there joins the break of the tick (04 R129). -/
def Dev.takeUnit (d : Dev) (p : Nat) (c : Control) (flits : List (Nat × Flit)) : Dev :=
  let d := d.applyControl p c
  if c.breach flits then d.protocolError p
  else if !(d.port p).toll.takesSeq then d
  else
    let d := if c.f0Valid then d.takeData p c flits else d.findGaps p c.seq
    d.starve p

/-- A good unit (04 R114, R126). In RESUME its RS is taken first, and a unit that opens the link goes on with
step 4. -/
def Dev.goodUnit (d : Dev) (p : Nat) (c : Control) (flits : List (Nat × Flit)) : Dev :=
  match (d.port p).toll.state with
  | .opened => d.takeUnit p c flits
  | .resume =>
    let d := d.modToll p (fun t => { t with peerRs := if c.rs = 0 then t.peerRs else c.rs })
    (if c.rs ≠ 0 ∧ c.rsSeen then d.enterOpen p c.ack else d).takeUnit p c flits
  | _ => d

/-- One unit of the wire (04 R114), unless an earlier one of its block has taken the port out of UP. -/
def Dev.unitReceived (d : Dev) (p : Nat) (wire : List Byte) : Dev :=
  if (d.port p).train.state != .up then d else
  let e0 := rsErrors (codeword wire 0)
  let e1 := rsErrors (codeword wire 1)
  let d := (d.countCorrected p 0 (e0.getD [])).countCorrected p 1 (e1.getD [])
  match e0, e1 with
  | some e0, some e1 =>
    let data := (correct (correct wire 0 e0) 1 e1).take 272
    if crc32 (data.take 268) ≠ field data 268 4 then d.count (Ctr.crcFails p) else
    let c := Control.ofNat (field data 256 12)
    let f0 := if c.f0Valid then [(c.f0Vc, sliceBytes data 0 128)] else []
    let f1 := if c.f1Valid then [(c.f1Vc, sliceBytes data 128 128)] else []
    d.goodUnit p c (f0 ++ f1)
  | _, _ => (d.count (Ctr.fecUncorrectable p)).count (Ctr.crcFails p)

/-- The slots of a far-mode block with one more: once all 8 are registered its units are decoded, in order (04 R110). -/
def Dev.slotFar (d : Dev) (p : Nat) (slot : List (List Byte)) : Dev :=
  let slots := (d.port p).toll.rxBlock ++ [slot]
  if slots.length < 8 then d.modToll p (fun t => { t with rxBlock := slots })
  else
    let w := widthLanes (d.port p).train.width
    forEach (List.range 8) (fun k d => d.unitReceived p (unitOfBlock w slots k)) (d.modToll p (fun t => { t with rxBlock := [] }))

/-- LINK_UNIT_RECEIVED (04 R109, R110, R114): the bytes that each active lane carried in one wire slot, in ascending order. What is
corrected at or after the end of a lane error window counts in the next one (00 R14). -/
def Dev.linkUnitReceived (d : Dev) (p : Nat) (slot : List (List Byte)) : Dev :=
  let d := if d.gated then d else d.laneErrorWindow p
  let t := (d.port p).train
  if t.state != .up || t.rxAsleep then d else
  let now := d.belfryNow (p / 32)
  let d := d.modTrain p (fun t => { t with leaving := [], wakeRun := 0, ckAt := max t.ckAt now })
  if t.far then d.slotFar p slot else d.unitReceived p (unitOfSlot (widthLanes t.width) slot)

def execLinkUnitReceived (p : Fin 128) (slot : List (List Byte)) (s : State) : Host.Outcome State Fault Refusal :=
  actIf (fun d => d.rxRuns p.val) (fun d => d.linkUnitReceived p.val slot) s

/-! ## Sending (04 R115) -/

/-- The depth band of a port block (04 R123). -/
def Dev.hintLevel (d : Dev) (b : Nat) : Nat :=
  min 15 ((List.range 4).foldl (fun m k => max m (d.port (4 * b + k)).egressBytes) 0 / 32768)

/-- The NAK a unit carries: the lowest missing number whose NAK is due (04 R117). -/
def Toll.nakToSend (t : Toll) : Option Nat :=
  (minBy (fun m => seqDist t.rxExpect m.seq) (t.missing.filter (fun m => m.sent.isNone))).map (fun m => m.seq)

/-- The lanes of a port send one wire slot (04 R109, R110). -/
def Dev.sendSlotBytes (d : Dev) (p : Nat) (lane : Nat → List Byte) : Dev :=
  let t := (d.port p).train
  forEach (List.range (widthLanes t.width)) (fun n d => d.emit (.lane p (widthFirst t.width + n) (lineBytes t.tier (lane n)))) d

/-- The wire bytes of a unit go out: in near mode as one slot; in far mode with the units of its block, once it is the eighth, in
8 slots (04 R110). -/
def Dev.sendWire (d : Dev) (p : Nat) (wire : List Byte) : Dev :=
  let x := d.port p
  let w := widthLanes x.train.width
  if !x.train.far then d.sendSlotBytes p (laneBytes w wire) else
  let block := x.toll.txBlock ++ [wire]
  if block.length < 8 then d.modToll p (fun t => { t with txBlock := block })
  else forEach (List.range 8) (fun s d => d.sendSlotBytes p (farLaneBytes w s block)) (d.modToll p (fun t => { t with txBlock := [] }))

/-- A unit leaves (04 R112, R117, R122, R123, R126): its flits and the current value of every other field. -/
def Dev.sendUnit (d : Dev) (p : Nat) (resent : Bool) (seq : Nat) (flits : List (Nat × Flit)) : Dev :=
  let x := d.port p
  let t := x.toll
  let r := p / 32
  let nak := t.nakToSend
  let f0 := flits.getD 0 (0, zeros 128)
  let f1 := flits.getD 1 (0, zeros 128)
  let credit := (t.unfreed + 1024) % 4096
  let data := !flits.isEmpty
  let c : Control :=
    { resent := resent, seq := seq, ack := t.rxExpect, credit := credit, nakSeq := nak.getD 0, nakValid := nak.isSome,
      rs := t.rs, rsSeen := t.peerRs != 0, stop := x.stopSent, f0Vc := f0.1, f0Valid := data, f1Vc := f1.1,
      f1Valid := decide (1 < flits.length), hintBlock := t.hintBlock, hintLevel := d.hintLevel t.hintBlock }
  let now := d.clk (Isl.rx p)
  let d := d.sendWire p (buildUnit c f0.2 f1.2)
  let d := if nak.isSome then d.count (Ctr.naksSent p) else d
  let d := d.count (if data then Ctr.luSentData p else Ctr.luSentIdle p)
  let ms := modWhere (fun m => some m.seq == nak) (fun m => { m with sent := some now }) t.missing
  let d := d.modToll p (fun t =>
    { t with hintBlock := (t.hintBlock + 1) % 32, dataRun := if data then t.dataRun + 1 else 0, missing := ms,
             told := (t.rxExpect, credit, x.stopSent) })
  if data then
    let now := d.belfryNow r
    d.modTrain p (fun t => { t with idleSince := now })
  else d

/-- A block of far mode that is being formed is completed with IDLE units, so that its transmitter is at a block boundary
(04 R129). -/
def Dev.finishBlock (d : Dev) (p : Nat) : Nat → Dev
  | 0 => d
  | n + 1 =>
    let t := (d.port p).toll
    if t.txBlock.isEmpty then d else (d.sendUnit p false t.nextSeq []).finishBlock p n

/-- Whether credit lets a new DATA unit go (04 R120). -/
def Toll.hasCredit (t : Toll) : Bool := seqIn t.nextSeq t.peerAck (seqDist t.peerAck t.creditLimit)

/-- The lowest due resend (04 R118). -/
def Toll.nextDue (t : Toll) : Option Replay :=
  match minBy (fun s => seqDist t.peerAck s) t.due with
  | none => none
  | some s => t.replay.find? (fun u => u.seq == s)

/-- LINK_UNIT_SEND (04 R115): the unit of one wire slot. After 4,095 DATA units an IDLE unit goes. -/
def Dev.linkUnitSend (d : Dev) (p : Nat) : Dev :=
  let x := d.port p
  let t := x.toll
  if x.train.state != .up || x.train.txAsleep then d else
  let now := d.belfryNow (p / 32)
  let may := t.state == .opened && decide (t.dataRun < 4095)
  let d := match if may then t.nextDue else none with
    | some u =>
      let d := (d.count (Ctr.resends p)).modToll p (fun t =>
        { t with due := t.due.filter (· != u.seq),
                 replay := modWhere (fun v => v.seq == u.seq)
                   (fun v => { v with resends := v.resends + 1, sentAt := now }) t.replay })
      d.sendUnit p true u.seq u.flits
    | none =>
      if may && t.hasCredit && !t.handed.isEmpty then
        let fs := t.handed.take 2
        let d := d.modToll p (fun t =>
          { t with handed := t.handed.drop 2, replay := t.replay ++ [(⟨t.nextSeq, fs, 0, now⟩ : Replay)],
                   nextSeq := (t.nextSeq + 1) % 4096 })
        d.sendUnit p false t.nextSeq fs
      else d.sendUnit p false t.nextSeq []
  d.starve p

def execLinkUnitSend (p : Fin 128) (s : State) : Host.Outcome State Fault Refusal :=
  actIf (fun d => d.portRuns p.val) (fun d => d.linkUnitSend p.val) s

/-! ## Timers -/

/-- RESEND_TIMEOUT (04 R118): the oldest unit in replay, since it was last sent. -/
def Dev.resendTimeout (d : Dev) (p : Nat) : Dev :=
  let x := d.port p
  match x.timedUnit with
  | none => d
  | some u =>
    if x.toll.state == .opened && decide (u.sentAt + x.resendTimeout ≤ d.belfryNow (p / 32)) then
      d.dueResend p u.seq (Ctr.resendTimeouts p)
    else d

def execResendTimeout (p : Fin 128) (s : State) : Host.Outcome State Fault Refusal :=
  actIf (fun d => d.portRuns p.val) (fun d => d.resendTimeout p.val) s

/-- NAK_REPEAT (04 R117): a number still missing RESEND_TIMEOUT after its last NAK has its NAK sent again. -/
def Dev.nakRepeat (d : Dev) (p : Nat) : Dev :=
  let x := d.port p
  let now := d.clk (Isl.rx p)
  let late (m : Missing) : Bool := match m.sent with
    | some t => decide (t + x.resendTimeout ≤ now)
    | none => false
  d.modToll p (fun t => { t with missing := modWhere late (fun m => { m with sent := none }) t.missing })

def execNakRepeat (p : Fin 128) (s : State) : Host.Outcome State Fault Refusal :=
  actIf (fun d => d.rxRuns p.val && (d.port p.val).train.state == .up) (fun d => d.nakRepeat p.val) s

/-- CREDIT_TIMEOUT (04 R121): both conditions still hold. -/
def Dev.creditTimeoutEnd (d : Dev) (p : Nat) : Dev :=
  let d := d.starve p
  if bit (d.timedCauses p) 1 then d.breakLink p causeCredit else d

def execCreditTimeout (p : Fin 128) (s : State) : Host.Outcome State Fault Refusal :=
  actIf (fun d => d.portRuns p.val) (fun d => d.creditTimeoutEnd p.val) s

/-- REPLAY_HOLD_END (04 R125): the hold window ends in HELD. -/
def Dev.replayHoldEnd (d : Dev) (p : Nat) : Dev :=
  let x := d.port p
  match x.toll.holdStart with
  | some t =>
    if x.toll.state == .held && decide (t + x.replayHold ≤ d.belfryNow (p / 32)) then d.closeLink p true else d
  | none => d

def execReplayHoldEnd (p : Fin 128) (s : State) : Host.Outcome State Fault Refusal :=
  actIf (fun d => d.portRuns p.val) (fun d => d.replayHoldEnd p.val) s

end Sys2Proof.Machine
end

