-- ==== Sys2Proof/Machine/Belfry.lean ====
section
/-! DEFINITION. The commands of Pilot and Belfry (05, 06): a header registered, cells stored and freed, go status,
switch allocation, egress, and what the regions' copies take over. -/

namespace Sys2Proof.Machine

/-! ## PACKET_HEADER_REGISTERED (05 R137, R141, R144, R150, 15 R470, R473) -/

/-- The arriving record of a packet whose header is registered; none when the header cannot be the next one on
its VC, or when its flits are being discarded. -/
def Region.bindHeader (x : Region) (input vc flits id : Nat) : Option Region :=
  let k := cellKey input vc
  match tget x.arriving k with
  | none => some { x with arriving := tput x.arriving k ⟨flits, 0, false, some id⟩ }
  | some a =>
    if a.discard || a.id.isSome then none
    else some { x.nameAsk input vc id with
                  arriving := if a.left = 0 then tdrop x.arriving k else tput x.arriving k { a with id := some id } }

/-- The VC that a header's flits travel on. A header whose CLASS has no VC, 5 to 7, is that of the packet at the input that has none
yet. DESIGN CHOICE: of several such VCs the lowest (log entry 20). -/
def Region.headerVc (x : Region) (input : Nat) (h : Hdr) : Option Nat :=
  if h.vc < 20 then some h.vc
  else (List.range 20).find? (fun v => match tget x.arriving (cellKey input v) with
    | some a => !a.discard && a.id.isNone
    | none => false)

/-- PACKET_HEADER_REGISTERED: a header at a network port or at a unit's crossbar port. A packet that crosses a
Buttress was routed where it arrived and registers no second header (01 R40). -/
def Dev.headerRegistered (d : Dev) (r input : Nat) (pkt : Packet) : Dev :=
  if 32 ≤ input ∧ input < 56 then d else
  let h := pkt.hdr
  let n := flitsOf h.plen
  let id := d.nextId
  match (d.region r).headerVc input h with
  | none => d.hdrDrop r
  | some vc =>
  match (d.region r).bindHeader input vc n id with
  | none => d
  | some x =>
    let d := (d.setRegion r x).takeId
    let net := netPort r input
    let w : Waiting :=
      { id := id, input := input, vc := vc, stamp := d.belfryNow r, net := net, arrived := pkt, pkt := pkt, hop := .unit r 63 }
    if h.bad net.isSome then (d.hdrDrop r).release r input vc id n 0 else
    let (d, o) := d.hopOf r net h true
    d.placeTested r w o

def execPacketHeaderRegistered (r : Fin 4) (input : Fin 64) (pkt : Packet) (s : State) :
    Host.Outcome State Fault Refusal :=
  actIf (fun d => d.regionRuns r.val) (fun d => d.headerRegistered r.val input.val pkt) s

/-! ## Copies of chip-level state -/

/-- What the Warden sends to a region's copy of chip-level state. A region that is stopped or in reset takes nothing, and the discard
counts in the chip's CROSSING_DROPS (01 R34, 18 R543). -/
def Dev.toCopy (d : Dev) (r : Nat) (f : Dev → Dev) : Dev :=
  if d.regionRuns r then f d else if d.wardenRuns then d.count Ctr.chipCrossingDrops else d

/-- EPOCH_PROPAGATE (15 R479): a region takes the table. -/
def execEpochPropagate (r : Fin 4) (s : State) : Host.Outcome State Fault Refusal :=
  act (fun d => d.toCopy r.val (fun d => d.modRegion r.val (fun x => { x with epochs := d.epochs }))) s

/-- The ports of a region are not live, whatever their state: what is queued on them leaves on them (15 R484). In RESETTING they are
down. -/
def RState.notLive (st : RState) : Bool := st == .draining || st == .drained || st == .ready

/-- LIVE_MASK_UPDATE (05 R157): a region learns of one port; packets that wait there for it and may not take it any more, in
LIMP those of classes 0 to 3, are chosen again. A region that is stopped or in reset is not told, and the port's region counts the
discard (01 R34). -/
def Dev.liveMaskUpdate (d : Dev) (r p : Nat) : Dev :=
  let q := p / 32
  if !d.regionRuns r then (if r != q && d.regionRuns q then d.crossingDrop q else d) else
  let d := d.setLive r p
  if (d.region q).state.notLive then d else d.rerouteWaiting r p

def execLiveMaskUpdate (r : Fin 4) (p : Fin 128) (s : State) : Host.Outcome State Fault Refusal :=
  act (fun d => d.liveMaskUpdate r.val p.val) s

/-- BUTTRESS_SIDEBAND_REPORT (05 R152): the figures of a region's 32 ports reach every region a running Buttress
direction joins it to; to the others the report is discarded and counted (01 R34). -/
def Dev.buttressRuns (d : Dev) (r q : Nat) : Bool :=
  let a := min r q
  let b := max r q
  bit d.warden.buttress (if a = 0 then b - 1 else if a = 1 then b + 1 else 5) && !d.gated

def Dev.sidebandReport (d : Dev) (r : Nat) : Dev :=
  let figs := (portsOf r).map (fun p => (p, (d.port p).egressBytes))
  forEach (allRegions.filter (fun q => q != r)) (fun q d =>
    if d.buttressRuns r q && d.regionRuns q then
      d.modRegion q (fun x => { x with reports := figs.foldl (fun t f => tput t f.1 f.2) x.reports })
    else d.crossingDrop r) d

def execButtressSidebandReport (r : Fin 4) (s : State) : Host.Outcome State Fault Refusal :=
  actIf (fun d => d.regionRuns r.val) (fun d => d.sidebandReport r.val) s

/-- One register of a region's copy replaced by the chip's value (05 R168). -/
def ChipRegs.applyReg (own chip : ChipRegs) : ChipReg → ChipRegs
  | .pilotCtrl => { own with pilotCtrl := chip.pilotCtrl }
  | .pilotTune => { own with pilotTune := chip.pilotTune }
  | .fcCtrl => { own with fcCtrl := chip.fcCtrl }
  | .fcMark => { own with fcMark := chip.fcMark }
  | .carterCtrl => { own with carterCtrl := chip.carterCtrl }
  | .carterWin => { own with carterWin := chip.carterWin }
  | .scrivCtrl => { own with scrivCtrl := chip.scrivCtrl }
  | .lockCtrl => { own with lockCtrl := chip.lockCtrl }

/-! ## Storing flits (06 R174 to R177) -/

/-- A flit of (input, VC) takes a cell of the pool. -/
def Region.takePool (x : Region) (input vc : Nat) : Region :=
  let c := x.cellsOf input vc
  { x.setCells input vc { c with pool := c.pool + 1 } with poolFree := x.poolFree - 1 }

/-- The asks of one tick: they begin anew in another tick, and when an input asks again, since it registers one flit a tick. -/
def Region.poolFresh (x : Region) (now input : Nat) : Region :=
  if x.poolTick = now ∧ !x.poolAsked.any (fun a => a.1 == input) then x
  else { x with poolTick := now, poolAsked := [], poolBase := x.poolPtr }

/-- The network flits that hold a pool cell by an ask of this tick, as requesters of the pool allocator (06 R177). -/
def Region.poolReqs (x : Region) (now : Nat) : List Req := x.poolAsked.map (fun a => ⟨a.1, 1, now⟩)

/-- No pool cell is free: the flits of this tick that ask contend for the cells that the tick has given (06 R177). It answers
the ask that gives up its cell to the newcomer, if one does, and the pointer. -/
def Region.poolContest (x : Region) (now input : Nat) : Option (Nat × Nat × Option Nat) × Nat :=
  let r := losers 64 x.poolAsked.length x.poolBase (x.poolReqs now ++ [⟨input, 1, now⟩])
  match r.1 with
  | l :: _ => (x.poolAsked.find? (fun a => a.1 == l.pos && l.pos != input), r.2)
  | [] => (none, r.2)

/-- A network flit without floor or pool: a cell of the skid, or none (06 R174). -/
def Region.takeSkid (x : Region) (input vc : Nat) : Option Region :=
  let c := x.cellsOf input vc
  if x.skidOf input < 2048 then some (x.setCells input vc { c with skid := c.skid + 1 }) else none

/-- How a network flit is stored (06 R174, R177): the region afterwards, whether the flit itself found a cell, and the ask of an
earlier flit of the tick that lost its pool cell to it and found none in its skid: its input, VC and packet. -/
structure Stored where
  region : Region
  here : Bool
  lost : Option (Nat × Nat × Option Nat)

/-- A network flit that lost in the pool allocator moves to its skid (06 R177). -/
def Region.movePool (x : Region) (input vc : Nat) : Region × Bool :=
  let c := x.cellsOf input vc
  let x := { x.setCells input vc { c with pool := c.pool - 1 } with poolFree := x.poolFree + 1,
                                                                    poolAsked := x.poolAsked.filter (fun a => a.1 != input) }
  match x.takeSkid input vc with
  | some x => (x, true)
  | none => (x, false)

/-- The packet that a flit arriving on a VC belongs to, once its header is registered. -/
def Region.askedBy (x : Region) (input vc : Nat) : Option Nat := (tget x.arriving (cellKey input vc)).bind (fun a => a.id)

/-- A cell for a flit of a network input: floor, pool, skid (06 R174, R177). -/
def Region.storeNet (x : Region) (now input vc : Nat) : Stored :=
  let c := x.cellsOf input vc
  if c.floor < 33 then ⟨x.setCells input vc { c with floor := c.floor + 1 }, true, none⟩ else
  let x := x.poolFresh now input
  let asked (x : Region) : Region := { x.takePool input vc with poolAsked := x.poolAsked ++ [(input, vc, x.askedBy input vc)] }
  let skid (x : Region) : Stored :=
    match x.takeSkid input vc with
    | some x => ⟨x, true, none⟩
    | none => ⟨x, false, none⟩
  if 0 < x.poolFree then ⟨asked x, true, none⟩ else
  match x.poolContest now input with
  | (none, ptr) => skid { x with poolPtr := ptr }
  | (some (i, v, id), ptr) =>
    if (x.cellsOf i v).pool = 0 then skid x else
    let r := { x with poolPtr := ptr }.movePool i v
    ⟨asked r.1, true, if r.2 then none else some (i, v, id)⟩

/-- An internal input may take a pool cell (06 R175). -/
def Region.poolAllows (x : Region) (input vc : Nat) : Bool :=
  x.poolOpen && decide ((x.cellsOf input vc).pool < x.chip.vcPoolCap) && decide (0 < x.poolFree)

/-- A cell for a flit of an internal input (06 R175): its floor, or the pool while more cells are free than the 64 inputs can
ask for in one tick. With fewer free, the pool allocator decides at the end of the tick (06 R177). -/
def Region.storeInternal (x : Region) (input vc : Nat) : Option Region :=
  let c := x.cellsOf input vc
  if c.floor < 33 then some (x.setCells input vc { c with floor := c.floor + 1 })
  else if x.poolAllows input vc && decide (64 < x.poolFree) then some (x.takePool input vc)
  else none

/-- One more flit of the packet arriving on a VC: stored or discarded. -/
def Region.oneArrived (x : Region) (k : Nat) (a : Arriving) (stored : Bool) : Region :=
  let a := { a with left := a.left - 1, stored := a.stored + b2n stored }
  { x with arriving := if a.left = 0 && (a.id.isSome || a.discard) then tdrop x.arriving k else tput x.arriving k a }

/-- A packet at a network input is truncated for want of a cell (06 R174). -/
def Dev.skidDrop (d : Dev) (r input vc : Nat) : Dev :=
  let p := 32 * r + input
  ((d.count (Ctr.skidDrops p)).raise (Isl.belfry r) (Src.port p 5) 0 0).truncateArriving r input vc 0 0

/-- The flits of a packet that waits, is queued at an egress, or crosses to a unit. -/
def Dev.flitCount (d : Dev) (id : Nat) : Option Nat :=
  match d.whereWaits id with
  | some (_, w) => some (flitsOf w.arrived.hdr.plen)
  | none =>
    match d.ports.findSome? (fun p => p.2.egress.find? (fun e => e.id == id)) with
    | some e => some e.flits
    | none => allRegions.findSome? (fun q =>
        ((d.region q).crossing.find? (fun c => c.id == id)).bind (fun c => c.toUnit.map (fun u => flitsOf u.2.hdr.plen)))

/-- The packet whose newest flit at (input, VC) lost its cell loses that flit: it counts as not stored. The packet is still arriving,
or `id` names it when the lost flit was its last. -/
def Dev.unstore (d : Dev) (r input vc : Nat) (id : Option Nat) : Dev :=
  let x := d.region r
  let k := cellKey input vc
  let a : Option Arriving := match tget x.arriving k with
    | some a => some { a with stored := a.stored - 1 }
    | none => id.bind (fun i => (d.flitCount i).map (fun n => ⟨0, n - 1, false, some i⟩))
  match a with
  | some a => d.setRegion r { x with arriving := tput x.arriving k a }
  | none => d

/-- SKID_USED of an input leaves 0 (06 R195). -/
def Dev.countSkid (d : Dev) (r input was : Nat) : Dev :=
  if was = 0 ∧ 0 < (d.region r).skidOf input then d.count (Ctr.skidEntries (32 * r + input)) else d

/-- The packet that a flit on a VC belongs to: the first flit after the end of a packet begins the next, with as many flits as
its header says (05 R133). -/
def Region.flitOwner (x : Region) (k : Nat) (flit : Flit) : Arriving :=
  match (tget x.arriving k).filter (fun a => a.left != 0) with
  | some a => a
  | none => ⟨flitsOf (bits (leNat (flit.take 8)) 62 50), 0, false, none⟩

/-- FLIT_STORE (06 R174, R177). Its registration
frees its unit's reorder slot, and lets truncations behind it arrive (04 R116, R128). -/
def Dev.flitStore (d : Dev) (p vc : Nat) (flit : Flit) : Dev :=
  let r := p / 32
  let input := p % 32
  let k := cellKey input vc
  let a := (d.region r).flitOwner k flit
  if a.discard then (d.modRegion r (fun x => x.oneArrived k a false)).crossFlit p else
  let was := d.region r
  let s := was.storeNet (d.belfryNow r) input vc
  let d := if s.here then (d.setRegion r (s.region.oneArrived k a true)).countSkid r input (was.skidOf input)
    else (d.setRegion r { s.region with arriving := tput s.region.arriving k { a with left := a.left - 1 } }).skidDrop r input vc
  let d := forEach was.poolAsked (fun b d => if b.1 = input then d else d.countSkid r b.1 (was.skidOf b.1)) d
  let d := match s.lost with
    | some (i, v, id) => (d.unstore r i v id).skidDrop r i v
    | none => d
  (d.crossFlit p).starveAll

def execFlitStore (p : Fin 128) (vc : Fin 20) (flit : Flit) (s : State) : Host.Outcome State Fault Refusal :=
  actIf (fun d => d.regionRuns (p.val / 32)) (fun d => d.flitStore p.val vc.val flit) s

/-! ## Units: intakes and delivery (06 R183) -/

/-- Packets of a class in the intake of a unit, and on their way to it across a Buttress. -/
def Region.intakeUsed (x : Region) (y cls : Nat) : Nat :=
  (tgetD x.intakes (intakeKey y cls) []).length +
    (x.crossing.filter (fun c => match c.toUnit with
      | some u => u.1 == y && u.2.hdr.cls == cls
      | none => false)).length

/-- The intake of a unit has room for a packet of a class. Each holds at least one; how many more is free (log entry 49). The
Warden takes every management packet at once (06 R188). -/
def Region.intakeRoom (x : Region) (y cls : Nat) : Bool :=
  (y == 63 && cls == 4) || x.intakeUsed y cls == 0 || decide (x.intakeUsed y cls ≤ Config.intakeMore y cls)

/-- A packet handed to a unit's intake; a Warden that is stopped takes nothing (01 R34), and in FENCED no unit takes a packet of
classes 0 to 3 (15 R473), one that passed its tests before the entry included. `r` is the region it came from. -/
def Dev.handUnit (d : Dev) (r q y : Nat) (pkt : Packet) : Dev :=
  if y = 63 && !d.wardenRuns then d.crossingDrop r
  else if pkt.hdr.cls ≠ 4 ∧ d.twin.state = .fenced then d.count (Ctr.fenceDiscards q) else
  let k := intakeKey y pkt.hdr.cls
  (d.modRegion q (fun x => { x with intakes := tput x.intakes k (tgetD x.intakes k [] ++ [pkt]) })).emit (.deliver q y pkt)

/-! ## Internal inputs (06 R175, R177) and the Buttress (01 R38, R40, R42) -/

/-- The group of Buttress crossbar ports from one region to another (01 R36). -/
def buttressGroup (r q : Nat) : Nat := if q < r then q else q - 1

/-- The region whose Buttress crossbar port an input of region `r` belongs to. -/
def buttressSource (r input : Nat) : Nat :=
  let g := (input - 32) / 8
  if g < r then g else g + 1

/-- The header of a packet bound for a port is registered in the port's region with its first flit: its age there runs from that tick
(00 R16, 01 R38). -/
def Dev.stampCrossed (d : Dev) (r : Nat) (c : Crossing) : Dev :=
  match d.ports.find? (fun y => y.2.egress.any (fun e => e.id == c.id && e.flits == c.flits && e.cutAt.isNone)) with
  | some (p, _) =>
    let now := d.belfryNow r
    d.modPort p (fun y => { y with egress := modWhere (fun e => e.id == c.id) (fun e => { e with stamp := now }) y.egress })
  | none => d

/-- A flit crosses a Buttress: its cell is freed in the region it leaves (06 R175, R176); a packet for a unit is delivered once
its last flit has crossed. -/
def Dev.crossButtress (d : Dev) (r : Nat) (c : Crossing) : Dev :=
  let d := d.modRegion r (fun x =>
    let cs := modWhere (fun y => y.id == c.id) (fun y => { y with flits := y.flits - 1 }) x.crossing
    { x with crossing := cs.filter (fun y => y.flits != 0) })
  let d := d.modRegion c.srcRegion (fun x => x.freeCell c.srcInput c.srcVc)
  match c.toUnit with
  | some (y, pkt) =>
    if c.flits = 1 then
      (d.modRegion r (fun x => x.freeCells c.input c.vc (flitsOf pkt.hdr.plen))).handUnit c.srcRegion r y pkt
    else d
  | none => (d.stampCrossed r c).starveAll

/-- Whether the next flit of a crossing packet has arrived where it comes from. -/
def Dev.crossReady (d : Dev) (c : Crossing) : Bool :=
  match tget (d.region c.srcRegion).arriving (cellKey c.srcInput c.srcVc) with
  | some a => a.id != some c.id || decide (a.left < c.flits)
  | none => true

/-- The first packet of each VC of a Buttress input. -/
def Region.crossHeads (x : Region) (input : Nat) : List Crossing :=
  x.crossing.filter (fun c => c.input == input &&
    (match x.crossing.find? (fun e => e.input == input && e.vc == c.vc) with
     | some e => e.id == c.id
     | none => false))

/-- What a source crossbar port of a direction offers: of its VCs whose next flit has come and finds a cell, management first,
then the oldest. DESIGN CHOICE: the spec arbitrates among the 8 ports and is silent on which VC's head a port offers; of equal
stamps the model takes the first granted (log entry 20). -/
def Dev.crossOffer (d : Dev) (r input : Nat) (fits : Region → Nat → Nat → Bool) : Option Crossing :=
  let x := d.region r
  let cs := (x.crossHeads input).filter (fun c => d.crossReady c && fits x input c.vc)
  let m := cs.filter (fun c => c.mgmt)
  minBy (fun c => c.stamp) (if m.isEmpty then cs else m)

/-- Buttress arbitration (01 R38): the crossing packet of a direction that sends its next flit, and the pointer. -/
def Dev.buttressWinner (d : Dev) (r src : Nat) (fits : Region → Nat → Nat → Bool) : Option (Crossing × Nat) :=
  let lanes := (List.range 8).map (fun k => 32 + 8 * buttressGroup r src + k)
  let os := lanes.filterMap (fun i => (d.crossOffer r i fits).map (fun c => (i, c)))
  match arbitrate 8 (tgetD (d.region r).buttressPtr src 0)
      (os.map (fun o => ⟨(o.1 - 32) % 8, b2n o.2.mgmt, o.2.stamp⟩)) with
  | none => none
  | some (k, ptr) => (os.find? (fun o => (o.1 - 32) % 8 == k)).map (fun o => (o.2, ptr))

/-- The waiting flit of an internal input that may be accepted, with the region once it has taken its cell by `store`. For a
Buttress input it must win the direction's arbitration; for a unit's input its packet must be arriving. -/
def Dev.acceptFlit (d : Dev) (r input vc : Nat) (fits : Region → Nat → Nat → Bool) (store : Region → Region) : Dev :=
  if input < 56 then
    let src := buttressSource r input
    match d.buttressWinner r src fits with
    | none => d
    | some (c, ptr) =>
      if c.input = input ∧ c.vc = vc then
        (d.modRegion r (fun x => { store x with buttressPtr := tput x.buttressPtr src ptr })).crossButtress r c
      else d
  else
    match tget (d.region r).arriving (cellKey input vc) with
    | none => d
    | some a =>
      if a.discard then d.modRegion r (fun x => x.oneArrived (cellKey input vc) a false)
      else if fits (d.region r) input vc then d.modRegion r (fun x => (store x).oneArrived (cellKey input vc) a true)
      else d

/-- INTERNAL_FLIT_ACCEPT (06 R175): the next flit that waits at a Buttress or a unit input is accepted when a cell may be had,
and waits on otherwise: for the pool allocator where the pool may give it a cell. -/
def Dev.internalAccept (d : Dev) (r input vc : Nat) : Dev :=
  if input < 32 then d else
  let fits (x : Region) (i v : Nat) : Bool := (x.storeInternal i v).isSome
  match (d.region r).storeInternal input vc with
  | some _ => d.acceptFlit r input vc fits (fun x => (x.storeInternal input vc).getD x)
  | none =>
    if (d.region r).poolAllows input vc && !(d.region r).poolWaits.any (fun a => a.1 == input && a.2.1 == vc) then
      let now := d.belfryNow r
      d.modRegion r (fun x => { x with poolWaits := x.poolWaits ++ [(input, vc, now)] })
    else d

def execInternalFlitAccept (r : Fin 4) (input : Fin 64) (vc : Fin 20) (s : State) : Host.Outcome State Fault Refusal :=
  actIf (fun d => d.regionRuns r.val) (fun d => d.internalAccept r.val input.val vc.val) s

/-- The pool allocator serves waiting internal flits at the end of a tick, the network inputs having had theirs (06 R177): the
oldest first, then by the pointer. One whose Buttress port does not win its direction's arbitration asks on. -/
def Dev.poolServeBut (d : Dev) (r : Nat) (passed : List (Nat × Nat × Nat)) : Nat → Dev
  | 0 => d
  | n + 1 =>
    let x := d.region r
    let ws := x.poolWaits.filter (fun a => x.poolAllows a.1 a.2.1 && !passed.contains a)
    match arbitrate 64 x.poolPtr (ws.map (fun a => ⟨a.1, 0, a.2.2⟩)) with
    | none => d
    | some (i, ptr) =>
      match ws.find? (fun a => a.1 == i) with
      | none => d
      | some a =>
        let e := d.modRegion r (fun x => { x with poolPtr := ptr, poolWaits := x.poolWaits.erase a })
        let e := e.acceptFlit r i a.2.1 (fun x i v => x.poolAllows i v) (fun x => x.takePool i a.2.1)
        if 56 ≤ i ∨ (e.region r).poolFree < x.poolFree then e.poolServeBut r passed n
        else d.poolServeBut r (a :: passed) n

def Dev.poolServe (d : Dev) (r n : Nat) : Dev := d.poolServeBut r [] n

/-! ## Go status (06 R178, R179) -/

/-- The floor rule and the pool rule of R178. -/
def Region.floorRule (x : Region) (i v : Nat) : Bool := (x.cellsOf i v).all == 0
def Region.poolRule (x : Region) (i v : Nat) : Bool :=
  x.poolOpen && decide ((x.cellsOf i v).pool < x.chip.vcPoolCap) && x.skidOf i == 0

/-- Stop bits and floor-only bits of an input. -/
def Region.stopBits (x : Region) (i : Nat) : Nat :=
  (List.range 20).foldl (fun m v => m + (if x.floorRule i v || x.poolRule i v then 0 else 2 ^ v)) 0
def Region.floorBits (x : Region) (i : Nat) : Nat :=
  (List.range 20).foldl (fun m v => m + (if x.floorRule i v && !x.poolRule i v then 2 ^ v else 0)) 0

/-- GO_STATUS_UPDATE: the end of a Belfry tick. -/
def Dev.goUpdate (d : Dev) (r : Nat) : Dev :=
  let d := d.poolServe r (d.region r).poolWaits.length
  let x := d.region r
  let close := x.poolOpen && decide (x.poolFree ≤ x.chip.poolStop)
  let isOpen := if x.poolOpen then !close else decide (x.chip.poolGo ≤ x.poolFree)
  let d := if close then (d.count (Ctr.poolCloses r)).raise (Isl.belfry r) (Src.region r 8) 0 0 else d
  let d := d.modRegion r (fun x => { x with poolOpen := isOpen })
  let x := d.region r
  forEach (List.range 32) (fun i d =>
    d.modPort (32 * r + i) (fun y => { y with stopSent := x.stopBits i, floorOnly := x.floorBits i })) d

def execGoStatusUpdate (r : Fin 4) (s : State) : Host.Outcome State Fault Refusal :=
  actIf (fun d => d.regionRuns r.val) (fun d => d.goUpdate r.val) s

/-! ## Switch allocation (01 R36, R38, 06 R180, R191) -/

/-- The region a hop leads to. -/
def hopRegion : Hop → Nat
  | .port p => p / 32
  | .unit q _ => q

/-- Whether a hop leaves region `r` by a crossbar output. -/
def hopUses (r output : Nat) (h : Hop) : Bool :=
  let q := hopRegion h
  if q = r then (match h with
    | .port p => output == p % 32
    | .unit _ x => output == x)
  else decide (32 ≤ output ∧ output < 56) && (output - 32) / 8 == buttressGroup r q

/-- The crossbar input in region `q` of what leaves `r` by a Buttress output. -/
def buttressInput (r q output : Nat) : Nat := 32 + 8 * buttressGroup q r + (output - 32) % 8

/-- A port takes granted packets of a class: it is OPEN and ROUTE_EN is 1, or it is in LIMP and the class is management. A
region that has not yet heard of a port's removal keeps the packet until it has (05 R157, R158). -/
def Port.takes (x : Port) (cls : Nat) : Bool :=
  (x.toll.state == .opened && x.routeEn) || (x.train.state == .limp && cls == 4)

/-- A packet may contend: it heads its VC at its input, it leaves by this output, its port takes it, or its unit's intake has
room and, within the region, it has wholly arrived; a quarantined Buttress input is not used (18 R535). -/
def Dev.contends (d : Dev) (r output : Nat) (w : Waiting) : Bool :=
  let x := d.region r
  let head := match x.waiting.find? (fun v => v.input == w.input && v.vc == w.vc) with
    | some v => v.id == w.id
    | none => false
  let q := hopRegion w.hop
  let taken := match w.hop with
    | .unit _ y => (d.region q).intakeRoom y w.pkt.hdr.cls &&
      (q != r || x.storedOf w.input w.vc w.id (flitsOf w.arrived.hdr.plen) == flitsOf w.arrived.hdr.plen)
    | .port p => (d.port p).takes w.pkt.hdr.cls
  head && taken && hopUses r output w.hop &&
    (q == r || !bit d.quarantine.inputs (64 * q + buttressInput r q output))

/-- Management above the other classes; the age is the registration of the header (01 R38). -/
def Waiting.req (w : Waiting) (pos : Nat) : Req := ⟨pos, if w.pkt.hdr.cls = 4 then 1 else 0, w.stamp⟩

/-- The VC an input offers an output, with the input's pointer after it (01 R38, VC selection). -/
def Dev.selectVc (d : Dev) (r output input : Nat) : Option (Waiting × Nat) :=
  let x := d.region r
  let ws := x.waiting.filter (fun w => w.input == input && d.contends r output w)
  match arbitrate 20 (tgetD x.inPtr input 0) (ws.map (fun w => w.req w.vc)) with
  | none => none
  | some (vc, ptr) => (ws.find? (fun w => w.vc == vc)).map (fun w => (w, ptr))

/-- Bytes queued at the output a packet takes (06 R191): the egress bytes of a network port; at a unit, what waits for it in any
region and what crosses to it. -/
def Dev.queuedAt (d : Dev) (r : Nat) (w : Waiting) : Nat :=
  match w.hop with
  | .port p => d.egressFigure r p
  | .unit q x =>
    let waits := allRegions.foldl (fun n y => (d.region y).waiting.foldl (fun n v =>
      if v.hop == .unit q x && v.id != w.id then n + flitsOf v.arrived.hdr.plen else n) n) 0
    128 * (d.region q).crossing.foldl (fun n c => match c.toUnit with
      | some (y, pkt) => if y = x then n + flitsOf pkt.hdr.plen else n
      | none => n) waits

/-- The packet as it leaves, with CMARK set by R191. -/
def Dev.mark (d : Dev) (r : Nat) (w : Waiting) : Dev × Packet :=
  let c := (d.region r).chip
  if c.cmarkEn && decide (w.pkt.hdr.cls ≤ 3) && decide (4096 * c.cmarkLine ≤ d.queuedAt r w) then
    (d.count (Ctr.cmarksSet r), { w.pkt with hdr := { w.pkt.hdr with cmark := true } })
  else (d, w.pkt)

/-- A packet handed to a unit of its region: its cells are free. -/
def Dev.deliverUnit (d : Dev) (r x : Nat) (w : Waiting) (pkt : Packet) : Dev :=
  (d.release r w.input w.vc w.id (flitsOf w.arrived.hdr.plen) 0).handUnit r r x pkt

/-- A granted packet leaves by an output. -/
def Dev.grantOutput (d : Dev) (r output : Nat) (w : Waiting) : Dev :=
  let (d, pkt) := d.mark r w
  let d := d.modRegion r (fun x => { x with waiting := x.waiting.filter (fun v => v.id != w.id) })
  let q := hopRegion w.hop
  let n := flitsOf w.arrived.hdr.plen
  let e : Egress :=
    { id := w.id, region := r, input := w.input, inVc := w.vc, vc := pkt.hdr.vc, pkt := pkt, arrived := w.arrived.hdr,
      net := w.net, flits := n, sent := 0, stamp := w.stamp, cutAt := none }
  if q = r then
    match w.hop with
    | .unit _ x => d.deliverUnit r x w pkt
    | .port p => (d.modPort p (fun y => { y with egress := y.egress ++ [e] })).starve p
  else if !(d.regionRuns q && d.buttressRuns r q) then (d.crossingDrop r).release r w.input w.vc w.id n 0
  else
    let i := buttressInput r q output
    let c : Crossing :=
      { id := w.id, input := i, vc := w.vc, srcRegion := r, srcInput := w.input, srcVc := w.vc, flits := n,
        mgmt := pkt.hdr.cls == 4, stamp := d.clk (Isl.buttress r q), toUnit := none }
    let cross (c : Crossing) (d : Dev) : Dev := d.modRegion q (fun x => { x with crossing := x.crossing ++ [c] })
    match w.hop with
    | .unit _ x => cross { c with toUnit := some (x, pkt) } d
    | .port p =>
      let d := cross c d
      (d.modPort p (fun y => { y with egress := y.egress ++ [{ e with region := q, input := i }] })).starve p

/-- SWITCH_ALLOCATION: one output is granted to one of the inputs that contend for it. -/
def Dev.switchAllocation (d : Dev) (r output : Nat) : Dev :=
  let x := d.region r
  let offers := (List.range 64).filterMap (fun i => (d.selectVc r output i).map (fun o => (i, o)))
  match arbitrate 64 (tgetD x.outPtr output 0) (offers.map (fun o => o.2.1.req o.1)) with
  | none => d
  | some (i, ptr) =>
    match offers.find? (fun o => o.1 == i) with
    | none => d
    | some (_, w, vptr) =>
      let d := d.modRegion r (fun x => { x with outPtr := tput x.outPtr output ptr, inPtr := tput x.inPtr i vptr })
      d.grantOutput r output w

def execSwitchAllocation (r : Fin 4) (output : Fin 64) (s : State) : Host.Outcome State Fault Refusal :=
  actIf (fun d => d.regionRuns r.val) (fun d => d.switchAllocation r.val output.val) s

/-! ## Egress (01 R38, 06 R180, 03 R103) -/

/-- The next flit of an egress packet has arrived, or replaces a lost one. -/
def Dev.flitReady (d : Dev) (e : Egress) : Bool := decide (e.sent < d.flitsHere e)

/-- Flit k of a stomped packet: zeros, and the stomp value in place of the ECRC (05 R142). -/
def stompFlit (plen k : Nat) : Flit :=
  let pos := 64 + roundUp 4 (min plen 4096)
  if pos / 128 = k then putBytes (zeros 128) (pos % 128) (leBytes 4 stompEcrc) else zeros 128

/-- Whether a VC may go out of a port: in OPEN with its stop bit clear, in LIMP for management (06 R180). -/
def Port.mayGo (x : Port) (vc : Nat) : Bool :=
  if x.train.state = .limp then decide (16 ≤ vc) && !bit x.toll.peerStop vc
  else x.train.state == .up && x.toll.state == .opened && !x.toll.stopAll && !bit x.toll.peerStop vc &&
    x.toll.hasCredit && decide (x.toll.handed.length < 2)

/-- The egress packets that contend: the first of each VC. -/
def Dev.egressReady (d : Dev) (p : Nat) : List Egress :=
  let x := d.port p
  x.egress.filter (fun e =>
    (match x.egress.find? (fun f => f.vc == e.vc) with
     | some f => f.id == e.id
     | none => false) && x.mayGo e.vc && d.flitReady e)

/-- A tick joins the two latest. -/
def addTick (ts : List Nat) (t : Nat) : List Nat := if ts.head? = some t then ts else t :: ts.take 1

/-- Transit through two network ports is noted when a packet of classes 0–3 has left (16 R494). -/
def Dev.noteTransit (d : Dev) (p : Nat) (e : Egress) : Dev :=
  match e.net with
  | some a =>
    if a = p ∨ e.pkt.hdr.cls = 4 then d else
    let t := d.belfryNow (p / 32)
    let u := d.belfryNow (a / 32)
    (d.modPort p (fun x => { x with transitAt := addTick x.transitAt t })).modPort a (fun x => { x with transitAt := addTick x.transitAt u })
  | none => d

/-- The next flit of an egress packet is one that never came (05 R142). -/
def Egress.lost (e : Egress) : Bool :=
  match e.cutAt with
  | some n => decide (n ≤ e.sent)
  | none => false

/-- One flit of an egress packet is handed over, and its cell freed (06 R176). -/
def Dev.handFlit (d : Dev) (p : Nat) (e : Egress) : Dev :=
  let f := if e.lost then stompFlit e.arrived.plen e.sent else e.pkt.flit e.sent
  let d := if e.lost then d else d.modRegion e.region (fun x => x.freeCell e.input e.inVc)
  let limp := (d.port p).train.state == .limp
  let d := if limp then d.sendFrame p e.vc f
    else d.modToll p (fun t => { t with handed := t.handed ++ [(e.vc, f)] })
  if e.sent + 1 < e.flits then
    d.modPort p (fun x =>
      { x with egress := modWhere (fun y => y.id == e.id) (fun y => { y with sent := y.sent + 1 }) x.egress })
  else (d.modPort p (fun x => { x with egress := x.egress.filter (fun y => y.id != e.id) })).noteTransit p e

/-- EGRESS_SELECT: one VC with go status and a credit hands over its next flit. -/
def Dev.egressSelect (d : Dev) (p : Nat) : Dev :=
  let es := d.egressReady p
  match arbitrate 20 (d.port p).egressPtr (es.map (fun e => ⟨e.vc, if e.pkt.hdr.cls = 4 then 1 else 0, e.stamp⟩)) with
  | none => d
  | some (vc, ptr) =>
    match es.find? (fun e => e.vc == vc) with
    | none => d
    | some e => ((d.modPort p (fun x => { x with egressPtr := ptr })).handFlit p e).starve p

def execEgressSelect (p : Fin 128) (s : State) : Host.Outcome State Fault Refusal :=
  actIf (fun d => d.regionRuns (p.val / 32)) (fun d => d.egressSelect p.val) s

/-- MGMT_HOLD_EXPIRY (06 R188): a management packet not granted an output in time is discarded whole. -/
def Dev.mgmtHoldExpiry (d : Dev) (r id : Nat) : Dev :=
  match (d.region r).waiting.find? (fun w => w.id == id) with
  | none => d
  | some w =>
    if w.pkt.hdr.cls = 4 ∧ w.stamp + (d.region r).chip.mgmtHold ≤ d.belfryNow r then
      let d := d.modRegion r (fun x => { x with waiting := x.waiting.filter (fun v => v.id != id) })
      (d.dropCount r (Ctr.mgmtHoldDrops r) (some 15)).release r w.input w.vc id (flitsOf w.arrived.hdr.plen) 0
    else d

def execMgmtHoldExpiry (r : Fin 4) (id : Nat) (s : State) : Host.Outcome State Fault Refusal :=
  actIf (fun d => d.regionRuns r.val) (fun d => d.mgmtHoldExpiry r.val id) s

end Sys2Proof.Machine
end

