-- ==== Sys2Proof/Machine/Lanes.lean ====
section
/-! DEFINITION. The commands of lanes and bring-up (03) that are not Ocmiset commands: enables and retrains, CK,
timeouts, ordered sets, training words, lane failures, sleep and wake, and limp mode. -/

namespace Sys2Proof.Machine

/-! ## Enables, CK and timeouts (03 R79 to R82, R94) -/

def execPortEnableChange (p : Fin 128) (enable : Bool) (s : State) : Host.Outcome State Fault Refusal :=
  act (fun d => d.portEnable p.val enable) s

def execPortRetrain (p : Fin 128) (s : State) : Host.Outcome State Fault Refusal :=
  actIf (fun d => d.portRuns p.val) (fun d => d.portRetrain p.val) s

/-- CK transitions have been registered by now: something arrived on the port (03 R82). -/
def Dev.ckSeen (d : Dev) (p : Nat) : Dev :=
  let now := d.belfryNow (p / 32)
  d.modTrain p (fun t => { t with ckAt := max t.ckAt now })

/-- CK_DETECTED: CK has been registered without a break for 2 µs in DETECT, so at the earliest 2 µs after its entry, which a CK
loss begins anew. -/
def Dev.ckDetected (d : Dev) (p : Nat) : Dev :=
  let now := d.belfryNow (p / 32)
  if (d.port p).train.state = .detect ∧ (d.port p).train.since + 2000 ≤ now then
    (d.ckSeen p).modTrain p (fun t => t.fresh .t0Align now)
  else d

def execCkDetected (p : Fin 128) (s : State) : Host.Outcome State Fault Refusal :=
  actIf (fun d => d.portRuns p.val) (fun d => d.ckDetected p.val) s

/-- The timeout of a training state, in ns. -/
def PState.timeout : PState → Option Nat
  | .t0Align => some 1000000
  | .t0Config => some 200000
  | .step => some 500000
  | .retrain => some 500000
  | .disabled | .detect | .up | .limp | .backoff => none

/-- The port is in agreement in T0_CONFIG (03 R92): it has accepted 4 consecutive TS1 with RX_ALIGNED 1, or follows the leader. -/
def Train.agreed (t : Train) : Bool := t.state == .t0Config && (t.countdown.isSome || t.alignedRun == 4)

/-- TRAINING_TIMEOUT: a failure of the current tier, and BACKOFF. In T0_CONFIG only a port without agreement times out. -/
def Dev.trainingTimeout (d : Dev) (p : Nat) : Dev :=
  let t := (d.port p).train
  if t.agreed then d else
  match t.state.timeout with
  | some n => if t.since + n ≤ d.belfryNow (p / 32) then (d.tierFail p t.tier).toBackoff p false else d
  | none => d

def execTrainingTimeout (p : Fin 128) (s : State) : Host.Outcome State Fault Refusal :=
  actIf (fun d => d.portRuns p.val) (fun d => d.trainingTimeout p.val) s

/-- BACKOFF_END: after 10 ms; an entry by LIMP_EN 0 clears the exclusions once a second (03 R103). -/
def Dev.backoffEnd (d : Dev) (p : Nat) : Dev :=
  let t := (d.port p).train
  let now := d.belfryNow (p / 32)
  if t.state = .backoff ∧ t.since + 10000000 ≤ now then
    let d := if t.limpBackoff && decide (t.exclCleared + 1000000000 ≤ now) then d.liftExclusions p else d
    (d.modTrain p (fun t => { t with limpBackoff := false })).toDetect p causeRequest
  else d

def execBackoffEnd (p : Fin 128) (s : State) : Host.Outcome State Fault Refusal :=
  actIf (fun d => d.portRuns p.val) (fun d => d.backoffEnd p.val) s

/-- A break outside UP (04 R129, R131): in the tick of another break its cause joins that one's; else it counts as a break of its
own. -/
def Dev.breakAgain (d : Dev) (p cause : Nat) : Dev :=
  if (d.port p).toll.breakAt = some (d.belfryNow (p / 32)) then d.breakLink p cause
  else d.count (Ctr.linkBreaks p)

/-- CK_LOSS (03 R82): `last` is when the detector registered the last transition. 64 ns after it the link breaks, the port is
pruned and the port-down event is raised. -/
def Dev.ckLoss (d : Dev) (p last : Nat) : Dev :=
  let t := (d.port p).train
  if t.state = .disabled ∨ t.state = .backoff ∨ d.belfryNow (p / 32) < max t.ckAt last + 64 then d else
  let d := d.count (Ctr.ckLosses p)
  let d := if t.state = .up then d
    else (d.breakAgain p causeCk).raise (Isl.belfry (p / 32)) (Src.port p 0) 0x20 0
  d.toDetect p causeCk

def execCkLoss (p : Fin 128) (last : Nat) (s : State) : Host.Outcome State Fault Refusal :=
  actIf (fun d => d.portRuns p.val) (fun d => d.ckLoss p.val last) s

/-! ## Ordered sets (03 R83 to R85) -/

/-- The K-symbols the device uses (03 R83). -/
def knownK (b : Byte) : Bool :=
  b == 0xBC || b == 0x1C || b == 0x3C || b == 0x5C || b == 0x7C || b == 0xFB || b == 0xFD || b == 0xFE

def Sym.error : Sym → Bool
  | .d _ => false
  | .k b => !knownK b
  | .bad => true

/-- Whether a set holds a code error (03 R83). -/
def codeError (syms : List Sym) : Bool := syms.any Sym.error

/-- The data bytes of a list of symbols; none when one is not data. -/
def dataBytes : List Sym → Option (List Byte)
  | [] => some []
  | .d b :: xs => (dataBytes xs).map (b :: ·)
  | _ :: _ => none

/-- Symbols 2 to 14 of an ordered set of an ID whose COM, ID and CHK are valid (03 R84, R85). -/
def setBody (id : Byte) (syms : List Sym) : Option (List Byte) :=
  match syms with
  | .k c :: .k i :: rest =>
    match dataBytes rest with
    | some bs =>
      if c == symCom && i == id && bs.length == 14 && crc8 (bs.take 13) == byteAt bs 13 then some (bs.take 13) else none
    | none => none
  | _ => none

/-- The body of a TS1 or TS2, whose width code must be in range (03 R84). -/
def trainingBody (id : Byte) (syms : List Sym) : Option (List Byte) :=
  match setBody id syms with
  | some b => if widthOk (byteAt b 8) then some b else none
  | none => none

/-- What a TS1 or TS2 says of its sender. -/
def peerOfSet (b : List Byte) : PeerSays :=
  { tierMax := bits (byteAt b 0) 5 4, far := bit (byteAt b 0) 6, limpEn := bit (byteAt b 0) 7, width := byteAt b 8,
    laneGood := byteAt b 9, aligned := bit (byteAt b 10) 0, req := bit (byteAt b 10) 1 }

/-- The receiver of a port takes T0 symbols (03 R80). -/
def PState.receivesT0 (s : PState) : Bool := s == .detect || s == .t0Align || s == .t0Config || s == .limp

/-- Sixteen code groups received on a lane, in its running disparity. A set with a code error, whichever it was, is counted and
discarded (03 R83). -/
def Dev.receiveSet (d : Dev) (p lane : Nat) (groups : Groups) : Dev × Option (List Sym) :=
  let t := (d.port p).train
  if !t.state.receivesT0 then (d, none) else
  let r := decodeGroups (t.lane lane).rd groups
  let d := (d.ckSeen p).modTrain p (fun t => t.modLane lane (fun x => { x with rd := r.2 }))
  if codeError r.1 then (d.count (Ctr.t0CodeErrors p), none) else (d, some r.1)

/-- Rank (03 R95): this end leads when its rank is not above the peer's. -/
def leads (p serial port : Nat) : Bool := decide (ownSerial * 128 + p ≤ serial * 128 + port)

/-- The peer's identity as a TS1 gives it, and what follows from it (03 R95, R105). -/
def Dev.learnPeer (d : Dev) (p serial port : Nat) : Dev :=
  let loop := serial == ownSerial && port == p
  let was := (d.port p).train.selfLoop
  let d := d.modTrain p (fun t =>
    { t with peerSerial := serial, peerPort := port, selfLoop := loop, leader := leads p serial port })
  if loop && !was then d.raise (Isl.belfry (p / 32)) (Src.port p 3) 0 0 else d

/-- One more TS1 or training word on the lane that counts: runs of RX_ALIGNED 1 (03 R92, R93). DESIGN CHOICE: consecutive sets and
words are counted on the lowest good lane alone, and WAKE words on the first active lane; the spec does not say on which lane the
4 in a row are counted, and every lane carries the same fields (log entry 17). A port in agreement stays in it (R92). -/
def Train.countAligned (t : Train) (lane : Nat) (aligned : Bool) : Train :=
  if t.agreed then t
  else if t.goodTrained.head? = some lane then { t with alignedRun := if aligned then min 4 (t.alignedRun + 1) else 0 } else t

/-- The leader's agreement in T0_CONFIG (03 R92, R97). -/
def Dev.agree (d : Dev) (p : Nat) : Dev :=
  let x := d.port p
  let t := x.train
  if !(t.state == .t0Config && t.aligned && t.alignedRun == 4 && t.leader && t.countdown.isNone) then d else
  match x.agreeWidth with
  | none => d.toBackoff p false
  | some w =>
    let final := min x.tierMax t.peer.tierMax
    let far := x.farMode || t.peer.far
    d.modTrain p (fun t => { t with finalTier := final, finalFar := far,
                                    countdown := some ⟨if 1 ≤ final then 1 else 0, false, far, w, 16, false⟩ })

/-- TS1_RECEIVED (03 R84, R92, R95). -/
def Dev.ts1Received (d : Dev) (p lane : Nat) (groups : Groups) : Dev :=
  let (d, o) := d.receiveSet p lane groups
  let st := (d.port p).train.state
  if st != .t0Align && st != .t0Config then d else
  match o.bind (trainingBody symTs1) with
  | none => d.modTrain p (fun t => t.countAligned lane false)
  | some b =>
    let d := d.learnPeer p (field b 2 6) (bits (byteAt b 1) 6 0)
    let told := peerOfSet b
    let d := d.modTrain p (fun t => { t with peer := told }.countAligned lane told.aligned)
    d.agree p

def execTs1Received (p : Fin 128) (lane : Fin 8) (groups : Groups) (s : State) : Host.Outcome State Fault Refusal :=
  actIf (fun d => d.portRuns p.val) (fun d => d.ts1Received p.val lane.val groups) s

/-- TS2_RECEIVED (03 R92): the follower takes the leader's parameters and runs a countdown of its own. -/
def Dev.ts2Received (d : Dev) (p lane : Nat) (groups : Groups) : Dev :=
  let (d, o) := d.receiveSet p lane groups
  let t := (d.port p).train
  match o.bind (trainingBody symTs2) with
  | none => d
  | some b =>
    if t.state == .t0Config && t.goodLanes.contains lane && !t.leader && t.countdown.isNone then
      let told := peerOfSet b
      let far := bit (byteAt b 11) 2
      let final := min (d.port p).tierMax told.tierMax
      d.modTrain p (fun t => { t with peer := told, finalTier := final, finalFar := far,
                                      countdown := some ⟨bits (byteAt b 11) 1 0, false, far, byteAt b 8, 16, false⟩ })
    else d

def execTs2Received (p : Fin 128) (lane : Fin 8) (groups : Groups) (s : State) : Host.Outcome State Fault Refusal :=
  actIf (fun d => d.portRuns p.val) (fun d => d.ts2Received p.val lane.val groups) s

/-- Entry to T0_CONFIG: every good lane is aligned (03 R80, R105). -/
def Dev.toConfig (d : Dev) (p : Nat) : Dev :=
  let now := d.belfryNow (p / 32)
  d.modTrain p (fun t => { t.fresh .t0Config now with aligned := true, peerValid := true })

/-- COUNTDOWN_END (03 R80, R92, R93): this end has sent countdown 0, or as follower above T0 accepted it. -/
def Dev.countdownEnd (d : Dev) (p : Nat) : Dev :=
  let x := d.port p
  let t := x.train
  match t.countdown with
  | none => d
  | some c =>
    if !c.ended then d else
    match t.state with
    | .t0Config =>
      if 1 ≤ c.target then d.toStep p c.target c.width
      else if x.limpEn && t.peer.limpEn then d.toLimp p c.width
      else d.toBackoff p true
    | .step => if c.final then d.toUp p c.target c.width c.far else d.toStep p c.target c.width
    | .retrain => d.toUp p t.tier c.width c.far
    | _ => d

def execCountdownEnd (p : Fin 128) (s : State) : Host.Outcome State Fault Refusal :=
  actIf (fun d => d.portRuns p.val) (fun d => d.countdownEnd p.val) s

/-- PHASE_ACQUIRED (03 R93, R94): 40 µs after a step at the earliest. -/
def Dev.phaseAcquired (d : Dev) (p : Nat) : Dev :=
  let t := (d.port p).train
  let due := match t.state with
    | .t0Align => true
    | .retrain => true
    | .step => decide (t.since + 40000 ≤ d.belfryNow (p / 32))
    | _ => false
  if due then d.modTrain p (fun t => { t with phased := true }) else d

def execPhaseAcquired (p : Fin 128) (s : State) : Host.Outcome State Fault Refusal :=
  actIf (fun d => d.portRuns p.val) (fun d => d.phaseAcquired p.val) s

/-! ## Training words (03 R86, R87, R93, R98, R101) -/

/-- A word whose MARKER, CRC16 and width code are valid. -/
def goodWord (w : List Byte) : Bool :=
  w.length == 36 && field w 0 4 == 0x9B3E61C5 && crc16 ((w.drop 4).take 30) == field w 34 2 && widthOk (byteAt w 6)

/-- The leader's countdown in STEP or RETRAIN (03 R93, R97); a retrain agrees the FEC mode anew (04 R110). No lane good at both ends fails a step (R81). -/
def Dev.agreeWord (d : Dev) (p : Nat) : Dev :=
  let x := d.port p
  let t := x.train
  if !(t.aligned && t.alignedRun == 4 && t.leader && t.countdown.isNone) then d else
  match x.agreeWidth with
  | none => (if t.state = .step then d.tierFail p t.tier else d).toBackoff p false
  | some w =>
    let final := t.state == .retrain || t.tier == t.finalTier
    let target := if final then t.tier else t.tier + 1
    let far := if t.state == .retrain then x.farMode || t.peer.far else t.finalFar
    d.modTrain p (fun t => { t with countdown := some ⟨target, final, far, w, 128, false⟩ })

/-- A peer that retrains with a request for more than the present width tests all eight lanes again, and this end with it: that is how
the port widens (03 R94, R98). DEDUCED: R94 names the end whose RETRAIN is written, and each lane needs both ends (log entry
17). -/
def Dev.joinRetest (d : Dev) (p : Nat) : Dev :=
  let t := (d.port p).train
  if t.state == .retrain && !t.retest && t.peer.req && decide (bits t.width 1 0 < min (d.port p).maxWidth (bits t.peer.width 1 0)) then
    (d.modTrain p (fun t => { t with retest := true, phased := false, aligned := false, alignedRun := 0 })).retestLanes p
  else d

/-- A word accepted in STEP or RETRAIN. -/
def Dev.wordTraining (d : Dev) (p lane : Nat) (w : List Byte) : Dev :=
  let b7 := byteAt w 7
  let aligned := bit b7 0
  let d := d.modTrain p (fun t =>
    { t with peer := { t.peer with far := bit (byteAt w 4) 6, width := byteAt w 6, laneGood := byteAt w 15, aligned := aligned,
                                   req := bit b7 1 } }.countAligned lane aligned)
  let d := d.joinRetest p
  let t := (d.port p).train
  if t.leader then d.agreeWord p else
  let d := if t.req && bit b7 1 then d.modTrain p (fun t => { t with req := false, reqLater := true }) else d
  let b17 := byteAt w 17
  if byteAt w 16 = 255 then d
  else d.modTrain p (fun t =>
    { t with countdown := some ⟨bits b17 1 0, bit b17 2, bit b17 3, byteAt w 6, byteAt w 16, byteAt w 16 == 0⟩ })

/-- The WAKE words of a direction that has just woken go on, up to its first link unit (03 R101). -/
def Train.waking (t : Train) : Bool := t.wakeRun == 4

/-- A WAKE word of a sleeping direction: the fourth in a row on the first active lane ends the sleep (03 R101), and those that follow
it are the same wake. -/
def Dev.wordWake (d : Dev) (p lane : Nat) : Dev :=
  d.modTrain p (fun t =>
    if t.waking then t
    else if (activeLanes t.width).head? = some lane then
      if 3 ≤ t.wakeRun then { t with rxAsleep := false, beaconEnd := none, wakeRun := 4, leaving := [] }
      else { t with wakeRun := t.wakeRun + 1, leaving := tdrop t.leaving lane }
    else { t with leaving := tdrop t.leaving lane })

/-- A word accepted in UP (03 R87): after 4 in a row on a lane the peer is going to sleep or retrains. -/
def Dev.wordUp (d : Dev) (p lane : Nat) (w : List Byte) : Dev :=
  let b7 := byteAt w 7
  let t := (d.port p).train
  if !(activeLanes t.width).contains lane then d
  else if bit b7 4 && (t.rxAsleep || (t.waking && !bit b7 3)) then d.wordWake p lane else
  let d := if (activeLanes t.width).head? = some lane then d.modTrain p (fun t => { t with wakeRun := 0 }) else d
  let run := (bit b7 3, bit b7 4) :: tgetD t.leaving lane []
  if run.length < 4 then d.modTrain p (fun t => { t with leaving := tput t.leaving lane run })
  else if run.all (fun x => x.1 && !x.2) then
    d.modTrain p (fun t => { t with rxAsleep := true, beaconEnd := none, wakeRun := 0, leaving := [] })
  else if d.gated then d else d.toRetrain p causeRequest false

/-- TRAINING_WORD_RECEIVED. A word that is not accepted breaks the runs of its lane. -/
def Dev.trainingWordReceived (d : Dev) (p lane : Nat) (w : List Byte) : Dev :=
  let d := if d.portRuns p then d.ckSeen p else d
  match (d.port p).train.state with
  | .up =>
    if goodWord w then d.wordUp p lane w
    else d.modTrain p (fun t =>
      { t with leaving := tdrop t.leaving lane,
               wakeRun := if (activeLanes t.width).head? = some lane && !t.waking then 0 else t.wakeRun })
  | .step | .retrain =>
    if d.gated then d
    else if goodWord w then d.wordTraining p lane w
    else d.modTrain p (fun t => t.countAligned lane false)
  | _ => d

def execTrainingWordReceived (p : Fin 128) (lane : Fin 8) (word : List Byte) (s : State) :
    Host.Outcome State Fault Refusal :=
  actIf (fun d => d.rxRuns p.val) (fun d => d.trainingWordReceived p.val lane.val word) s

/-! ## Lane failures (03 R96) -/

/-- LANE_PHASE_FAIL: while the direction is asleep its phase is not tracked (03 R77). -/
def Dev.lanePhaseFail (d : Dev) (p lane : Nat) : Dev :=
  let t := (d.port p).train
  if t.rxAsleep || t.state == .disabled || t.state == .detect || t.state == .backoff then d else d.laneFail p lane

def execLanePhaseFail (p : Fin 128) (lane : Fin 8) (s : State) : Host.Outcome State Fault Refusal :=
  actIf (fun d => d.portRuns p.val) (fun d => d.lanePhaseFail p.val lane.val) s

def execLaneErrorWindow (p : Fin 128) (s : State) : Host.Outcome State Fault Refusal :=
  actIf (fun d => d.portRuns p.val) (fun d => d.laneErrorWindow p.val) s

/-! ## Sleep and wake (03 R99 to R102) -/

/-- TX_SLEEP_ENTRY: SLEEP_EN is 1, nothing is owed, only idle units went out for IDLE_SLEEP, and in far mode no block is being
formed (04 R129). -/
def Dev.txSleepEntry (d : Dev) (p : Nat) : Dev :=
  let x := d.port p
  let t := x.train
  if t.state == .up && x.toll.state == .opened && x.sleepEn && !t.txAsleep && !x.needsSend && x.toll.txBlock.isEmpty &&
      decide (t.idleSince + x.idleSleep ≤ d.belfryNow (p / 32)) then d.sleepTx p
  else d

def execTxSleepEntry (p : Fin 128) (s : State) : Host.Outcome State Fault Refusal :=
  actIf (fun d => d.portRuns p.val) (fun d => d.txSleepEntry p.val) s

/-- TX_WAKE: a sleeping direction that needs to send; in P2, and while an entry is committed, none wakes (16 R492, R495). -/
def Dev.txWake (d : Dev) (p : Nat) : Dev :=
  let x := d.port p
  if x.train.state == .up && x.train.txAsleep && x.needsSend && d.lantern.entering.isNone then d.wakeTx p 16 else d

def execTxWake (p : Fin 128) (s : State) : Host.Outcome State Fault Refusal :=
  actIf (fun d => d.portRuns p.val) (fun d => d.txWake p.val) s

/-- CK_BEACON_END: the sender's CK is back at full rate (03 R101, R102). -/
def Dev.ckBeaconEnd (d : Dev) (p : Nat) : Dev :=
  let now := d.belfryNow (p / 32)
  d.modTrain p (fun t => if t.state == .up && t.rxAsleep then { t with beaconEnd := some now, wakeRun := 0, ckAt := max t.ckAt now } else t)

def execCkBeaconEnd (p : Fin 128) (s : State) : Host.Outcome State Fault Refusal :=
  actIf (fun d => d.rxRuns p.val) (fun d => d.ckBeaconEnd p.val) s

/-- WAKE_FAIL: 200 ns after the beacon's end without 4 WAKE words. -/
def Dev.wakeFail (d : Dev) (p : Nat) : Dev :=
  let t := (d.port p).train
  match t.beaconEnd with
  | some b =>
    if t.state == .up && t.rxAsleep && decide (b + 200 ≤ d.belfryNow (p / 32)) then
      (d.count (Ctr.wakeFails p)).toRetrain p causeRequest false
    else d
  | none => d

def execWakeFail (p : Fin 128) (s : State) : Host.Outcome State Fault Refusal :=
  actIf (fun d => d.portRuns p.val) (fun d => d.wakeFail p.val) s

/-- SLEEP_REFRESH: after 10 ms asleep, 256 WAKE words, and sleep again if still idle. -/
def Dev.sleepRefresh (d : Dev) (p : Nat) : Dev :=
  let t := (d.port p).train
  if t.state == .up && t.txAsleep && decide (t.txSince + 10000000 ≤ d.belfryNow (p / 32)) then
    let d := d.wakeTx p 256
    if (d.port p).needsSend then d else d.sleepTx p
  else d

def execSleepRefresh (p : Fin 128) (s : State) : Host.Outcome State Fault Refusal :=
  actIf (fun d => d.portRuns p.val) (fun d => d.sleepRefresh p.val) s

/-! ## Limp mode (03 R103, R104) -/

/-- The code groups of each active lane decoded, in the lanes' running disparities. -/
def Dev.decodeLanes (d : Dev) (p : Nat) : List Nat → List Groups → Dev × List (List Sym)
  | l :: ls, g :: gs =>
    let r := decodeGroups ((d.port p).train.lane l).rd g
    let t := (d.modTrain p (fun t => t.modLane l (fun x => { x with rd := r.2 }))).decodeLanes p ls gs
    (t.1, r.1 :: t.2)
  | _, _ => (d, [])

/-- The 136 bytes of a frame from what its lanes carried: SFF on every lane in one slot, data, EFF; none for a frame that ends
with ABT or that is not of this form (03 R103). -/
def frameOf (lanes : List (List Sym)) : Option (List Byte) :=
  let w := lanes.length
  let body (l : List Sym) : Option (List Byte) :=
    match l with
    | .k s :: rest => if s == 0xFB && rest.getLast? == some (.k 0xFD) then dataBytes rest.dropLast else none
    | _ => none
  let shares := lanes.map (fun l => (body l).getD [])
  if w = 0 ∨ !lanes.all (fun l => (body l).isSome && l.length == 2 + 136 / w) then none
  else some ((List.range 136).map (fun i => (shares.getD (i % w) []).getD (i / w) 0))

/-- LIMP_FRAME_RECEIVED: what each active lane carried, in ascending order. A good frame's flit goes to Belfry; any other frame is
dropped and counted. DESIGN CHOICE: so is a frame whose header names a VC outside 16 to 19 or has a reserved bit set, since R103 gives
it no other form (log entry 17). -/
def Dev.limpFrameReceived (d : Dev) (p : Nat) (lanes : List Groups) : Dev :=
  if (d.port p).train.state != .limp then d else
  let active := activeLanes (d.port p).train.width
  let (d, syms) := (d.ckSeen p).decodeLanes p active lanes
  let bad := syms.any codeError
  let d := if bad then d.count (Ctr.t0CodeErrors p) else d
  match if bad || lanes.length != active.length then none else frameOf syms with
  | none => d.count (Ctr.limpFrameDrops p)
  | some b =>
    let hdr := field b 0 4
    if crc32 (b.take 132) != field b 132 4 || decide (hdr < 16 ∨ 19 < hdr) then d.count (Ctr.limpFrameDrops p)
    else d.releaseFlit p false hdr (sliceBytes b 4 128)

def execLimpFrameReceived (p : Fin 128) (lanes : List Groups) (s : State) : Host.Outcome State Fault Refusal :=
  actIf (fun d => d.portRuns p.val) (fun d => d.limpFrameReceived p.val lanes) s

/-- FC_RECEIVED: the stop bits of a valid FC set of an active lane (03 R85); bits [23:20] are not read. -/
def Dev.fcReceived (d : Dev) (p lane : Nat) (groups : Groups) : Dev :=
  let (d, o) := d.receiveSet p lane groups
  let t := (d.port p).train
  if t.state != .limp || !(activeLanes t.width).contains lane then d else
  match o.bind (setBody symFc) with
  | some b => d.modToll p (fun t => { t with peerStop := field b 0 3 % 2 ^ 20 })
  | none => d

def execFcReceived (p : Fin 128) (lane : Fin 8) (groups : Groups) (s : State) : Host.Outcome State Fault Refusal :=
  actIf (fun d => d.portRuns p.val) (fun d => d.fcReceived p.val lane.val groups) s

/-- LIMP_FC_SEND: on a change of a stop bit, and every 4 µs. -/
def Dev.limpFcSend (d : Dev) (p : Nat) : Dev :=
  let x := d.port p
  let t := x.train
  let now := d.belfryNow (p / 32)
  if t.state == .limp && (x.stopSent != t.fcStop || decide (t.fcAt + 4000 ≤ now)) then
    let d := (forEach (activeLanes t.width) (fun l d => d.sendT0 p l (fcSet x.stopSent t.seq)) d).takeLanes p 16
    d.modTrain p (fun t => { t with fcAt := now, fcStop := x.stopSent, seq := (t.seq + 1) % 256 })
  else d

def execLimpFcSend (p : Fin 128) (s : State) : Host.Outcome State Fault Refusal :=
  actIf (fun d => d.portRuns p.val) (fun d => d.limpFcSend p.val) s

/-- LIMP_RETRY: after 1 s in LIMP a step to T1, which is then the final tier. -/
def Dev.limpRetry (d : Dev) (p : Nat) : Dev :=
  let t := (d.port p).train
  if t.state == .limp && decide (t.since + 1000000000 ≤ d.belfryNow (p / 32)) then
    ((d.liftExclusions p).modTrain p (fun t => { t with finalTier := 1, limpTry := true })).toStep p 1 t.width
  else d

def execLimpRetry (p : Fin 128) (s : State) : Host.Outcome State Fault Refusal :=
  actIf (fun d => d.portRuns p.val) (fun d => d.limpRetry p.val) s

end Sys2Proof.Machine
end

