-- ==== Sys2Proof/Machine/Host.lean ====
section
/-! DEFINITION. Gatehouse's shared operations (07): tags and upstream requests, completions' faults, interrupts, the
event summary and wakes, the endpoint's own BARs, and where the carve-outs of HBM lie. -/

namespace Sys2Proof.Machine

/-! ## HBM carve-outs (01 R44, 09 R276) -/

/-- Size of the host-visible remainder, at the bottom of the stack. -/
def Carve.remainder (c : Carve) : Nat :=
  2 ^ 34 - (2 ^ 28 * (c.ux + c.scratch + 1) + 2 ^ 29 * c.spill + 2 ^ 30 * c.tables)

/-- Size of one endpoint's table quarter; the quarters follow the remainder. -/
def Carve.quarter (c : Carve) : Nat := 2 ^ 28 * c.tables
def Dev.quarterBase (d : Dev) (e : Nat) : Nat :=
  let c := (d.region (regionOf e)).carve
  c.remainder + (e % 4) * c.quarter

/-! ## Tags and upstream requests (07 R201, R217, R218) -/

/-- The device's completion timeout in ns (R201). -/
def PciCfg.timeout (c : PciCfg) : Nat :=
  match c.cplTimeout with
  | 1 => 100000
  | 2 => 10000000
  | 5 => 55000000
  | 6 => 210000000
  | _ => 50000000

/-- The gate is in RUN: everything is issued upstream (R210). -/
def Dev.epRuns (d : Dev) (e : Nat) : Bool := (d.ep e).state == .run

/-- Tags that the enabled tag size gives (R198), and the sizes that Device Control sets. -/
def PciCfg.tags (c : PciCfg) : Nat :=
  match c.tagSize with
  | 0 => 256
  | 1 => 1024
  | _ => 8192
def PciCfg.payloadMax (c : PciCfg) : Nat := 128 * 2 ^ min c.maxPayload 2
def PciCfg.readMax (c : PciCfg) : Nat := 128 * 2 ^ min c.maxRead 5

/-- The next free tag, in the order in which tags became free (R218). DESIGN CHOICE: the spec gives the tags no order at reset;
those never issued are taken ascending from 0, before any tag that was freed (log entry 26). -/
def Endpoint.takeTag (x : Endpoint) : Option (Nat × Endpoint) :=
  if x.freshTag < x.cfg.tags then some (x.freshTag, { x with freshTag := x.freshTag + 1 })
  else (takeFirst (fun t => decide (t < x.cfg.tags)) x.freedTags).map (fun r => (r.1, { x with freedTags := r.2 }))

/-- The endpoint has had something to send or something outstanding now (R222). -/
def Dev.touchEp (d : Dev) (e : Nat) : Dev :=
  let now := d.gateNow e
  d.modEp e (fun x => { x with busyAt := now, l1 := false })

/-- A completion that the device sends for a host's read: data, or none for Unsupported Request. It is something to send (R222). -/
def Dev.sendData (d : Dev) (e : Nat) (data : Option (List Byte)) : Dev := (d.touchEp e).emit (.readData e data)

/-- AER and Device Status record an error by its bit of Uncorrectable Error Status (log entry 3). -/
def PciCfg.logError (c : PciCfg) (bit : Nat) (advisory unsupported : Bool) : PciCfg :=
  let fatal := c.aer.uncSeverity.getLsbD bit
  let kind : BitVec 4 := if fatal then 4 else if advisory then 1 else 2
  { c with errStatus := c.errStatus ||| kind ||| (if unsupported then 8 else 0),
           aer := { c.aer with uncStatus := c.aer.uncStatus ||| (1 <<< bit),
                               corStatus := if advisory && !fatal then c.aer.corStatus ||| 0x2000 else c.aer.corStatus } }
def Dev.logError (d : Dev) (e bit : Nat) (advisory unsupported : Bool) : Dev :=
  d.modEp e (fun x => { x with cfg := x.cfg.logError bit advisory unsupported })

/-- A read that completes with Unsupported Request. -/
def Dev.sendUr (d : Dev) (e : Nat) : Dev := (d.logError e 20 true true).sendData e none

/-- A wanted request issued under a tag. A completion of an AtomicOp has Lower Address 0. -/
def Dev.issueWant (d : Dev) (e t : Nat) (w : WantTag) : Dev :=
  let silent := match w.who with
    | .walk id => ((d.ep e).walks.any (fun k => k.1 == id && k.2.who == .spec))
    | _ => false
  let low := if w.atomic.isSome then 0 else w.addr % 128
  let tag : Tag := { tag := t, use := w.use, who := w.who, reading := w.reading, issued := d.gateNow e, byteCount := w.len,
                     lowerAddr := low, got := [], late := false, failed := false, silent := silent, space := w.space }
  let d := (d.touchEp e).modEp e (fun x => { x with tags := x.tags ++ [tag] })
  match w.atomic with
  | none => d.emit (.hostRead e t w.addr w.len w.use)
  | some (op, v, c) => d.emit (.hostAtomic e t op w.len w.addr v c)

/-- A non-posted request: issued when a tag is free and nothing waits before it, and waiting otherwise; outside
RUN it is never issued (R213). -/
def Dev.request2 (d : Dev) (e : Nat) (w : WantTag) : Dev :=
  let x := d.ep e
  if !d.epRuns e then d else
  match if x.wantTags.isEmpty then x.takeTag else none with
  | some (t, y) => (d.setEp e y).issueWant e t w
  | none => d.modEp e (fun x => { x with wantTags := x.wantTags ++ [w] })

/-- The requests that read a range of bus addresses: none is longer than `size` or crosses a 4 KiB boundary (R198). -/
def requests (size : Nat) : Nat → Nat → Nat → List (Nat × Nat)
  | 0, _, _ => []
  | n + 1, a, len =>
    if len = 0 then [] else
    let k := min len (min size (4096 - a % 4096))
    (a, k) :: requests size n (a + k) (len - k)

/-- A read of some ranges begins: its requests are issued in order, the next one when the one before has ended (log entry
50). `space` is the PASID and key slot of its translation. -/
def Dev.startRead (d : Dev) (e : Nat) (use : Use) (who : Who) (space : Option (Nat × Option Nat)) (ps : List (Nat × Nat)) : Dev :=
  if !d.epRuns e then d else
  match ps.flatMap (fun p => requests (d.ep e).cfg.readMax (p.2 / 64 + 2) p.1 p.2) with
  | [] => d
  | (a, n) :: rest =>
    let id := d.nextId
    let d := d.takeId.modEp e (fun x => { x with readings := x.readings ++ [⟨id, who, use, rest, [], space⟩] })
    d.request2 e ⟨use, who, some id, space, a, n, none⟩

/-- An AtomicOp under a tag. -/
def Dev.startAtomic (d : Dev) (e : Nat) (who : Who) (space : Option (Nat × Option Nat)) (op : HostOp) (width addr v c : Nat) : Dev :=
  d.request2 e ⟨.atomic, who, none, space, addr, width, some (op, v, c)⟩

/-- A unit reads now. -/
def Endpoint.reads (x : Endpoint) (who : Who) : Bool := x.readings.any (fun r => r.who == who)

/-- Reads that no unit waits for any more: what is not issued is not issued, and what comes back is dropped. -/
def Endpoint.dropReads (x : Endpoint) (p : Who → Bool) : Endpoint :=
  { x with readings := x.readings.filter (fun r => !p r.who), wantTags := x.wantTags.filter (fun w => !(p w.who && w.reading.isSome)) }
def Dev.dropReads (d : Dev) (e : Nat) (p : Who → Bool) : Dev := d.modEp e (fun x => x.dropReads p)

/-- Requests that wait for a tag take the free ones while the gate is in RUN. -/
def Dev.serveWants : Nat → Dev → Nat → Dev
  | 0, d, _ => d
  | n + 1, d, e =>
    let x := d.ep e
    if !d.epRuns e then d else
    match x.wantTags, x.takeTag with
    | w :: ws, some (t, y) => Dev.serveWants n ((d.setEp e { y with wantTags := ws }).issueWant e t w) e
    | _, _ => d

/-- A tag becomes free. -/
def Dev.freeTag (d : Dev) (e t : Nat) : Dev :=
  let d := (d.touchEp e).modEp e (fun x =>
    { x with tags := x.tags.filter (fun g => g.tag != t), freedTags := x.freedTags ++ [t] })
  Dev.serveWants 1 d e

/-- How a failed request is reported (R201, R556). -/
def Dev.reportRes (d : Dev) (e : Nat) (res : HostRes) : Dev :=
  match res with
  | .timeout => (((d.count (Ctr.cplTimeouts e)).logError e 14 false false).emit (.aer e 0)).raise (Isl.gate (e / 2)) (Src.ep e 3) 0 0
  | .poison => (d.logError e 12 false false).emit (.aer e 2)
  | .ok _ | .ur | .ca => d

/-- The writes that carry some bytes, none longer than `size`. -/
def writeParts (size : Nat) : Nat → Nat → List Byte → List (Nat × List Byte)
  | 0, a, b => [(a, b)]
  | n + 1, a, b => if b.length ≤ size then [(a, b)] else (a, b.take size) :: writeParts size n (a + size) (b.drop size)

/-- A posted write, cut at Max Payload Size (R198); Relaxed Ordering only where payload is placed (R219). -/
def Dev.hostWrite (d : Dev) (e addr : Nat) (data : List Byte) (payload : Bool) (use : Use) : Dev :=
  let c := (d.ep e).cfg
  forEach (writeParts c.payloadMax (data.length / 128) addr data)
    (fun p d => d.emit (.hostWrite e p.1 p.2 (payload && c.relaxed) use)) (d.touchEp e)

/-! ## The endpoint's own BARs (09 R275) -/

def overlaps (a n b m : Nat) : Bool := decide (a < b + m ∧ b < a + n)

/-- Whether any of `n` bytes at a bus address lies in BAR0, BAR2 or BAR4. -/
def Endpoint.inOwnBar (x : Endpoint) (a n : Nat) : Bool :=
  x.cfg.memEnable && (overlaps a n x.cfg.bar0 (2 ^ 25) || overlaps a n x.cfg.bar2 (2 ^ 24) || overlaps a n x.cfg.bar4 (2 ^ 34))

/-! ## Interrupts and wakes (07 R214, R220, R221) -/

def Endpoint.vector (x : Endpoint) (v : Nat) : Msix := tgetD x.msix v Msix.reset

/-- An MSI-X message of a vector: sent in RUN when its vector is unmasked, and otherwise its pending bit is set. -/
def Dev.sendVector (d : Dev) (e v : Nat) : Dev :=
  let x := d.ep e
  if !x.cfg.msixEnable then d
  else if d.epRuns e && !x.cfg.functionMask && !(x.vector v).masked then (d.touchEp e).emit (.msix e v)
  else d.modEp e (fun x => { x with msixPending := putBit x.msixPending v true })

/-- The pending messages that may be sent are sent, in ascending order of vector. -/
def Dev.flushVectors (d : Dev) (e : Nat) : Dev :=
  let x := d.ep e
  if !(d.epRuns e && x.cfg.msixEnable && !x.cfg.functionMask) then d else
  forEach ((setBits x.msixPending 2048).filter (fun v => !(x.vector v).masked)) (fun v d =>
    ((d.touchEp e).modEp e (fun x => { x with msixPending := putBit x.msixPending v false })).emit (.msix e v)) d

/-- INTA follows EVT_PENDING while MSI-X and Interrupt Disable are 0, in the states that may send it (R210, R220). -/
def Dev.syncInta (d : Dev) (e : Nat) : Dev :=
  let x := d.ep e
  let want := x.evtPending && !x.cfg.msixEnable && !x.cfg.intxDisable
  let may := x.state == .run || x.state == .halted || x.state == .stopped
  if may && want != x.inta then ((d.touchEp e).modEp e (fun x => { x with inta := want })).emit (.inta e want) else d

/-- A wake condition of an endpoint (R221). -/
def Dev.wakeCondition (d : Dev) (e : Nat) : Dev :=
  let x := d.ep e
  if !x.cfg.pmeEn then d
  else if x.state = .d3hot then
    ((d.touchEp e).modEp e (fun x => { x with cfg := { x.cfg with pmeStatus := true } })).emit (.pme e)
  else if x.state = .down ∧ x.d3cold then d.modGate (e / 2) (fun g => { g with wakeLow := true })
  else d

/-- EVT_MAP of a source; its reset value is R547's. -/
def Dev.evtMap (d : Dev) (s : Nat) : Nat := tgetD d.events.map s 0x6400000050

/-- EVT_PENDING of an endpoint (18 R548). -/
def Dev.summary (d : Dev) (e : Nat) : Bool :=
  (setBits d.events.pending 1408).any (fun s => bits (d.evtMap s) 3 0 == e && bit (d.evtMap s) 4)

/-- EVT_PENDING of an endpoint brought up to date, with its message, INTA or wake (R220, R221). -/
def Dev.refreshSummary (d : Dev) (e : Nat) : Dev :=
  let x := d.ep e
  let p := d.summary e
  if p == x.evtPending then d else
  let d := d.modEp e (fun x => { x with evtPending := p })
  if p then ((d.sendVector e (rbits x.gateCtrl 26 16)).syncInta e).wakeCondition e else d.syncInta e

def Dev.refreshSummaries (d : Dev) : Dev := forEach (List.range 16) (fun e d => d.refreshSummary e) d

end Sys2Proof.Machine
end

