-- ==== Sys2Proof/Machine/Records.lean ====
section
/-! DEFINITION. Completion and event records (08 R252 to R258, R557), the completion of an entry, IDLE and halted
queues (R260, R261). -/

namespace Sys2Proof.Machine

/-! ## Fields (08 R233, R235, R242) -/

def Sq.super (q : Sq) : Bool := rbit q.cfg 1
def Sq.log (q : Sq) : Nat := rbits q.cfg 5 2
def Sq.prio (q : Sq) : Nat := rbits q.cfg 7 6
def Sq.cqn (q : Sq) : Nat := rbits q.cfg 20 8
def Sq.pasid (q : Sq) : Nat := rbits q.cfg 40 21
def Sq.enable (q : Sq) : Bool := rbit q.cfg 0
/-- Bus address of slot 0 of a ring. -/
def ringAddr (base : Reg) : Nat := 4096 * bits base.toNat 63 12

def Cq.enable (c : Cq) : Bool := rbit c.cfg 0
def Cq.log (c : Cq) : Nat := rbits c.cfg 4 1
def Cq.vec (c : Cq) : Nat := rbits c.cfg 15 5
def Cq.msix (c : Cq) : Bool := rbit c.cfg 16

/-- Distance between two indexes, modulo 65,536 (R227). -/
def idxDist (a b : Nat) : Nat := (b + 65536 - a % 65536) % 65536

/-- Fields of an entry's header (R242). -/
def entOp (b : List Byte) : Nat := byteAt b 0
def entSize (b : List Byte) : Nat := bits (byteAt b 1) 3 0
def entComplete (b : List Byte) : Bool := bit (byteAt b 1) 4
def entFence (b : List Byte) : Bool := bit (byteAt b 1) 5
def entSub (b : List Byte) : Nat := byteAt b 2
def entFlags (b : List Byte) : Nat := byteAt b 3
def entDest (b : List Byte) : Nat := field b 4 4

/-! ## Writing records (R255, R256) -/

/-- The PHASE of record n of a ring. -/
def phaseOf (n log : Nat) : Nat := 1 - (n >>> log) % 2

/-- Bytes 0 to 30 of a record, with the PHASE that position `n` takes. -/
def withPhase (b : List Byte) (n log : Nat) : List Byte := sliceBytes b 0 31 ++ leBytes 1 (128 * phaseOf n log)

/-- ARMED with unread records: the interrupt fires and disarms (R256). -/
def Dev.fireCq (d : Dev) (e c : Nat) : Dev :=
  let q := (d.ep e).cq c
  if q.armed && q.pi != q.ci then
    let d := d.modCq e c (fun q => { q with armed := false })
    if q.msix then d.sendVector e q.vec else d
  else d

def Dev.fireEq (d : Dev) (e k : Nat) : Dev :=
  let q := (d.ep e).eq k
  if q.armed && q.pi != q.ci then
    let d := d.modEq e k (fun q => { q with armed := false })
    if q.msix then d.sendVector e q.vec else d
  else d

/-- A record written at the PI of a CQ; its reservation ends (R239, R255). -/
def Dev.cqWrite (d : Dev) (e c : Nat) (b : List Byte) : Dev :=
  let q := (d.ep e).cq c
  let d := d.hostWrite e (ringAddr q.base + 32 * (q.pi % 2 ^ q.log)) (withPhase b q.pi q.log) false .record
  (d.modCq e c (fun q => { q with pi := (q.pi + 1) % 65536, reserved := q.reserved - 1 })).fireCq e c

/-- A reservation released with no record written (R239). -/
def Dev.cqRelease (d : Dev) (e c : Nat) : Dev := d.modCq e c (fun q => { q with reserved := q.reserved - 1 })

/-- One event record written at the PI of an EQ. -/
def Dev.eqPut (d : Dev) (e k : Nat) (b : List Byte) : Dev :=
  let q := (d.ep e).eq k
  let d := d.hostWrite e (ringAddr q.base + 32 * (q.pi % 2 ^ q.log)) (withPhase b q.pi q.log) false .record
  d.modEq e k (fun q => { q with pi := (q.pi + 1) % 65536 })

/-- An event record for an EQ (R258): bytes 0 to 30. One that covers injected raises alone is not `counted` (18 R554). -/
def Dev.eqRecord (d : Dev) (e k : Nat) (b : List Byte) (counted : Bool) : Dev :=
  let q := (d.ep e).eq k
  let tally (n : Nat) (d : Dev) : Dev := if counted then d.count n else d
  if !q.enable || !d.epRuns e then tally (Ctr.recordsDiscarded e) d
  else if 2 ^ q.log - 2 < idxDist q.ci q.pi then
    (tally (Ctr.eqOverflows e) (d.modEq e k (fun q => { q with ovf := true, lost := q.lost + 1 }))).raise
      (Isl.gate (e / 2)) (Src.ep e 5) 0 k
  else
    let d := if q.ovf then
        (d.eqPut e k (leBytes 1 0x7F ++ leBytes 4 q.lost ++ zeros 26)).modEq e k (fun q => { q with ovf := false, lost := 0 })
      else d
    (d.eqPut e k b).fireEq e k

/-! ## Completions (R238, R252, R557) -/

/-- SUCCESS, and a status with no bytes and no detail. -/
def Fin8.ok (n : Nat) : Fin8 := ⟨0, n, 0, 0, 0⟩
def Fin8.status' (s detail : Nat) : Fin8 := ⟨s, 0, 0, 0, detail⟩

/-- The 31 bytes of a completion record (R252). -/
def recordOf (sqn : Nat) (entry : List Byte) (f : Fin8) : List Byte :=
  sliceBytes entry 8 8 ++ leBytes 4 f.bytes ++ leBytes 2 sqn ++ leBytes 1 (entOp entry) ++ leBytes 1 f.status ++
    leBytes 8 f.result ++ leBytes 4 f.rank ++ leBytes 2 f.detail ++ zeros 1

/-- A queue enters HALTED (R260), from the states that lead there. -/
def Dev.haltQueue (d : Dev) (e q : Nat) : Dev :=
  let st := (d.sq e q).state
  if st = .active ∨ st = .draining ∨ st = .stopped then d.modSq e q (fun s => { s with state := .halted }) else d

/-- An accepted entry of a queue that has not completed. -/
def Sq.entry (s : Sq) (id : Nat) : Option Accepted := s.work.find? (fun a => a.id == id)

/-- The entry leaves the queue's work. -/
def Sq.dropEntry (s : Sq) (id : Nat) : Sq := { s with work := s.work.filter (fun a => a.id != id) }

/-- An entry completes (R238, R239, R252), at the CQ that holds its slot. A record that falls due outside RUN is not written:
the entry stays, and its queue is HALTED (R557); an entry of a HALTED queue is parked (R259). An entry already abandoned is
left alone. -/
def Dev.complete (d : Dev) (e q id : Nat) (f : Fin8) : Dev :=
  let s := d.sq e q
  match s.entry id with
  | none => d
  | some a =>
    let silent := f.status == 0 && !entComplete a.bytes
    if silent && s.state != .halted then (d.modSq e q (fun s => s.dropEntry id)).cqRelease e a.cq
    else if !d.epRuns e || s.state == .halted then
      (d.modSq e q (fun s => { s with work := modWhere (fun a => a.id == id) (fun a => { a with due := some f }) s.work })).haltQueue e q
    else (d.modSq e q (fun s => s.dropEntry id)).cqWrite e a.cq (recordOf q a.bytes f)

/-! ## IDLE (R261) -/

/-- A fetch of the queue is outstanding. -/
def Endpoint.fetching (x : Endpoint) (q : Nat) : Bool := x.reads (.ring q) || x.reads (.chain q)

/-- IDLE: no fetch is outstanding and every accepted entry but POSTED receives has completed. DESIGN CHOICE: an entry fetched and not
yet accepted keeps IDLE at 0 too; R261 names only the other two (log entry 28). -/
def Endpoint.idle (x : Endpoint) (q : Nat) : Bool :=
  let s := x.sq q
  !x.fetching q && s.held.isNone && s.chain.isNone && s.work.all (fun a => a.posted)

/-- Queues of an endpoint, by number, that differ from their reset record. -/
def Endpoint.sqNumbers (x : Endpoint) : List Nat := x.sqs.map (fun p => p.1)

/-- Every queue that a test holds enters HALTED; the number that did. -/
def Dev.haltQueues (d : Dev) (e : Nat) (p : Nat → Bool) : Dev × Nat :=
  let qs := (d.ep e).sqNumbers.filter (fun q =>
    let s := d.sq e q
    p q && (s.state == .active || s.state == .draining || s.state == .stopped))
  (forEach qs (fun q d => d.haltQueue e q) d, qs.length)

end Sys2Proof.Machine
end

