-- ==== Sys2Proof/Machine/Send.lean ====
section
/-! DEFINITION. What the device's units inject: FENs and epochs (15 R469, R473), ENDPOINT requests (10 R301 to R303)
and responses (R304), with the refusals of 07 R223. -/

namespace Sys2Proof.Machine

/-- The FEN an endpoint sends under: the twin's for an alias endpoint (15 R469). -/
def Dev.localFen (d : Dev) (e : Nat) : Nat :=
  let c := (d.region (regionOf e)).chip
  match if c.altValid then (List.range 16).find? (fun t => d.twin.mapped t == some e) else none with
  | some t => fenOf c.altRouterId t
  | none => fenOf c.routerId e

/-- SRC_EPOCH of a packet this device originates (15 R469). -/
def Dev.epochFor (d : Dev) (r fen : Nat) : Nat :=
  let c := (d.region r).chip
  if c.altValid && fenRouter fen == c.altRouterId then d.twin.epochAlt else d.twin.epochOwn

def Dev.fenced (d : Dev) : Bool := d.twin.state == .fenced

/-- A packet of a unit, injected at a crossbar port; a FENCED device injects none of classes 0–3 (15 R473).
What the Warden sends to a region that is stopped or in reset is discarded and counted in the chip (01 R34). -/
def Dev.send (d : Dev) (r x : Nat) (h : Hdr) (payload : List Byte) : Dev :=
  if d.fenced && decide (h.cls ≤ 3) then d
  else if x = 63 && !d.regionRuns r then d.count Ctr.chipCrossingDrops
  else d.emit (.packet r x (mkPacket { h with srcEpoch := d.epochFor r h.srcFen } payload))

/-- What counts packets sent counts none that a FENCED device does not inject. -/
def Dev.countSent (d : Dev) (ctr : Nat) : Dev := if d.fenced then d else d.count ctr

/-- A packet injected for a gate, at its own crossbar port (01 R36). -/
def Dev.sendEp (d : Dev) (e : Nat) (h : Hdr) (payload : List Byte) : Dev :=
  d.send (regionOf e) (56 + e / 2 % 2) h payload

end Sys2Proof.Machine

namespace Sys2Proof
open Machine

/-- The OPCODE byte of an ENDPOINT packet (10 R301). -/
def opByte (op : Nat) (sync : Bool) (attempt : Nat) : Nat := op + 32 * b2n sync + 64 * (attempt % 4)
def Hdr.op (h : Hdr) : Nat := bits h.opcode 4 0
def Hdr.sync (h : Hdr) : Bool := bit h.opcode 5
def Hdr.attempt (h : Hdr) : Nat := bits h.opcode 7 6

/-- GET_BYTES of a GET_REQ and of an RNDV_GET (10 R303, 11 R336). -/
def Hdr.getBytes (h : Hdr) : Nat := if h.op = 0x12 then bits h.ext 12 0 else bits h.operand 12 0

/-- AOP, WIDE and FETCH of an ATOMIC (10 R303). -/
def Hdr.aop (h : Hdr) : Nat := bits h.operand 3 0
def Hdr.wide (h : Hdr) : Bool := bit h.operand 4

/-- The bytes a request names (10 R306), and those a REFUSE of it reports. -/
def Packet.named (p : Packet) : Nat :=
  match p.hdr.op with
  | 0x00 | 0x10 => p.payload.length
  | 0x01 | 0x12 => p.hdr.getBytes
  | 0x02 => if p.hdr.wide then 16 else 8
  | 0x03 => 8
  | _ => 0

/-- Fields of a response (10 R304). -/
def Hdr.rBytes (h : Hdr) : Nat := bits h.ext 31 0
def Hdr.rStatus (h : Hdr) : Nat := bits h.ext 39 32
def Hdr.rDetail (h : Hdr) : Nat := bits h.ext 55 40
def Hdr.rEcho (h : Hdr) : Bool := bit h.ext 56
def Hdr.rHold (h : Hdr) : Nat := bits h.ext 95 64
def Hdr.rMap (h : Hdr) : Nat := bits h.ext 191 128
def respExt (bytes status detail : Nat) (echo : Bool) (hold mid map : Nat) : Nat :=
  pack [(bytes, 32), (status, 8), (detail, 16), (b2n echo, 1), (0, 7), (hold, 32), (mid, 32), (map, 64)]

/-- A response to a request (10 R304): FENs and endpoint indexes swapped, MSG_SEQ, MSG_LEN and ATTEMPT copied. -/
def Hdr.answer (h : Hdr) (op off ext : Nat) : Hdr :=
  { dstFen := h.srcFen, srcFen := h.dstFen, cls := 1, unit := 0, opcode := opByte op false h.attempt, dstEpi := h.srcEpi,
    srcEpi := h.dstEpi, msgSeq := h.msgSeq, msgLen := h.msgLen, msgOff := off, ext := ext }

end Sys2Proof

namespace Sys2Proof.Machine

/-- The endpoint an arrived ENDPOINT packet is for; the one its FEN names when TWIN_MAP has no entry (15 R468). -/
def Dev.targetEp (d : Dev) (r : Nat) (h : Hdr) : Nat := (d.endpointOf r h.dstFen).getD (fenEp h.dstFen)

/-- The target takes requests and responses: it is in RUN, exists, and TWIN_MAP names it (07 R223, R224). -/
def Dev.targetUp (d : Dev) (r : Nat) (h : Hdr) : Bool :=
  match d.endpointOf r h.dstFen with
  | some e => d.epExists e && d.epRuns e
  | none => false

/-- A REFUSE (10 R302, R312): never coalesced. -/
def Dev.refuse (d : Dev) (e : Nat) (p : Packet) (status detail : Nat) : Dev :=
  d.sendEp e (p.hdr.answer 0x0C p.hdr.msgOff (respExt p.named status detail p.hdr.cmark 0 0 0)) []

/-- A REFUSE of the gate check (07 R223), with its wake condition (R221). -/
def Dev.refuseGate (d : Dev) (e : Nat) (p : Packet) (status detail : Nat) : Dev :=
  let d := (d.countSent (Ctr.refusalsSent e)).refuse e p status detail
  if rbit (d.ep e).gateCtrl 1 && ((d.ep e).state == .d3hot || (d.ep e).state == .down) then d.wakeCondition e else d

/-- A RETRY_LATER (10 R315). -/
def Dev.retryLater (d : Dev) (e : Nat) (p : Packet) : Dev := (d.countSent (Ctr.refusalsRetryLater e)).refuse e p 0x80 0

end Sys2Proof.Machine
end

