-- ==== Sys2Proof/Machine/Translate.lean ====
section
/-! DEFINITION. Surveyor's translation (09 R270 to R283): the cache, the walk of R274 as far as it goes without a read, and
speculative walks. A walk that needs a read, of the host or of HBM, stays in `Endpoint.walks` until the read ends. -/

namespace Sys2Proof.Machine

/-! ## Fields and addresses (R272, R276) -/

/-- Fault kinds (R279). -/
def fNotPresent : Nat := 1
def fPermission : Nat := 2
def fFormat : Nat := 3
def fAddress : Nat := 4
def fPasid : Nat := 5
def fBus : Nat := 6
def fTarget : Nat := 7

/-- A canonical virtual address. -/
def canonical (va : Nat) : Bool := bits va 63 47 == 0 || bits va 63 47 == 2 ^ 17 - 1

/-- Index of `va` at a level, and the address bits that select an entry of that level. -/
def levelIndex (va level : Nat) : Nat := bits va (9 * level + 11) (9 * level + 3)
def levelKey (va level : Nat) : Nat := bits va 47 (9 * level + 3)

def Endpoint.logPasids (x : Endpoint) : Nat := min 20 (rbits x.pasidBase 6 2)

/-- Whether a table, context or page of `n` bytes may be where it is (R275, R276). -/
def Dev.placeOk (d : Dev) (e : Nat) (inHbm : Bool) (a n : Nat) : Bool :=
  if inHbm then decide (a < (d.region (regionOf e)).carve.quarter) else !(d.ep e).inOwnBar a n

/-! ## Permissions (R274) -/

/-- READ, WRITE, EXEC and USER of an entry, in bits 0 to 3. -/
def entryPerms (e : Nat) : Nat := bits e 4 1

def permits (perms : Nat) (device : Bool) (k : Kind) (user : Bool) : Bool :=
  (match k with
   | .read => bit perms 0
   | .write => bit perms 1
   | .atomic => bit perms 0 && bit perms 1 && !device
   | .exec => bit perms 2 && !device) && (!user || bit perms 3)

/-! ## The cache (R281) -/

/-- A leaf of a PASID that maps an address: page base, size as log2, permissions, DEVICE. DESIGN CHOICE: a lookup matches every tag
of a leaf, so that one loaded under a key slot serves the accesses of that slot alone (log entry 29). -/
def leafFor (pasid va : Nat) (key : Option Nat) (c : CacheEntry) : Option (Nat × Nat × Nat × Bool) :=
  match c.what with
  | .leaf page size pa perms device k =>
    if c.pasid == pasid && k == key && page == va / 2 ^ size then some (pa, size, perms, device) else none
  | _ => none

def Endpoint.findLeaf (x : Endpoint) (pasid va : Nat) (key : Option Nat) : Option (Nat × Nat × Nat × Bool) :=
  x.cache.findSome? (leafFor pasid va key)

/-- A context, or the table entry of a level, of a PASID and an address. -/
def tableFor (pasid va level : Nat) (c : CacheEntry) : Option Nat :=
  if c.pasid != pasid then none else
  match c.what with
  | .context raw => if level = 5 then some raw else none
  | .table l i raw => if l = level ∧ i = levelKey va level then some raw else none
  | .leaf _ _ _ _ _ _ => none
def Endpoint.findTable (x : Endpoint) (pasid va level : Nat) : Option Nat := x.cache.findSome? (tableFor pasid va level)

/-- Entries of a region's cache that hold translations, beside the pinned key slots, and those in use. -/
def Dev.cacheRoom (d : Dev) (r : Nat) : Nat := 30720 - 1024 * (b2n (d.bifurcated (2 * r)) + b2n (d.bifurcated (2 * r + 1)))
def Dev.cacheUsed (d : Dev) (r : Nat) : Nat := (epsOf r).foldl (fun n e => n + (d.ep e).cache.length) 0

/-- The n-th entry of some endpoints' caches, taken together, is put out. -/
def Dev.evictAt (d : Dev) : List Nat → Nat → Dev
  | [], _ => d
  | e :: es, n =>
    let k := (d.ep e).cache.length
    if n < k then d.modEp e (fun x => { x with cache := x.cache.eraseIdx n }) else d.evictAt es (n - k)

/-- A new entry; a full cache puts one out for it, a free choice (R281). -/
def Dev.fill (d : Dev) (e pasid : Nat) (w : Cached) : Dev :=
  let r := regionOf e
  let n := d.cacheUsed r
  let d := if d.cacheRoom r ≤ n then (d.evictAt (epsOf r) (Config.victim d.free % n)).draw else d
  d.modEp e (fun x => { x with cache := x.cache ++ [⟨pasid, w⟩] })

/-- What the cache holds by a test, unless it has been evicted before this lookup: a free choice (R281). -/
def Dev.cached {α : Type} (d : Dev) (e : Nat) (p : CacheEntry → Option α) : Dev × Option α :=
  match (d.ep e).cache.findSome? p with
  | none => (d, none)
  | some l =>
    if Config.evicted d.free then
      (d.draw.modEp e (fun x => { x with cache := x.cache.filter (fun c => (p c).isNone) }), none)
    else (d.draw, some l)
def Dev.leafNow (d : Dev) (e pasid va : Nat) (key : Option Nat) : Dev × Option (Nat × Nat × Nat × Bool) := d.cached e (leafFor pasid va key)

/-! ## The walk (R274) -/

/-- A read of the walk in HBM. -/
def Dev.tableRead (d : Dev) (e a n : Nat) : Nat := leNat (d.hbmRead (regionOf e) (d.quarterBase e + a) n)

/-- Where the walk reads next, and how many bytes. -/
def Walk.at_ (w : Walk) : Nat × Nat :=
  if w.level = 5 then (w.table + 16 * w.pasid, 16)
  else (w.table + 8 * levelIndex w.va w.level, 8)

/-- What an entry read at the walk's level leads to: the walk one level down, or its end; and what it caches. -/
inductive WalkStep where
  | on (w : Walk) (c : Option Cached)
  | done (f : Found) (c : Option Cached)
  deriving DecidableEq, Repr

/-- A PASID context (R271). -/
def Dev.stepContext (d : Dev) (e : Nat) (w : Walk) (raw : Nat) : WalkStep :=
  if !bit raw 0 then .done (.fault fPasid) none
  else if bits raw 11 2 != 0 || bits raw 127 64 != 0 then .done (.fault fFormat) none
  else
    let t := 4096 * bits raw 63 12
    if d.placeOk e (bit raw 1) t 4096 then
      .on { w with level := 4, table := t, inHbm := bit raw 1, perms := 15 } (some (.context raw))
    else .done (.fault fTarget) none

/-- A page-table entry (R273). -/
def Dev.stepEntry (d : Dev) (e : Nat) (w : Walk) (raw : Nat) : WalkStep :=
  let level := w.level
  let leaf := level == 1 || ((level == 2 || level == 3) && bit raw 6)
  let size := 9 * level + 3
  let base := 4096 * bits raw 51 12
  if !bit raw 0 then .done (.fault fNotPresent) none
  else if bits raw 11 8 != 0 || bits raw 63 52 != 0 || (level == 4 && bit raw 6) || (leaf && bit raw 7) ||
      (leaf && base % 2 ^ size != 0) then .done (.fault fFormat) none
  else
    let perms := w.perms &&& entryPerms raw
    if leaf then
      if !d.placeOk e false base (2 ^ size) then .done (.fault fTarget) none
      else if !permits perms (bit raw 5) w.kind w.user then .done (.fault fPermission) none
      else .done (.page (base + w.va % 2 ^ size) (bit raw 5))
        (some (.leaf (w.va / 2 ^ size) size base perms (bit raw 5) w.key))
    else if bit raw 5 || !d.placeOk e (bit raw 7) base 4096 then .done (.fault fTarget) none
    else .on { w with level := level - 1, table := base, inHbm := bit raw 7, perms := perms }
        (some (.table level (levelKey w.va level) raw))

def Dev.walkStep (d : Dev) (e : Nat) (w : Walk) (raw : Nat) : WalkStep :=
  if w.level = 5 then d.stepContext e w raw else d.stepEntry e w raw

/-- What a walk may cache: a speculative one only its leaf, at its end (R280). -/
def Dev.walkFill (d : Dev) (e : Nat) (w : Walk) (c : Option Cached) : Dev :=
  match c with
  | some (.leaf a b x y z k) => if w.fills then d.fill e w.pasid (.leaf a b x y z k) else d
  | some c => if w.fills && w.who != .spec then d.fill e w.pasid c else d
  | none => d

/-- A walk goes on until it ends or needs a read; then it waits under its number. -/
def Dev.walkOn : Nat → Dev → Nat → Nat → Walk → Dev × Option Found
  | 0, d, _, _, _ => (d, none)
  | n + 1, d, e, id, w =>
    let (a, len) := w.at_
    match d.cached e (tableFor w.pasid w.va w.level) with
    | (d, some raw) =>
      match d.walkStep e w raw with
      | .on w' _ => Dev.walkOn n d e id w'
      | .done f _ => (d, some f)
    | (d, none) =>
      if w.level = 5 && !d.placeOk e w.inHbm a len then (d, some (.fault fTarget)) else
      let d := d.modEp e (fun x => { x with walks := tput x.walks id w })
      (if w.inHbm then d else d.startRead e .walk (.walk id) none [(a, len)], none)

/-- A reported fault counts by its kind; a speculative walk's is dropped (R280, R294). -/
def Dev.countFault (d : Dev) (e : Nat) : Option Found → Dev
  | some (.fault k) => d.count (Ctr.walkFaults e k)
  | _ => d
def Dev.dropFault (d : Dev) (e : Nat) : Option Found → Dev
  | some (.fault _) => d.count (Ctr.specWalkDrops e)
  | _ => d

/-- A walk from the context read, under a number of its own. -/
def Dev.startWalk (d : Dev) (e : Nat) (who : Who) (pasid va : Nat) (kind : Kind) (user : Bool) (key : Option Nat) :
    Dev × Option Found :=
  let base := (d.ep e).pasidBase
  Dev.walkOn 6 d.takeId e d.nextId ⟨who, pasid, va, kind, user, key, 5, ringAddr base, rbit base 1, 15, true⟩

/-- The tests that come before a context is read (R272, R279). -/
def Dev.preFault (d : Dev) (e pasid va : Nat) : Option Nat :=
  let x := d.ep e
  if !canonical va then some fAddress
  else if !rbit x.pasidBase 0 || decide (2 ^ x.logPasids ≤ pasid) then some fPasid
  else none

/-- A translation: its end, or none while it waits for a read. -/
def Dev.translate (d : Dev) (e : Nat) (who : Who) (pasid va : Nat) (kind : Kind) (user : Bool) (key : Option Nat) :
    Dev × Option Found :=
  match d.preFault e pasid va with
  | some k => (d.count (Ctr.walkFaults e k), some (.fault k))
  | none =>
    match d.leafNow e pasid va key with
    | (d, some (pa, size, perms, device)) =>
      let d := d.count (Ctr.tcHits e)
      if permits perms device kind user then (d, some (.page (pa + va % 2 ^ size) device))
      else (d.count (Ctr.walkFaults e fPermission), some (.fault fPermission))
    | (d, none) =>
      let (d, f) := ((d.count (Ctr.tcMisses e)).count (Ctr.walks e)).startWalk e who pasid va kind user key
      (d.countFault e f, f)

/-- A speculative walk for the page after an access (R280): the access ends in the last 512 bytes of its page, and its message,
with `rem` bytes after it, goes on past that page. -/
def Dev.speculate (d : Dev) (e pasid va len rem : Nat) (kind : Kind) (user : Bool) (key : Option Nat) : Dev :=
  let last := va + len - 1
  let next := 4096 * (last / 4096 + 1)
  if len = 0 ∨ last % 4096 < 3584 ∨ va + len + rem ≤ next ∨ ((d.ep e).findLeaf pasid (next % 2 ^ 64) key).isSome then d
  else if (d.preFault e pasid (next % 2 ^ 64)).isSome then d.count (Ctr.specWalkDrops e)
  else
    let (d, f) := d.startWalk e .spec pasid (next % 2 ^ 64) kind user key
    d.dropFault e f

/-- A read of a walk has ended: the walk that waited, and how it ends if it does. A walk in HBM reads the table itself. -/
def Dev.walkRead (d : Dev) (e id : Nat) (res : HostRes) : Dev × Option (Walk × Found) :=
  match tget (d.ep e).walks id with
  | none => (d, none)
  | some w =>
    let (a, len) := w.at_
    let d := d.modEp e (fun x => { x with walks := tdrop x.walks id })
    let raw : Option Nat := match res with
      | .ok data => if !w.inHbm then some (leNat data) else if d.hbmRuns (regionOf e) then some (d.tableRead e a len) else none
      | _ => none
    let (d, f) : Dev × Option Found := match raw with
      | none => (d, some (.fault fBus))
      | some raw =>
        match d.walkStep e w raw with
        | .on w' c => Dev.walkOn 6 (d.walkFill e w c) e id w'
        | .done f c => (d.walkFill e w c, some f)
    (if w.who = .spec then d.dropFault e f else d, f.map (fun f => (w, f)))

/-! ## Who holds a translation (R283) -/

/-- It holds a page, and not a fault. -/
def Grant.pages (g : Grant) : Bool :=
  match g.found with
  | .page _ _ => true
  | .fault _ => false

/-- What waits for one of some objects waits for the object `new` as well: it takes over what they found. -/
def addWait (olds : List Nat) (new : Nat) (ws : List Nat) : List Nat := if olds.any ws.contains then ws ++ [new] else ws
def Endpoint.waitAlso (x : Endpoint) (olds : List Nat) (new : Nat) : Endpoint :=
  { x with inval := x.inval.map (fun i => { i with waits := addWait olds new i.waits }),
           keys := x.keys.map (fun k => (k.1, { k.2 with waits := addWait olds new k.2.waits })) }

/-- A finished translation kept for its waiter, with the number of the walk that found it. -/
def Dev.addGrant (d : Dev) (e walk : Nat) (who : Who) (pasid va : Nat) (f : Found) : Dev :=
  d.modEp e (fun x => { x with grants := x.grants ++ [⟨who, walk, pasid, va, f⟩] })
def Dev.dropGrants (d : Dev) (e : Nat) (p : Who → Bool) : Dev :=
  d.modEp e (fun x => { x with grants := x.grants.filter (fun g => !p g.who) })

/-- Units that wait for nothing any more: their reads, their walks and what these found are dropped. -/
def Dev.forsake (d : Dev) (e : Nat) (p : Who → Bool) : Dev :=
  ((d.dropReads e p).dropGrants e p).modEp e (fun x => { x with walks := x.walks.filter (fun w => !p w.2.who) })

/-- A waiter takes its pages: the object `new` holds them from now on. -/
def Dev.useGrants (d : Dev) (e : Nat) (who : Who) (new : Nat) : Dev :=
  (d.modEp e (fun x => x.waitAlso ((x.grants.filter (fun g => g.who == who)).map (fun g => g.walk)) new)).dropGrants e (· == who)

/-- A finished translation that a unit waits for. -/
def Endpoint.granted (x : Endpoint) (who : Who) (va : Nat) : Option Found :=
  (x.grants.find? (fun g => g.who == who && g.va == va)).map (fun g => g.found)

/-- The pages a packet needs: found, waiting for a walk, or faulted. -/
inductive Pages where
  | ready (ps : List (Nat × Nat × Bool))
  | waiting
  | fault (kind : Nat)
  deriving DecidableEq, Repr

/-- Pieces translated in order; a page found stays with its unit until it takes all of them. -/
def Dev.findPages (e : Nat) (who : Who) (pasid : Nat) (user : Bool) (kind : Kind) :
    Dev → List (Nat × Nat) → List (Nat × Nat × Bool) → Dev × Pages
  | d, [], got => (d, .ready got)
  | d, (va, _) :: rest, got =>
    match (d.ep e).granted who va with
    | some (.fault k) => ((d.countFault e (some (.fault k))).dropGrants e (· == who), .fault k)
    | some (.page pa device) => Dev.findPages e who pasid user kind d rest (got ++ [(va, pa, device)])
    | none =>
      match d.translate e who pasid va kind user none with
      | (d, none) => (d, .waiting)
      | (d, some (.fault k)) => (d.dropGrants e (· == who), .fault k)
      | (d, some (.page pa device)) =>
        Dev.findPages e who pasid user kind (d.takeId.addGrant e d.nextId who pasid va (.page pa device)) rest (got ++ [(va, pa, device)])

/-- The pages of an access in pieces; its message goes on for `rem` bytes after it (R280). -/
def Dev.needPages (d : Dev) (e : Nat) (who : Who) (pasid : Nat) (user : Bool) (kind : Kind) (rem : Nat) (ps : List (Nat × Nat)) :
    Dev × Pages :=
  match Dev.findPages e who pasid user kind d ps [], ps with
  | (d, .ready got), (va, _) :: _ => (d.speculate e pasid va (ps.foldl (fun n p => n + p.2) 0) rem kind user none, .ready got)
  | x, _ => x

/-- Pages of a range: each piece that lies in one 4 KiB page, with its length. -/
def pieces : Nat → Nat → Nat → List (Nat × Nat)
  | 0, _, _ => []
  | n + 1, va, len =>
    if len = 0 then [] else
    let k := min len (4096 - va % 4096)
    (va % 2 ^ 64, k) :: pieces n (va + k) (len - k)

end Sys2Proof.Machine
end

