-- ==== Sys2Proof/Machine/Places.lean ====
section
/-! DEFINITION. Writes of Scrivener, Cooper and the Warden to virtual addresses (11 R346, 12 R381, 14 R433): each page
is translated and written by itself, and what its owner counts of it. -/

namespace Sys2Proof.Machine

/-! ## What the owners count -/

/-- A match entry of an endpoint. -/
def Dev.modMatch (d : Dev) (e id : Nat) (f : Match → Match) : Dev :=
  d.modEp e (fun x => { x with store := tmod x.store id f })

/-- A member's posting of an instance at a context. -/
def Dev.modPosting (d : Dev) (r tree child number : Nat) (f : Posting → Posting) : Dev :=
  d.modRegion r (fun x =>
    { x with trees := tmod x.trees tree (fun t =>
        { t with postings := modWhere (fun p => p.child == child && p.number == number) f t.postings }) })

/-- A CMD of a queue. -/
def Dev.modCmd (d : Dev) (e q entry : Nat) (f : Cmd → Cmd) : Dev :=
  d.modSq e q (fun s => { s with cmds := modWhere (fun c => c.entry == entry) f s.cmds })

/-- A page's write began, was issued with `n` bytes, or faulted. -/
inductive PlaceEvent where
  | began
  | wrote (n : Nat)
  | faulted (kind : Nat)
  | gone
  deriving DecidableEq, Repr

def PlaceEvent.waits (w : Nat) : PlaceEvent → Nat
  | .began => w + 1
  | _ => w - 1

def PlaceEvent.bytes : PlaceEvent → Nat
  | .wrote n => n
  | _ => 0

/-- A packet of a message by its attempt and its page. -/
def partOf (h : Hdr) : Nat := 2 ^ 20 * h.attempt + h.msgOff / 4096

/-- A page of a packet is written, or has faulted: a packet with a fault is never placed whole. -/
def Match.partDone (m : Match) (src : Option Packet) (v : PlaceEvent) : List (Nat × Nat) :=
  match src, v with
  | some p, .wrote _ => (modWhere (fun x => x.1 == partOf p.hdr) (fun x => (x.1, x.2 - 1)) m.parts).filter (fun x => x.2 != 0)
  | some p, .faulted _ => m.parts.filter (fun x => x.1 != partOf p.hdr)
  | _, _ => m.parts

/-- The last page of a packet of an entry is written (10 R329). -/
def Match.lastPart (m : Match) (src : Option Packet) (v : PlaceEvent) : Bool :=
  match src, v with
  | some p, .wrote _ => m.parts.contains (partOf p.hdr, 1)
  | _, _ => false

/-- A match entry's counts: bytes written to its buffer, and bytes placed of the current attempt (10 R314, R317,
11 R346). -/
def Match.onPlace (m : Match) (src : Option Packet) (va now : Nat) (v : PlaceEvent) : Match :=
  let off := (va + 2 ^ 64 - m.buf) % 2 ^ 64
  let m := { m with writing := v.waits m.writing, parts := m.partDone src v,
                    wrote := if v.bytes = 0 then m.wrote else m.wrote.filter (fun w => w.1 != off) ++ [(off, v.bytes)] }
  let m := match v with
    | .faulted k => { m with fault := if m.fault = 0 then k else m.fault }
    | _ => m
  match src with
  | some p =>
    if p.hdr.attempt = m.attempt ∧ 0 < v.bytes then
      { m with placed := m.placed + v.bytes, unacked := some (m.unacked.getD now) }
    else m
  | none => m

def Posting.onPlace (p : Posting) (v : PlaceEvent) : Posting :=
  let p := { p with writing := v.waits p.writing, written := p.written + v.bytes }
  match v with
  | .faulted k => { p with fault := some (p.fault.getD (1, k)) }
  | _ => p

def Cmd.onPlace (c : Cmd) (v : PlaceEvent) : Cmd :=
  let c := { c with writing := v.waits c.writing, written := c.written + v.bytes }
  match v with
  | .faulted k => { c with fault := some (c.fault.getD k) }
  | _ => c

def Dev.onPlace (d : Dev) (e va : Nat) (o : PlaceFor) (src : Option Packet) (v : PlaceEvent) : Dev :=
  match o with
  | .entry id =>
    let now := d.belfryNow (regionOf e)
    let d := match tget (d.ep e).store id with
      | some m => if m.lastPart src v then d.count (Ctr.rmaPktsPlaced e) else d
      | none => d
    d.modMatch e id (fun m => m.onPlace src va now v)
  | .member r t c n => d.modPosting r t c n (fun p => p.onPlace v)
  | .reply q n => d.modCmd e q n (fun c => c.onPlace v)

/-! ## Writing -/

/-- A translated page is written; a page that faults is not, and a packet's bytes on it are refused to their
sender (11 R346). -/
def Dev.placeEnd (d : Dev) (e : Nat) (p : Place) (f : Found) : Dev :=
  match f with
  | .page pa device =>
    let payload := !device && (p.use == .payload || p.use == .result)
    let d := if d.epRuns e then d.hostWrite e pa p.data payload p.use else d
    let d := d.speculate e p.pasid p.va p.data.length p.rem .write p.user none
    d.onPlace e p.va p.owner p.src (.wrote (if d.epRuns e then p.data.length else 0))
  | .fault k =>
    let d := match p.src with
      | some q => d.refuse e q 0x04 k
      | none => d
    d.onPlace e p.va p.owner p.src (.faulted k)

/-- One page of a write begins. -/
def Dev.placePage (d : Dev) (e : Nat) (p : Place) : Dev :=
  let id := d.nextId
  let d := d.takeId.onPlace e p.va p.owner p.src .began
  match d.translate e (.place id) p.pasid p.va .write p.user none with
  | (d, some f) => d.placeEnd e p f
  | (d, none) => d.modEp e (fun x => { x with places := tput x.places id p })

/-- The part of a packet that holds bytes [i, i + n) of its payload. -/
def packetPart (p : Packet) (i n : Nat) : Packet :=
  { p with payload := (p.payload.drop i).take n, hdr := { p.hdr with msgOff := p.hdr.msgOff + i } }

/-- A write of any length, page by page; `rem` bytes of its message follow it. -/
def Dev.placeAll (d : Dev) (e pasid : Nat) (user : Bool) (va : Nat) (data : List Byte) (rem : Nat) (use : Use)
    (owner : PlaceFor) (src : Option Packet) : Dev :=
  forEach (pieces (data.length / 4096 + 2) va data.length) (fun x d =>
    let i := x.1 + 2 ^ 64 - va
    let i := i % 2 ^ 64
    d.placePage e { pasid := pasid, user := user, va := x.1, data := (data.drop i).take x.2,
                    rem := if i + x.2 = data.length then rem else 0, use := use, owner := owner,
                    src := src.map (fun q => packetPart q i x.2) }) d

/-- A place that waited has its translation: the place is taken out, and written or faulted. -/
def Dev.placeFound (d : Dev) (e id : Nat) (f : Found) : Dev × Option Place :=
  match tget (d.ep e).places id with
  | none => (d, none)
  | some p => ((d.modEp e (fun x => { x with places := tdrop x.places id })).placeEnd e p f, some p)

end Sys2Proof.Machine
end

