-- ==== Sys2Proof/Machine/Chains.lean ====
section
/-! DEFINITION. The match store's structure (11 R330, R341 to R344): keys, bins and their chains, the message index, shares
and the blocks of the unexpected store. -/

namespace Sys2Proof.Machine

/-! ## Keys (R330, R336) -/

/-- TAG, RANK, CONTEXT, SEND_SEQ, TX_LOW and HANDLE of a Scrivener request (R336). -/
def msgTag (h : Hdr) : Nat := bits h.ext 63 0
def msgRank (h : Hdr) : Nat := bits h.ext 95 64
def msgContext (h : Hdr) : Nat := bits h.ext 111 96
def sendSeqOf (h : Hdr) : Nat := bits h.ext 127 112
def txLowOf (h : Hdr) : Nat := bits h.ext 143 128
def handleOf (h : Hdr) : Nat := bits h.ext 175 144

/-- A match key: endpoint index, CONTEXT, RANK, TAG. -/
structure MKey where
  epi : Nat
  context : Nat
  rank : Nat
  tag : Nat
  deriving DecidableEq, Repr

def Match.key (m : Match) : MKey := ⟨m.epi, m.context, m.rank, m.tag⟩
def msgKey (h : Hdr) : MKey := ⟨h.dstEpi, msgContext h, msgRank h, msgTag h⟩

/-- A message's key meets a receive's (R330). -/
def receives (anySource anyTag : Bool) (recv msg : MKey) : Bool :=
  recv.epi == msg.epi && recv.context == msg.context && (anySource || recv.rank == msg.rank) && (anyTag || recv.tag == msg.tag)

/-- The bin of a kind and a key (R343): 0 EXACT, 1 ANY_SOURCE, 2 ANY_TAG, 3 ANY_BOTH. -/
def binOf (kind : Nat) (k : MKey) : Nat :=
  crc32c (leBytes 1 kind ++ leBytes 2 k.epi ++ leBytes 2 k.context ++ (if kind = 0 ∨ kind = 2 then leBytes 4 k.rank else []) ++
    (if kind = 0 ∨ kind = 1 then leBytes 8 k.tag else [])) % 65536

def wildKind (anySource anyTag : Bool) : Nat := b2n anySource + 2 * b2n anyTag

/-! ## Chains (R342, R343) -/

/-- The chains an entry stands in. -/
def Match.chains (m : Match) : List Nat :=
  match m.kind with
  | .posted => [2 * binOf (wildKind m.anySource m.anyTag) m.key]
  | .unexpected => ((List.range 4).map (fun b => 2 * binOf b m.key + 1)).eraseDups
  | .matched | .held => []

/-- Its place in the message index. -/
def indexKey (peer seq : Nat) : Nat := 65536 * peer + seq
def Match.indexed (m : Match) : List Nat := if m.kind = .posted then [] else [indexKey m.hdr.srcFen m.sendSeq]

/-- A chain with an entry put in by its STAMP. -/
def byStamp (y : Nat × Nat × Nat) (c : List (Nat × Nat × Nat)) : List (Nat × Nat × Nat) :=
  c.takeWhile (fun z => decide (z.1 ≤ y.1)) ++ y :: c.dropWhile (fun z => decide (z.1 ≤ y.1))

/-- A table without the elements of a test in its lists, and without the lists that are left empty. -/
def sweepLists {α : Type} (gone : α → Bool) (t : Tbl (List α)) : Tbl (List α) :=
  (t.map (fun c => (c.1, c.2.filter (fun y => !gone y)))).filter (fun c => !c.2.isEmpty)

/-- The entries of a test leave the chains and the index of their region. -/
def Dev.unlink (d : Dev) (e : Nat) (p : Nat → Bool) : Dev :=
  d.modRegion (regionOf e) (fun x =>
    { x with bins := sweepLists (fun y => y.2.1 == e && p y.2.2) x.bins, msgIndex := sweepLists (fun y => y.1 == e && p y.2) x.msgIndex })

def Dev.link (d : Dev) (e id : Nat) (m : Match) : Dev :=
  d.modRegion (regionOf e) (fun x =>
    { x with bins := m.chains.foldl (fun t k => tput t k (byStamp (m.stamp, e, id) (tgetD t k []))) x.bins,
             msgIndex := m.indexed.foldl (fun t k => tput t k (tgetD t k [] ++ [(e, id)])) x.msgIndex })

/-- An entry put into the store of its endpoint, or changed in a field that its chains depend on. -/
def Dev.putMatch (d : Dev) (e id : Nat) (m : Match) : Dev :=
  ((d.unlink e (· == id)).modEp e (fun x => { x with store := tput x.store id m })).link e id m

/-- The entries of a test are freed. -/
def Dev.freeMatches (d : Dev) (e : Nat) (p : Nat × Match → Bool) : Dev :=
  let ids := ((d.ep e).store.filter p).map (fun m => m.1)
  let d := d.modRegion (regionOf e) (fun x => { x with pullQueue := x.pullQueue.filter (fun q => !(q.1 == e && ids.contains q.2)) })
  (d.unlink e ids.contains).modEp e (fun x => { x with store := x.store.filter (fun m => !p m) })
def Dev.freeMatch (d : Dev) (e id : Nat) : Dev := d.freeMatches e (fun m => m.1 == id)

/-- The entry of a message (R338 step 5), by the index. -/
def Dev.findMsg (d : Dev) (e localFen peer seq : Nat) : Option Nat :=
  ((tgetD (d.region (regionOf e)).msgIndex (indexKey peer seq) []).find? (fun y =>
    y.1 == e && ((tget (d.ep e).store y.2).map (fun m => m.localFen)) == some localFen)).map (fun y => y.2)

/-- Entries examined in a chain beyond its first, up to the first that a test holds (R359). -/
def Dev.chainSteps (d : Dev) (r e key : Nat) (hit : Match → Bool) : Nat :=
  let c := tgetD (d.region r).bins key []
  min (c.findIdx (fun y => y.2.1 == e && ((tget (d.ep e).store y.2.2).map hit).getD false)) (c.length - 1)

/-- The chains a message searches, and the one a receive searches (R344). -/
def Dev.messageSteps (d : Dev) (e : Nat) (k : MKey) : Nat :=
  (List.range 4).foldl (fun n b =>
    n + d.chainSteps (regionOf e) e (2 * binOf b k) (fun m => receives m.anySource m.anyTag m.key k)) 0
def Dev.receiveSteps (d : Dev) (e : Nat) (anySource anyTag : Bool) (k : MKey) : Nat :=
  d.chainSteps (regionOf e) e (2 * binOf (wildKind anySource anyTag) k + 1) (fun m => receives anySource anyTag k m.key)

/-! ## Shares and blocks (R341, R348) -/

/-- Endpoints of a region: two gates, each with one or two (07 R196). -/
def Dev.epsIn (d : Dev) (r : Nat) : Nat := 2 + b2n (d.bifurcated (2 * r)) + b2n (d.bifurcated (2 * r + 1))

/-- Entries and blocks of an endpoint's share. -/
def Dev.share (d : Dev) (r : Nat) : Nat := 131072 / d.epsIn r
def Dev.blocksTotal (d : Dev) (r : Nat) : Nat := 65536 * (d.region r).carve.ux / d.epsIn r

def Endpoint.countKind (x : Endpoint) (k : MKind) : Nat := (x.store.filter (fun m => m.2.kind == k)).length
def Endpoint.blocksUsed (x : Endpoint) : Nat := x.store.foldl (fun n m => n + m.2.blocks.length) 0

/-- The lowest blocks of an endpoint's share that are free: the shares follow one another in endpoint order. -/
def Dev.freeBlocks (d : Dev) (e n : Nat) : List Nat :=
  let r := regionOf e
  let used := (d.ep e).store.flatMap (fun m => m.2.blocks)
  let base := d.blocksTotal r * ((epsOf r).filter (fun f => decide (f < e) && d.epExists f)).length
  ((List.range' base (used.length + n)).filter (fun b => !used.contains b)).take n

/-- The entry of a key with the lowest stamp (R344). -/
def Endpoint.lowest (x : Endpoint) (kind : MKind) (p : Match → Bool) : Option (Nat × Match) :=
  minBy (fun m : Nat × Match => m.2.stamp) (x.store.filter (fun m => m.2.kind == kind && p m.2))

end Sys2Proof.Machine
end

