-- ==== Sys2Proof/Machine/Conns.lean ====
section
/-! DEFINITION. Connections (10 R298 to R300, 11 R334): the fields of CARTER_CTRL, CARTER_WIN and SCRIV_CTRL, finding,
creating and evicting contexts, and the ages of their time fields. -/

namespace Sys2Proof.Machine

/-! ## CARTER_CTRL, CARTER_WIN, SCRIV_CTRL (10 R328, 11 R361), times in ns and sizes in bytes -/

def ChipRegs.msgTimeout (c : ChipRegs) : Nat := 1000 * max 10 (rbits c.carterCtrl 15 0)
def ChipRegs.maxRetries (c : ChipRegs) : Nat := rbits c.carterCtrl 17 16
def ChipRegs.ackDelay (c : ChipRegs) : Nat := 10 * max 1 (rbits c.carterCtrl 31 20)
def ChipRegs.ackBytes (c : ChipRegs) : Nat := 4096 * max 1 (rbits c.carterCtrl 39 32)
def ChipRegs.retryLaterDelay (c : ChipRegs) : Nat := 1000 * max 1 (rbits c.carterCtrl 47 40)
def ChipRegs.trackerIdle (c : ChipRegs) : Nat := 1000 * max 100 (rbits c.carterCtrl 63 48)
def ChipRegs.winMinK (c : ChipRegs) : Nat := clamp 1 16384 (rbits c.carterWin 29 15)
def ChipRegs.winMaxK (c : ChipRegs) : Nat := clamp c.winMinK 16384 (rbits c.carterWin 44 30)
def ChipRegs.winInitK (c : ChipRegs) : Nat := clamp c.winMinK c.winMaxK (rbits c.carterWin 14 0)
def ChipRegs.winStepK (c : ChipRegs) : Nat := max 1 (rbits c.carterWin 52 45)
def ChipRegs.connIdle (c : ChipRegs) : Nat := 1000 * max 1 (rbits c.carterWin 63 53)
def ChipRegs.eagerLimit (c : ChipRegs) : Nat := min 65536 (rbits c.scrivCtrl 16 0)
def ChipRegs.uxMaxFrac (c : ChipRegs) : Nat := max 1 (rbits c.scrivCtrl 20 17)
def ChipRegs.rndvMaxActive (c : ChipRegs) : Nat := max 1 (rbits c.scrivCtrl 35 24)
/-- LEND_TIMEOUT in ns; 0 means no limit. -/
def ChipRegs.lendTimeout (c : ChipRegs) : Nat := 1000000 * rbits c.scrivCtrl 51 36
/-- MSG_HOLD (11 R337). -/
def ChipRegs.msgHold (c : ChipRegs) : Nat := (c.maxRetries + 1) * c.msgTimeout + 100000

/-! ## Ages (11 R334): µs of the time base, 24 bits -/

/-- The 24-bit time field of a time, and the field aged 2^23 µs. -/
def us24 (now : Nat) : Nat := now / 1000 % 2 ^ 24
def aged24 (now : Nat) : Nat := (now / 1000 + 2 ^ 23) % 2 ^ 24
/-- The age of a time field in ns. -/
def age24 (now field : Nat) : Nat := 1000 * ((now / 1000 + 2 ^ 24 - field % 2 ^ 24) % 2 ^ 24)

/-! ## Contexts -/

/-- A context as R300 creates it. -/
def newConn (c : ChipRegs) (e localFen peer cls now : Nat) : Conn :=
  { ep := e, localFen := localFen, peerFen := peer, cls := cls, nextSeq := 0, syncing := true, window := 1024 * c.winInitK,
    inflight := 0, srtt := 4000, roundStart := now, lastCut := none, marked := false, outstanding := 0, mapBase := 0,
    map := 0, mapEcho := false, mapOpened := 0, mapHdr := {}, mapNewest := 0, used := now, txSeq := 0,
    txLast := aged24 now, rxExpect := 0, rxHeld := 0, rxLast := aged24 now, rxGap := us24 now, rxExpired := [], fresh := true }

def Region.findConn (x : Region) (localFen peer cls : Nat) : Option (Nat × Conn) :=
  x.conns.find? (fun c => c.2.localFen == localFen && c.2.peerFen == peer && c.2.cls == cls)

def Dev.modConn (d : Dev) (r id : Nat) (f : Conn → Conn) : Dev :=
  d.modRegion r (fun x => { x with conns := tmod x.conns id f })
def Dev.conn (d : Dev) (r id : Nat) : Option Conn := tget (d.region r).conns id

/-- A match-store entry of a connection is open (11 R334). -/
def Dev.connEntries (d : Dev) (c : Conn) : Bool :=
  (d.ep c.ep).store.any (fun m => m.2.kind != .posted && m.2.hdr.srcFen == c.peerFen && m.2.localFen == c.localFen)

/-- A context may be evicted (10 R300, 11 R334). -/
def Dev.evictable (d : Dev) (r : Nat) (c : Conn) : Bool :=
  let now := d.belfryNow r
  let h := (d.region r).chip
  c.outstanding == 0 && c.inflight == 0 && c.map == 0 && decide (c.used + h.connIdle ≤ now) && c.rxHeld == 0 &&
    !d.connEntries c && decide (h.msgHold ≤ age24 now c.txLast) && decide (h.msgHold ≤ age24 now c.rxLast)

/-- The least recently used context that may be evicted. -/
def Dev.oldestConn (d : Dev) (r : Nat) : Option Nat :=
  (minBy (fun c => c.2.used) ((d.region r).conns.filter (fun c => d.evictable r c.2))).map (fun c => c.1)

/-- The context of a connection, found or created; none when none can be had (10 R300). -/
def Dev.takeConn (d : Dev) (e localFen peer cls : Nat) : Dev × Option Nat :=
  let r := regionOf e
  let now := d.belfryNow r
  match (d.region r).findConn localFen peer cls with
  | some (id, _) => (d.modConn r id (fun c => { c with used := now }), some id)
  | none =>
    let make (d : Dev) : Dev × Option Nat :=
      let id := d.nextId
      let c := newConn (d.region r).chip e localFen peer cls now
      (d.takeId.modRegion r (fun x => { x with conns := tput x.conns id c }), some id)
    if (d.region r).conns.length < 32768 then make d
    else match d.oldestConn r with
      | some old => make ((d.modRegion r (fun x => { x with conns := tdrop x.conns old })).count (Ctr.connEvictions e))
      | none => (d, none)

end Sys2Proof.Machine
end

