-- ==== Sys2Proof/Machine/Engines.lean ====
section
/-! DEFINITION. The work items of Journeyman engines (15 R480, R481, 01 R38): the write of a packet's payload to the
unexpected store (11 R348), the copy of an unexpected message to its receive (11 R349) and a rendezvous that waits for its
pull (11 R355). An item's parked state is the match entry's. -/

namespace Sys2Proof.Machine

/-- The entry has work for an engine now: a complete message to copy, or a pull that may start. -/
def Match.engineWork (m : Match) (pullMay : Bool) : Bool :=
  m.kind == .matched &&
    (if m.rndv then pullMay else !m.blocks.isEmpty && !m.copying && decide (m.msgLen ≤ m.done) && m.toStore.isEmpty)

/-- Pulls of a region that run (11 R355). -/
def Region.activePulls (x : Region) : Nat := (x.ops.filter (fun o => o.2.kind == .pull)).length

/-- The entry at the head of the pull queue, which a free pull slot lets start (11 R355). -/
def Region.pullReady (x : Region) : Option (Nat × Nat) :=
  if x.chip.rndvMaxActive ≤ x.activePulls then none else x.pullQueue.head?

/-- An item has work for an engine: the payload that it writes, or its entry's work while the entry's queue is not HALTED. -/
def Dev.itemLive (d : Dev) (r id : Nat) : Bool :=
  (epsOf r).any (fun e => match tget (d.ep e).store id with
    | some m => m.engineWork ((d.region r).pullReady == some (e, id)) && (d.sq e m.sq).state != .halted
    | none => (d.ep e).store.any (fun m => m.2.toStore.any (fun t => t.1 == id)))

/-- A step of the item runs on an engine of the region whose block's island runs. -/
def Dev.stepRuns (d : Dev) (r id : Nat) : Bool :=
  (blocksOf r).any (fun b => d.blockRuns b && (d.block b).running.any (fun s => s.2.id == id))

/-- The block that holds an item; the region's first block for one that no block holds. -/
def Dev.itemBlock (d : Dev) (r id : Nat) : Nat :=
  ((blocksOf r).find? (fun b => (d.block b).queue.any (fun i => i.id == id) || (d.block b).running.any (fun s => s.2.id == id))).getD
    (16 * r)

/-- Items whose work is done leave their block, and their engines are idle. -/
def Dev.sweepItems (d : Dev) (b : Nat) : Dev :=
  let live (i : Item) : Bool := d.itemLive (b / 16) i.id
  d.modBlock b (fun x => { x with queue := x.queue.filter live, running := x.running.filter (fun s => live s.2) })

/-- The blocks of a region in RUN. -/
def Dev.runBlocks (d : Dev) (r : Nat) : List Nat := (blocksOf r).filter (fun b => (d.block b).state == .run)

/-- Items queued for a block. -/
def Dev.itemsQueued (d : Dev) (b : Nat) : Nat := ((d.block b).queue.filter (fun i => d.itemLive (b / 16) i.id)).length

/-- The RUN block with the fewest queued items, and the pointer over the 16 blocks after the choice: it is kept with the
region's first block, and moves only when it settles a tie (R481, 00 R16). -/
def Dev.shortestBlock (d : Dev) (r : Nat) : Option (Nat × Nat) :=
  let len := d.itemsQueued
  let ptr := (d.block (16 * r)).movePtr
  let bs := d.runBlocks r
  match minBy len bs with
  | none => none
  | some least =>
    match bs.filter (fun b => len b == len least) with
    | [b] => some (b, ptr)
    | ties => (minBy (fun b => fromPointer 16 ptr (b % 16)) ties).map (fun b => (b, (b % 16 + 1) % 16))

/-- An item joins the queue of a block, stamped in that block's island (00 R16); with no block in RUN it waits at the region's
first block. -/
def Dev.queueItem (d : Dev) (r : Nat) (i : Item) : Dev :=
  let join (b : Nat) : Dev := d.modBlock b (fun x => { x with queue := x.queue ++ [{ i with stamp := d.clk (Isl.block b) }] })
  match d.shortestBlock r with
  | none => join (16 * r)
  | some (b, ptr) => (join b).modBlock (16 * r) (fun x => { x with movePtr := ptr })

/-- A block of the region holds the item already. -/
def Dev.itemHeld (d : Dev) (r id : Nat) : Bool :=
  (blocksOf r).any (fun b => (d.block b).queue.any (fun i => i.id == id) || (d.block b).running.any (fun s => s.2.id == id))

/-- An item that has work for an engine is queued, parked in the region's engine state spill. -/
def Dev.parkItem (d : Dev) (r id : Nat) : Dev :=
  if d.itemLive r id && !d.itemHeld r id then d.queueItem r ⟨id, 0⟩ else d

/-- The pull that may start is queued for an engine (11 R355). -/
def Dev.feedPull (d : Dev) (r : Nat) : Dev :=
  match (d.region r).pullReady with
  | none => d
  | some (_, id) => d.parkItem r id

/-- A step of an item has ended: its engine is idle. -/
def Dev.stepEnd (d : Dev) (r id : Nat) : Dev :=
  forEach (blocksOf r) (fun b d => d.modBlock b (fun x => { x with running := x.running.filter (fun s => s.2.id != id) })) d

/-- An engine of a block is quarantined (18 R535). -/
def Dev.engineBad (d : Dev) (b i : Nat) : Bool := bit d.quarantine.engines (16 * b + i)

/-- All 16 engines of a block are quarantined (18 R536). -/
def Dev.blockBad (d : Dev) (b : Nat) : Bool := (List.range 16).all (d.engineBad b)

/-- The idle engine that the dispatch pointer reaches first, skipping quarantined engines. -/
def Dev.freeEngine (d : Dev) (b : Nat) : Option Nat :=
  let x := d.block b
  let idle := (List.range 16).filter (fun i => !d.engineBad b i && x.running.all (fun s => s.1 != i))
  minBy (fun i => fromPointer 16 x.dispatchPtr i) idle

/-- The oldest queued item of a RUN block starts a step on an engine: the item that does. DESIGN CHOICE: of two items of equal age
the one queued first, since R38's pointer is over the engines and the spec names no other step (log entry 40). -/
def Dev.dispatchItem (d : Dev) (b : Nat) : Dev × Option Nat :=
  let d := d.sweepItems b
  if (d.block b).state != .run then (d, none) else
  match minBy (fun i => i.stamp) (d.block b).queue, d.freeEngine b with
  | some item, some e =>
    (d.modBlock b (fun x =>
      { x with queue := x.queue.erase item, running := x.running ++ [(e, item)], dispatchPtr := (e + 1) % 16 }), some item.id)
  | _, _ => (d, none)

/-- A block's state changes, with its event (18 R545); its reset sets its dispatch pointer to 0 (00 R17). -/
def Dev.setBlock (d : Dev) (b : Nat) (st : BState) : Dev :=
  if (d.block b).state = st then d else
  let code : Nat := match st with
    | .run => 0
    | .migrating => 1
    | .resetting => 2
    | .off => 3
  let ptr (x : Block) : Nat := if st = .resetting then 0 else x.dispatchPtr
  (d.modBlock b (fun x => { x with state := st, dispatchPtr := ptr x })).raise (Isl.belfry (b / 16)) (Src.block b) 2 code

/-- Every queued item of a block that has left RUN goes to the other blocks. -/
def Dev.moveItems (d : Dev) (b : Nat) : Dev :=
  let d := d.sweepItems b
  let items := (d.block b).queue
  let d := d.modBlock b (fun x => { x with queue := [], moved := items.length })
  forEach items (fun i d => d.queueItem (b / 16) i) (d.countBy (Ctr.itemsMigrated (b / 16)) items.length)

/-- Steps that still run on a block are abandoned; their items run again elsewhere from their parked state. -/
def Dev.abandonSteps (d : Dev) (b : Nat) (which : Nat → Bool) : Dev :=
  let d := d.sweepItems b
  let gone := (d.block b).running.filter (fun s => which s.1)
  let d := d.modBlock b (fun x =>
    { x with running := x.running.filter (fun s => !which s.1), redone := x.redone + gone.length })
  forEach gone (fun s d => d.queueItem (b / 16) s.2) (d.countBy (Ctr.stepsRedone (b / 16)) gone.length)

/-- The block enters OFF as all its engines are quarantined (18 R536). -/
def Dev.blockOff (d : Dev) (b : Nat) : Dev :=
  let d := (d.setBlock b .off).moveItems b
  d.raise (Isl.belfry (b / 16)) (Src.block b) 3 0

/-- A RESETTING block whose engine code is loaded enters RUN, and OFF where its 16 engines are quarantined (18 R536). -/
def Dev.runLoaded (d : Dev) (b : Nat) : Dev :=
  let d := d.setBlock b .run
  if d.blockBad b then d.blockOff b else d

end Sys2Proof.Machine
end

