-- ==== Sys2Proof/Machine/Image.lean ====
section
/-! DEFINITION. The flash and the Nirly image (17 R513, R514, R516, R519 to R523): the directory, the slots and their tests,
and the configuration record. -/

namespace Sys2Proof.Machine

/-! ## Flash -/

/-- An erased byte (log entry 4). -/
def flashDefault : Byte := 0xFF

/-- An address lies in the fitted flash, which holds the image area at least (02 R69, R520). -/
def flashFitted (a : Nat) : Bool := decide (a < 0x400000) || decide (a < Config.flashSize)

/-- A byte as the flash returns it (R525). -/
def flashByte (flash : List Host.Cell) (a : Nat) : Byte :=
  if flashFitted a then Memory.read flashDefault flash a else Config.beyondFlash a

def flashRead (flash : List Host.Cell) (a n : Nat) : List Byte := (List.range n).map (fun i => flashByte flash (a + i))

/-- Bytes of the flash as they stand after a write; none are kept beyond the fitted part. -/
def flashPut (flash : List Host.Cell) (a : Nat) : List Byte → List Host.Cell
  | [] => flash
  | b :: bs => flashPut (if flashFitted a then Memory.write flashDefault flash a b else flash) (a + 1) bs

/-- A field of the image area. -/
def flashField (flash : List Host.Cell) (a n : Nat) : Nat := leNat (Memory.readN flashDefault flash a n)

/-! ## The directory (R520) -/

/-- A structure's CHK: CRC-32C with its bytes 12–15 taken as 0. -/
def chkOf (bs : List Byte) : Nat := crc32c (putBytes bs 12 (zeros 4))

def dirBytes (flash : List Host.Cell) : List Byte := Memory.readN flashDefault flash 0 128
def dirValid (flash : List Host.Cell) : Bool :=
  let b := dirBytes flash
  field b 0 4 == 0x52494444 && field b 12 4 == chkOf b

/-- The slot that the directory names; an invalid directory names slot 0 (R513). -/
def dirActive (flash : List Host.Cell) : Nat := if dirValid flash then bits (byteAt (dirBytes flash) 4) 0 0 else 0

/-- The owner key (R519); empty when the device has none. -/
def ownerKeyOf (flash : List Host.Cell) (fuses : Fuses) : List Byte :=
  let key := sliceBytes (dirBytes flash) 16 57
  if dirValid flash && !allZero key && (!fuses.ownerFused || Config.shake256 key == fuses.ownerDigest) then key else []

/-- A directory with its CHK. -/
def mkDir (active seq : Nat) (key : List Byte) : List Byte :=
  let b := leBytes 4 0x52494444 ++ leBytes 1 active ++ zeros 3 ++ leBytes 4 seq ++ zeros 4 ++ sliceBytes key 0 57
  let b := b ++ zeros (128 - b.length)
  putBytes b 12 (leBytes 4 (chkOf b))

/-! ## Slots (R514, R521) -/

def slotBase (slot : Nat) : Nat := if slot = 0 then 0x10000 else 0x200000
def slotSize : Nat := 1984 * 1024

def slotHeader (flash : List Host.Cell) (slot : Nat) : List Byte := Memory.readN flashDefault flash (slotBase slot) 512
def hdrVersion (h : List Byte) : Nat := field h 8 4
def hdrRollback (h : List Byte) : Nat := field h 12 4

/-- A section of a slot, by the offset of its OFF field in the header. -/
def slotSection (flash : List Host.Cell) (slot at_ : Nat) : List Byte :=
  let h := slotHeader flash slot
  Memory.readN flashDefault flash (slotBase slot + field h at_ 4) (field h (at_ + 4) 4)

/-- Every section lies within the slot. -/
def sectionsFit (h : List Byte) : Bool :=
  decide (field h 16 4 + field h 20 4 ≤ slotSize) && decide (field h 32 4 + field h 36 4 ≤ slotSize)

/-- The FAIL code of a slot (R514): the first test that fails, 0 when it passes. -/
def slotFail (flash : List Host.Cell) (fuses : Fuses) (slot : Nat) (readFail : Bool) : Nat :=
  let h := slotHeader flash slot
  let key := sliceBytes h 256 57
  if !(field h 0 4 == 0x4C52494E && field h 4 4 == 1 && sectionsFit h) then 1
  else if !(Config.shake256 key == Config.keyDigest) then 2
  else if !Config.ed448Verify key (sliceBytes h 0 320) (sliceBytes h 320 114) then 3
  else if !(Config.shake256 (slotSection flash slot 16) == sliceBytes h 64 64) then 4
  else if hdrRollback h < fuses.floor then 5
  else if readFail then 6
  else 0

/-- The engine section has its digest (R516). -/
def engineGood (flash : List Host.Cell) (slot : Nat) : Bool :=
  Config.shake256 (slotSection flash slot 32) == sliceBytes (slotHeader flash slot) 128 64

/-- An image as BLOCK_LOAD and IMAGE_ACTIVATE verify it (R482, R527): its FAIL code, 7 for the engine digest. -/
def imageFail (flash : List Host.Cell) (fuses : Fuses) (slot : Nat) (readFail : Bool) : Nat :=
  let f := slotFail flash fuses slot readFail
  if f ≠ 0 then f else if engineGood flash slot then 0 else 7

/-! ## The configuration record (R522, R523) -/

/-- The entries of a record, each a TYPE and its value; none when they do not parse. -/
def recEntries : Nat → List Byte → Option (List (Nat × List Byte))
  | _, [] => some []
  | 0, _ => none
  | n + 1, bs =>
    let len := field bs 2 2
    let whole := 4 + roundUp 4 len
    if bs.length < whole then none
    else (recEntries n (bs.drop whole)).map (fun es => (field bs 0 2, sliceBytes bs 4 len) :: es)

/-- LEN of each TYPE; none when the TYPE is not listed. -/
def recLen : Nat → Option Nat
  | 1 => some 4
  | 2 => some 4
  | 3 => some 4
  | 4 => some 8
  | 5 => some 40
  | _ => none

/-- Every TYPE is listed with its LEN, and none but TRUST appears twice. -/
def entriesOk (es : List (Nat × List Byte)) : Bool :=
  es.all (fun e => recLen e.1 == some e.2.length) &&
    [1, 2, 3, 5].all (fun t => decide ((es.filter (fun e => e.1 == t)).length ≤ 1)) &&
    decide ((es.filter (fun e => e.1 == 4)).length ≤ 16)

/-- The record that the flash holds, when it is valid: its bytes and its entries. -/
def configRecord (flash : List Host.Cell) (fuses : Fuses) : Option (List Byte × List (Nat × List Byte)) :=
  let len := flashField flash 0x1004 4
  if len < 144 ∨ 61440 < len then none else
  let b := Memory.readN flashDefault flash 0x1000 len
  let body := b.take (len - 128)
  if !(field b 0 4 == 0x47464E43 && field b 12 4 == chkOf b) then none else
  let key := ownerKeyOf flash fuses
  if fuses.ownerFused && (key.isEmpty || !Config.ed448Verify key body (sliceBytes b (len - 114) 114)) then none else
  match recEntries len (body.drop 16) with
  | none => none
  | some es => if entriesOk es then some (b, es) else none

/-- The value of an entry of a TYPE. -/
def entryOf (es : List (Nat × List Byte)) (t : Nat) : Option (List Byte) := (es.find? (fun e => e.1 == t)).map (fun e => e.2)

/-! ## Carve-outs (01 R44, R45) -/

/-- What the stack must hold: the carve-outs without the host-visible remainder, in 256 MiB units. -/
def Carve.asked (c : Carve) : Nat := c.ux + c.scratch + 1 + 2 * c.spill + 4 * c.tables

/-- R45: the tables shrink, then the spill, until 1 GiB remains. -/
def Carve.shrink : Nat → Carve → Carve
  | 0, c => c
  | n + 1, c =>
    if c.asked ≤ 60 then c
    else if 0 < c.tables then Carve.shrink n { c with tables := c.tables - 1, shrunk := true }
    else if 1 < c.spill then Carve.shrink n { c with spill := c.spill - 1, shrunk := true }
    else c

/-- The carve-outs that a record asks for, held to the ranges of R44, after R45. -/
def carveOf (es : List (Nat × List Byte)) : Carve :=
  match entryOf es 3 with
  | none => Carve.default
  | some v => Carve.shrink 16 ⟨min 16 (byteAt v 0), clamp 1 8 (byteAt v 1), clamp 1 8 (byteAt v 2), min 8 (byteAt v 3), false⟩

end Sys2Proof.Machine
end

