-- ==== Sys2Proof/Machine/Arith.lean ====
section
/-! DEFINITION. Cooper's arithmetic (12 R372 to R375, R382 to R387): types, operators, exact accumulators, partial sums
and the one rounding. -/

namespace Sys2Proof.Machine

/-! ## Types and operators (R372, R373) -/

def dtypeBytes : Nat → Nat
  | 0 => 8
  | 1 => 4
  | 2 => 2
  | 3 => 8
  | 4 => 8
  | _ => 4

def isFloat (dtype : Nat) : Bool := decide (dtype ≤ 2)
def isSigned (dtype : Nat) : Bool := dtype == 3 || dtype == 5

/-- Exponent and fraction bits of a floating type. -/
def fmtOf : Nat → Nat × Nat
  | 0 => (11, 52)
  | 1 => (8, 23)
  | _ => (8, 7)

def canonicalNan (dtype : Nat) : Nat :=
  let (eb, fb) := fmtOf dtype
  (2 ^ eb - 1) * 2 ^ fb + 2 ^ (fb - 1)
def infinity (dtype : Nat) (neg : Bool) : Nat :=
  let (eb, fb) := fmtOf dtype
  b2n neg * 2 ^ (eb + fb) + (2 ^ eb - 1) * 2 ^ fb
def isNan (dtype x : Nat) : Bool :=
  let (eb, fb) := fmtOf dtype
  bits x (eb + fb - 1) fb == 2 ^ eb - 1 && bits x (fb - 1) 0 != 0

/-! ## Accumulator states (R382) -/

def Acc.special (k : AccKind) : Acc := ⟨k, 0, false⟩

/-- `to_acc`. -/
def toAcc (x dtype : Nat) : Acc :=
  let (eb, fb) := fmtOf dtype
  let s := bit x (eb + fb)
  let ex := bits x (eb + fb - 1) fb
  let fr := bits x (fb - 1) 0
  let bias := 2 ^ (eb - 1) - 1
  if ex = 2 ^ eb - 1 then Acc.special (if fr ≠ 0 then .nan else if s then .negInf else .posInf)
  else
    let m := if ex = 0 then fr else 2 ^ fb + fr
    let up := (if ex = 0 then 1 else ex) + 1074 - bias - fb
    let v : Int := Int.ofNat (m <<< up)
    ⟨.finite, if s then -v else v, s && m == 0⟩

/-- `combine`. -/
def Acc.combine (a b : Acc) : Acc :=
  match a.kind, b.kind with
  | .nan, _ | _, .nan => Acc.special .nan
  | .posInf, .negInf | .negInf, .posInf => Acc.special .nan
  | .finite, .finite => ⟨.finite, a.v + b.v, a.negZero && b.negZero⟩
  | .finite, _ => b
  | _, _ => a

/-- The length of a number in bits. -/
def bitLength (n : Nat) : Nat := if n = 0 then 0 else Nat.log2 n + 1

/-- `round_acc` (R387). -/
def roundAcc (st : Acc) (dtype : Nat) : Nat :=
  let (eb, fb) := fmtOf dtype
  let bias := 2 ^ (eb - 1) - 1
  match st.kind with
  | .nan => canonicalNan dtype
  | .posInf => infinity dtype false
  | .negInf => infinity dtype true
  | .finite =>
    if st.v = 0 then b2n st.negZero * 2 ^ (eb + fb) else
    let s := decide (st.v < 0)
    let a := st.v.natAbs
    let q := max (bitLength a - 1 - fb) (1075 - bias - fb)
    let m := a >>> q
    let r := a % 2 ^ q
    let half := 2 ^ q / 2
    let up := 0 < q ∧ (half < r ∨ (r = half ∧ m % 2 = 1))
    let m := if up then m + 1 else m
    let wide := m == 2 ^ (fb + 1)
    let m := if wide then m / 2 else m
    let q := if wide then q + 1 else q
    let ex := if m >>> fb ≠ 0 then q + fb + bias - 1074 else 0
    if 2 ^ eb - 1 ≤ ex then infinity dtype s
    else b2n s * 2 ^ (eb + fb) + ex * 2 ^ fb + m % 2 ^ fb

/-! ## Fast mode (R373, R375) -/

/-- The place of an encoding in numeric order, with −0 below +0. -/
def floatOrder (dtype x : Nat) : Int :=
  let w := 8 * dtypeBytes dtype
  let mag := Int.ofNat (x % 2 ^ (w - 1))
  if bit x (w - 1) then -mag - 1 else mag

/-- The place of a value in the order MIN and MAX use. -/
def orderOf (dtype x : Nat) : Int :=
  if isFloat dtype then floatOrder dtype x
  else if isSigned dtype then toSigned (8 * dtypeBytes dtype) x
  else Int.ofNat x

/-- A contribution as its running value starts: any NaN gives the canonical NaN in SUM, MIN and MAX. -/
def fastStart (dtype redop x : Nat) : Nat := if isFloat dtype && decide (redop ≤ 2) && isNan dtype x then canonicalNan dtype else x

/-- One combination of a running value with a contribution. -/
def fastCombine (dtype redop a b : Nat) : Nat :=
  let b := fastStart dtype redop b
  match redop with
  | 0 => if isFloat dtype then roundAcc ((toAcc a dtype).combine (toAcc b dtype)) dtype else (a + b) % 2 ^ (8 * dtypeBytes dtype)
  | 1 | 2 =>
    if isFloat dtype && (isNan dtype a || isNan dtype b) then canonicalNan dtype
    else if redop = 1 then (if orderOf dtype b < orderOf dtype a then b else a)
    else (if orderOf dtype a < orderOf dtype b then b else a)
  | 3 => a &&& b
  | 4 => a ||| b
  | _ => a ^^^ b

/-! ## Partial sums (R383 to R386) -/

/-- The number of low zero bits of a number, up to a limit. -/
def lowZeros : Nat → Nat → Nat
  | 0, _ => 0
  | n + 1, x => if x % 2 = 1 then 0 else 1 + lowZeros n (x / 2)

/-- POS of a finite value: its lowest set bit, and at most 2,048, above which the encoding is reserved. -/
def posOf (v : Int) : Nat := if v = 0 then 0 else lowZeros 2048 v.natAbs

/-- A partial sum travels in compact form. -/
def Acc.compact (a : Acc) : Bool :=
  a.kind != .finite || (let w := a.v / Int.ofNat (2 ^ posOf a.v); decide (-(2 ^ 127 : Int) ≤ w ∧ w < (2 ^ 127 : Int)))

def AccKind.code : AccKind → Nat
  | .finite => 0
  | .posInf => 1
  | .negInf => 2
  | .nan => 3
def AccKind.ofCode : Nat → AccKind
  | 0 => .finite
  | 1 => .posInf
  | 2 => .negInf
  | _ => .nan

/-- The canonical compact form, 24 bytes, and the full form, 272 bytes. -/
def Acc.toCompact (a : Acc) : List Byte :=
  if a.kind = .finite then
    leBytes 24 (pack [(ofSigned 128 (a.v / Int.ofNat (2 ^ posOf a.v)), 128), (posOf a.v, 12), (0, 2), (b2n a.negZero, 1)])
  else leBytes 24 (pack [(0, 128), (0, 12), (a.kind.code, 2), (0, 1)])
def Acc.toFull (a : Acc) : List Byte := leBytes 272 (ofSigned 2176 a.v)

def accOfCompact (b : List Byte) : Acc :=
  let x := field b 0 24
  match AccKind.ofCode (bits x 141 140) with
  | .finite => ⟨.finite, toSigned 128 (bits x 127 0) * Int.ofNat (2 ^ bits x 139 128), bit x 142⟩
  | k => Acc.special k
def accOfFull (b : List Byte) : Acc := ⟨.finite, toSigned 2176 (field b 0 272), false⟩

/-! ## Running values -/

/-- A contribution of raw encodings, as values. -/
def valOf (exact : Bool) (dtype redop x : Nat) : Val := if exact then .exact (toAcc x dtype) else .fast (fastStart dtype redop x)

def Val.combine (dtype redop : Nat) : Val → Val → Val
  | .fast a, .fast b => .fast (fastCombine dtype redop a b)
  | .exact a, .exact b => .exact (a.combine b)
  | a, _ => a

/-- The result of an element at the root. -/
def Val.result (dtype : Nat) : Val → Nat
  | .fast x => x
  | .exact a => roundAcc a dtype

end Sys2Proof.Machine
end

