-- ==== Sys2Proof/Machine/Target.lean ====
section
/-! DEFINITION. Carter at the target (10 R296, R302 to R317, 09 R288 to R290): the gate and key checks, trackers,
translation and placement of arrived requests, and their acknowledgements. -/

namespace Sys2Proof.Machine

/-! ## Acknowledgements (10 R317) -/

/-- HOLD: ns since the registration of the newest packet covered. -/
def holdOf (now newest : Nat) : Nat := (now - newest) % 2 ^ 32

/-- An ACK of a message: its header, the bytes placed, and what it covers. -/
def Dev.sendAck (d : Dev) (e : Nat) (h : Hdr) (bytes : Nat) (echo : Bool) (newest : Nat) : Dev :=
  let hold := holdOf (d.belfryNow (regionOf e)) newest
  (d.sendEp e (h.answer 0x08 0 (respExt bytes 0 0 echo hold 0 0)) []).countSent (Ctr.acksSent e)

/-- The ACK map of a connection is sent and emptied. -/
def Dev.sendMap (d : Dev) (r id : Nat) : Dev :=
  match d.conn r id with
  | none => d
  | some c =>
    if c.map = 0 then d else
    let hold := holdOf (d.belfryNow r) c.mapNewest
    let h := { c.mapHdr.answer 0x09 0 (respExt 0 0 0 c.mapEcho hold 0 c.map) with msgSeq := c.mapBase, msgLen := 0 }
    let d := (d.sendEp c.ep h []).countSent (Ctr.ackMapsSent c.ep)
    let now := d.belfryNow r
    d.modConn r id (fun c => { c with map := 0, mapEcho := false, used := now })

/-- The map of a connection is sent once ACK_DELAY has passed since it opened (R317, 00 R14). -/
def Dev.ackMapExpiry (d : Dev) (r id : Nat) : Dev :=
  match d.conn r id with
  | some c => if c.map != 0 && decide (c.mapOpened + (d.region r).chip.ackDelay ≤ d.belfryNow r) then d.sendMap r id else d
  | none => d

/-- A whole message placed (10 R313, R317), registered at `time`. -/
def Dev.ackWhole (d : Dev) (e : Nat) (h : Hdr) (time : Nat) : Dev :=
  let r := regionOf e
  match (d.region r).findConn h.dstFen h.srcFen h.cls with
  | none => d.sendAck e h h.msgLen h.cmark time
  | some (id, c) =>
    let off := (h.msgSeq + 2 ^ 24 - c.mapBase) % 2 ^ 24
    let d := d.ackMapExpiry r id
    let d := if c.map != 0 && decide (64 ≤ off) then d.sendMap r id else d
    let now := d.belfryNow r
    d.modConn r id (fun c =>
      if c.map = 0 then
        { c with mapBase := h.msgSeq, map := 1, mapEcho := h.cmark, mapOpened := now, mapHdr := h, mapNewest := time, used := now }
      else { c with used := now, map := putBit c.map off true, mapEcho := c.mapEcho || h.cmark,
                    mapHdr := if c.mapNewest ≤ time then h else c.mapHdr, mapNewest := max c.mapNewest time })

/-! ## Trackers (10 R314) -/

def Region.findTracker (x : Region) (localFen peer cls seq : Nat) : Option (Nat × Tracker) :=
  x.trackers.find? (fun t => t.2.conn == (localFen, peer, cls) && t.2.msgSeq == seq)

def Dev.modTracker (d : Dev) (r id : Nat) (f : Tracker → Tracker) : Dev :=
  d.modRegion r (fun x => { x with trackers := tmod x.trackers id f })

/-- A packet counted by its ATTEMPT: none when its attempt is older. -/
def Tracker.register (t : Tracker) (h : Hdr) (n now : Nat) : Option Tracker :=
  if h.attempt < t.attempt then none else
  let t := if t.attempt < h.attempt then
      { t with attempt := h.attempt, done := 0, placed := 0, echo := false, acked := 0, unacked := none }
    else t
  some { t with hdr := h, done := t.done + n, echo := t.echo || h.cmark, newest := now }

/-- The tracker of a PUT_DATA that is not a whole message, with the packet counted. -/
inductive Tracked where
  | whole
  | counted (id : Nat)
  | stale
  | full
  deriving DecidableEq, Repr

/-- A tracker whose idle time has passed is freed (10 R316), at the first tick that shows it (00 R14). -/
def Dev.expireTracker (d : Dev) (r id : Nat) : Dev :=
  match tget (d.region r).trackers id with
  | some t =>
    if t.newest + (d.region r).chip.trackerIdle ≤ d.belfryNow r then
      (d.count (Ctr.trackerExpiries t.ep)).modRegion r (fun x => { x with trackers := tdrop x.trackers id })
    else d
  | none => d

def Dev.track (d : Dev) (r e : Nat) (p : Packet) : Dev × Tracked :=
  let h := p.hdr
  let n := p.payload.length
  let now := d.belfryNow r
  let d := match (d.region r).findTracker h.dstFen h.srcFen h.cls h.msgSeq with
    | some (id, _) => d.expireTracker r id
    | none => d
  if h.msgOff = 0 ∧ h.plen = h.msgLen then (d, .whole) else
  match (d.region r).findTracker h.dstFen h.srcFen h.cls h.msgSeq with
  | some (id, t) =>
    match t.register h n now with
    | some t => (d.modTracker r id (fun _ => t), .counted id)
    | none => (d.count (Ctr.staleAttemptDrops e), .stale)
  | none =>
    if 32768 ≤ (d.region r).trackers.length then (d, .full) else
    let id := d.nextId
    let t : Tracker :=
      { ep := e, conn := (h.dstFen, h.srcFen, h.cls), msgSeq := h.msgSeq, hdr := h, msgLen := h.msgLen, attempt := h.attempt,
        done := n, placed := 0, echo := h.cmark, newest := now, acked := 0, unacked := none }
    (d.takeId.modRegion r (fun x => { x with trackers := tput x.trackers id t }), .counted id)

/-- Works of the tracker's current attempt that are not placed yet. -/
def Region.trackerBusy (x : Region) (id attempt : Nat) : Bool :=
  x.works.any (fun w => w.2.tracker == some id && w.2.pkt.hdr.attempt == attempt)

/-- The acknowledgements a tracked message calls for: its final ACK when every byte is placed or refused, and one
when ACK_BYTES have been placed. DESIGN CHOICE: HOLD and ECHO go by the newest packet that the tracker has registered, placed or
not, since R314's tracker keeps no other time (log entry 30). -/
def Dev.trackerAck (d : Dev) (r id : Nat) : Dev :=
  match tget (d.region r).trackers id with
  | none => d
  | some t =>
    if t.msgLen ≤ t.done && !(d.region r).trackerBusy id t.attempt then
      (d.sendAck t.ep t.hdr t.placed t.echo t.newest).modRegion r (fun x => { x with trackers := tdrop x.trackers id })
    else if (d.region r).chip.ackBytes ≤ t.placed - t.acked then
      (d.sendAck t.ep t.hdr t.placed t.echo t.newest).modTracker r id (fun t => { t with acked := t.placed, unacked := none })
    else d

/-- A work's bytes were placed (`n`), or refused (0): counted in its own attempt only. -/
def Dev.trackerPlaced (d : Dev) (r : Nat) (w : Work) (n : Nat) : Dev :=
  match w.tracker with
  | none => d
  | some id =>
    let now := d.belfryNow r
    let d := d.modTracker r id (fun t =>
      if t.attempt = w.pkt.hdr.attempt ∧ 0 < n then
        { t with placed := t.placed + n, unacked := some (t.unacked.getD now) }
      else t)
    d.trackerAck r id

/-! ## The key check (09 R285, R288) -/

/-- Fields of a reach key. -/
def keyIndex (k : Nat) : Nat := bits k 9 0
def keyEp (k : Nat) : Nat := 2 * bits k 12 10 + bits k 13 13
def keyPasid (k : Nat) : Nat := bits k 33 14
def keyGen (k : Nat) : Nat := bits k 49 34
def keySalt (k : Nat) : Nat := bits k 63 50
def makeKey (index e pasid gen salt : Nat) : Nat := pack [(index, 10), (e / 2, 3), (e % 2, 1), (pasid, 20), (gen, 16), (salt, 14)]

/-- The permission bit a request needs: read, write, atomic. -/
def permOf (op : Nat) : Nat := if op = 0 then 1 else if op = 1 then 0 else 2

/-- The first test of R288 that fails, as its DETAIL. -/
def Dev.keyCheck (d : Dev) (e : Nat) (p : Packet) : Option Nat :=
  let k := p.hdr.reachKey
  let s := (d.ep e).key (keyIndex k)
  if keyEp k ≠ e ∨ p.hdr.dstEpi ≠ s.epi then some 0x0101
  else if s.state = .free then some 0x0102
  else if s.state ≠ .valid ∨ keyGen k ≠ s.gen ∨ keySalt k ≠ s.salt then some 0x0103
  else if keyPasid k ≠ s.pasid then some 0x0104
  else if p.named ≠ 0 ∧ (p.hdr.remoteAddr < s.base ∨ s.limit < p.hdr.remoteAddr + p.named) then some 0x0105
  else if !bit s.perm (permOf p.hdr.op) then some 0x0106
  else none

/-- A packet counts as placed (09 R289): INFLIGHT falls. -/
def Dev.keyPlaced (d : Dev) (e : Nat) : Option Nat → Dev
  | some k => d.modKey e k (fun s => { s with inflight := s.inflight - 1 })
  | none => d

/-! ## Works (10 R312) -/

def Dev.work (d : Dev) (r id : Nat) : Option Work := tget (d.region r).works id
def Dev.modWork (d : Dev) (r id : Nat) (f : Work → Work) : Dev :=
  d.modRegion r (fun x => { x with works := tmod x.works id f })

/-- The work ends: `n` bytes of a PUT_DATA were placed. -/
def Dev.endWork (d : Dev) (r id n : Nat) : Dev :=
  match d.work r id with
  | none => d
  | some w =>
    let d := d.modRegion r (fun x => { x with works := tdrop x.works id })
    (d.keyPlaced w.ep w.key).trackerPlaced r w n

/-- The work ends with a refusal. A failure of an RNDV_GET is recorded against its send (11 R356). -/
def Dev.refuseWork (d : Dev) (r id status detail : Nat) (fault : Option (Nat × Nat)) : Dev :=
  match d.work r id with
  | none => d
  | some w =>
    let d := match w.op, fault with
      | some o, some f =>
        d.modRegion r (fun x => { x with ops := tmod x.ops o (fun p => { p with servedFault := some (p.servedFault.getD f) }) })
      | _, _ => d
    (d.refuse w.ep w.pkt status detail).endWork r id 0

/-- A refusal because the endpoint left RUN (07 R223). -/
def Dev.refuseWorkGate (d : Dev) (r id status detail : Nat) : Dev :=
  match d.work r id with
  | none => d
  | some w => (d.refuseGate w.ep w.pkt status detail).endWork r id 0

/-- Where a work's bytes lie: PASID, user access, virtual address; a served send's own buffer for an RNDV_GET
(11 R356). -/
def Dev.workSpace (d : Dev) (r : Nat) (w : Work) : Option (Nat × Bool × Nat) :=
  match w.op with
  | none => some (keyPasid w.pkt.hdr.reachKey, true, w.pkt.hdr.remoteAddr)
  | some o => (tget (d.region r).ops o).map (fun p => (p.pasid, p.user, (p.addr + w.pkt.hdr.msgOff) % 2 ^ 64))

def workKind (op : Nat) : Kind := if op = 0 then .write else if op = 2 ∨ op = 3 then .atomic else .read

/-- f(old) of R296 for the operations that loop. -/
def atomicApply (aop w old v : Nat) : Nat :=
  match aop with
  | 0 => (old + v) % 2 ^ w
  | 1 => old &&& v
  | 2 => old ||| v
  | 3 => old ^^^ v
  | 6 => if toSigned w v < toSigned w old then v else old
  | 7 => if toSigned w old < toSigned w v then v else old
  | 8 => min old v
  | 9 => max old v
  | _ => v

/-- Operand and compare value of an ATOMIC (10 R302); a SIGNAL's operand is in its header. -/
def atomOperand (p : Packet) : Nat := field p.payload 0 p.named
def atomCompare (p : Packet) : Nat := field p.payload 16 p.named

/-- The PASID and key slot of a work's translation (09 R283). -/
def Dev.workTag (d : Dev) (r : Nat) (w : Work) : Option (Nat × Option Nat) := (d.workSpace r w).map (fun s => (s.1, w.key))

/-- Placement, step 5 of R312: the bytes of the work are translated. -/
def Dev.placeWork (d : Dev) (r id : Nat) : Dev :=
  match d.work r id with
  | none => d
  | some w =>
    let pa := (w.pas.map (fun x => x.1)).headD 0
    let space := d.workTag r w
    match w.pkt.hdr.op with
    | 0x00 => d.modWork r id (fun w => { w with stage := .writing })
    | 0x01 | 0x12 =>
      let va := match d.workSpace r w with
        | some (_, _, va) => va
        | none => w.pkt.hdr.remoteAddr
      let ps := (w.pas.zip (pieces 3 va w.pkt.named)).map (fun x => (x.1.1, x.2.2))
      (d.modWork r id (fun w => { w with stage := .reading })).startRead w.ep .payload (.work id) space ps
    | op =>
      if !(d.ep w.ep).cfg.atomicReq then d.refuseWork r id 0x0E 0x0201 none
      else if op = 0x03 then
        (d.modWork r id (fun w => { w with stage := .atomicOut 0 none })).startAtomic w.ep (.work id) space .fetchAdd 8 pa
          w.pkt.hdr.operand 0
      else
        let go (o : HostOp) := (d.modWork r id (fun w => { w with stage := .atomicOut 0 none })).startAtomic w.ep (.work id) space o
          w.pkt.named pa (atomOperand w.pkt) (atomCompare w.pkt)
        match w.pkt.hdr.aop with
        | 0 => go .fetchAdd
        | 4 => go .swap
        | 5 => go .cas
        | _ => (d.modWork r id (fun w => { w with stage := .loopRead 0 })).startRead w.ep .atomic (.work id) space [(pa, 8)]

/-- Bytes of a message after a packet's own. -/
def restOf (p : Packet) : Nat := if p.hdr.op = 2 ∨ p.hdr.op = 3 then 0 else p.hdr.msgLen - p.hdr.msgOff - p.named

/-- A work translates its pages in order (step 4), and is placed when all are found. -/
def Dev.workOn : Nat → Dev → Nat → Nat → Dev
  | 0, d, _, _ => d
  | n + 1, d, r, id =>
    match d.work r id with
    | none => d
    | some w =>
      match d.workSpace r w with
      | none => (d.count (Ctr.handleRefusals w.ep)).refuseWork r id 0x03 0x0305 none
      | some (pasid, user, va) =>
        let kind := workKind w.pkt.hdr.op
        match (pieces 3 va w.pkt.named).drop w.pas.length with
        | [] => (d.speculate w.ep pasid va w.pkt.named (restOf w.pkt) kind user w.key).placeWork r id
        | (a, _) :: _ =>
          match d.translate w.ep (.work id) pasid a kind user w.key with
          | (d, none) => d
          | (d, some (.fault k)) => d.refuseWork r id 0x04 k (some (0x01, k))
          | (d, some (.page pa device)) =>
            Dev.workOn n (d.modWork r id (fun w => { w with pas := w.pas ++ [(pa, device)] })) r id

/-- A walk that a work waited for has ended. -/
def Dev.workFound (d : Dev) (r id : Nat) (f : Found) : Dev :=
  match f with
  | .fault k => d.refuseWork r id 0x04 k (some (0x01, k))
  | .page pa device => Dev.workOn 4 (d.modWork r id (fun w => { w with pas := w.pas ++ [(pa, device)] })) r id

/-- A checked request begins its translation. -/
def Dev.startWork (d : Dev) (r e : Nat) (p : Packet) (key tracker op : Option Nat) : Dev :=
  let id := d.nextId
  let now := d.belfryNow r
  let w : Work := { ep := e, pkt := p, stage := .translating, pas := [], key := key, tracker := tracker, op := op,
                    time := now }
  Dev.workOn 4 (d.takeId.modRegion r (fun x => { x with works := tput x.works id w })) r id

/-! ## The arrival of requests -/

/-- OP values and their class (10 R302, 11 R335). -/
def requestOp (op : Nat) : Bool := decide (op ≤ 3) || decide (0x10 ≤ op ∧ op ≤ 0x13)
def responseOp (op : Nat) : Bool := decide (0x08 ≤ op ∧ op ≤ 0x0C) || op == 0x18 || op == 0x19

/-- A packet is of an OP, in its class, with an AOP of R296 when it is an ATOMIC (10 R302). -/
def opOk (p : Packet) (op : Nat) : Bool :=
  p.hdr.op == op && (if requestOp op then p.hdr.cls == 0 else p.hdr.cls == 1) &&
    (op != 2 || (decide (p.hdr.aop ≤ 9) && (!p.hdr.wide || p.hdr.aop == 4 || p.hdr.aop == 5)))

/-- A request for a key: steps 1 and 2 of R312, then what follows a passed check. -/
def Dev.keyedRequest (d : Dev) (r : Nat) (p : Packet) (op : Nat) (go : Dev → Nat → Nat → Dev) : Dev :=
  let e := d.targetEp r p.hdr
  if !opOk p op then d.count (Ctr.badOpcodes e)
  else if !d.targetUp r p.hdr then d.refuseGate e p 0x05 0
  else match d.keyCheck e p with
    | some detail => (d.count (Ctr.keyRefusals e)).refuse e p 0x03 detail
    | none =>
      let k := keyIndex p.hdr.reachKey
      go (d.modKey e k (fun s => { s with inflight := s.inflight + 1 })) e k

/-- PUT_DATA_RECEIVED (10 R312 to R315). -/
def Dev.putData (d : Dev) (r : Nat) (p : Packet) : Dev :=
  d.keyedRequest r p 0x00 (fun d e k =>
    match d.track r e p with
    | (d, .whole) => d.startWork r e p (some k) none none
    | (d, .counted t) => d.startWork r e p (some k) (some t) none
    | (d, .stale) => d.keyPlaced e (some k)
    | (d, .full) => (d.retryLater e p).keyPlaced e (some k))

def execPutDataReceived (r : Fin 4) (pkt : Packet) (s : State) : Host.Outcome State Fault Refusal :=
  onArrival r.val pkt (fun d => d.putData r.val pkt) s

def execGetReqReceived (r : Fin 4) (pkt : Packet) (s : State) : Host.Outcome State Fault Refusal :=
  onArrival r.val pkt
    (fun d => d.keyedRequest r.val pkt 0x01 (fun d e k => d.startWork r.val e pkt (some k) none none)) s

def execAtomicReceived (r : Fin 4) (pkt : Packet) (s : State) : Host.Outcome State Fault Refusal :=
  onArrival r.val pkt
    (fun d => d.keyedRequest r.val pkt 0x02 (fun d e k => d.startWork r.val e pkt (some k) none none)) s

def execSignalReceived (r : Fin 4) (pkt : Packet) (s : State) : Host.Outcome State Fault Refusal :=
  onArrival r.val pkt
    (fun d => d.keyedRequest r.val pkt 0x03 (fun d e k => d.startWork r.val e pkt (some k) none none)) s

/-! ## Placement -/

/-- PLACEMENT_DONE (09 R289, 07 R223): the host writes of a PUT_DATA reach the gate island. In RUN they are issued;
otherwise they are discarded and the packet refused. -/
def Dev.placementDone (d : Dev) (r id : Nat) : Dev :=
  match d.work r id with
  | none => d
  | some w =>
    if w.stage ≠ .writing then d
    else if !d.epRuns w.ep then (d.count (Ctr.lateWriteDiscards w.ep)).refuseWorkGate r id 0x05 0
    else
      let ps := pieces 3 w.pkt.hdr.remoteAddr w.pkt.named
      let d := forEach (ps.zip w.pas) (fun x d =>
        let i := (x.1.1 + 2 ^ 64 - w.pkt.hdr.remoteAddr) % 2 ^ 64
        d.hostWrite w.ep x.2.1 ((w.pkt.payload.drop i).take x.1.2) (!x.2.2) .payload) d
      let d := (d.count (Ctr.rmaPktsPlaced w.ep)).endWork r id w.pkt.payload.length
      if w.tracker.isNone then d.ackWhole w.ep w.pkt.hdr w.time else d

def execPlacementDone (r : Fin 4) (work : Nat) (s : State) : Host.Outcome State Fault Refusal :=
  actIf (fun d => d.regionRuns r.val) (fun d => d.placementDone r.val work) s

/-- The host read of a GET_REQ or an RNDV_GET has ended (10 R304, 11 R356): its data is sent. -/
def Dev.readDone (d : Dev) (r id : Nat) (res : HostRes) : Dev :=
  match d.work r id with
  | none => d
  | some w =>
    match res with
    | .ok data =>
      let n := w.pkt.named
      let d := match w.op with
        | some o => d.modRegion r (fun x =>
            { x with ops := tmod x.ops o (fun p => { p with served := p.served ++ [(w.pkt.hdr.msgOff, n)] }) })
        | none => d
      let op := if w.op.isSome then 0x19 else 0x0A
      let d := d.sendEp w.ep (w.pkt.hdr.answer op w.pkt.hdr.msgOff (respExt 0 0 0 w.pkt.hdr.cmark 0 0 0)) (sliceBytes data 0 n)
      (d.count (Ctr.rmaPktsPlaced w.ep)).endWork r id 0
    | _ => d.refuseWork r id 0x04 0x0204 (some (0x02, 0))

/-- An atomic ends with the old value: ATOMIC_RESP, or the ACK of a SIGNAL (10 R304, R318). -/
def Dev.atomicOk (d : Dev) (r id old : Nat) : Dev :=
  match d.work r id with
  | none => d
  | some w =>
    let d := d.count (Ctr.rmaPktsPlaced w.ep)
    let d := if w.pkt.hdr.op = 0x03 then d.sendAck w.ep w.pkt.hdr 8 w.pkt.hdr.cmark w.time
      else
        let x := respExt 0 0 0 w.pkt.hdr.cmark (bits old 95 64) (bits old 127 96) (bits old 63 0)
        d.sendEp w.ep (w.pkt.hdr.answer 0x0B 0 x) []
    d.endWork r id 0

/-- A host request of an atomic has ended (10 R296). -/
def Dev.atomicDone (d : Dev) (r id : Nat) (res : HostRes) : Dev :=
  match d.work r id with
  | none => d
  | some w =>
    let pa := (w.pas.map (fun x => x.1)).headD 0
    match w.stage, res with
    | .loopRead tries, .ok data =>
      let old := leNat (sliceBytes data 0 8)
      let new := atomicApply w.pkt.hdr.aop 64 old (atomOperand w.pkt)
      (d.modWork r id (fun w => { w with stage := .atomicOut tries (some old) })).startAtomic w.ep (.work id) (d.workTag r w) .cas 8 pa new old
    | .loopRead _, _ => d.refuseWork r id 0x04 0x0205 none
    | .atomicOut _ none, .ok data => d.atomicOk r id (leNat (sliceBytes data 0 w.pkt.named))
    | .atomicOut tries (some v), .ok data =>
      let found := leNat (sliceBytes data 0 8)
      if found = v then d.atomicOk r id v
      else if 64 ≤ tries + 1 then d.refuseWork r id 0x0E 0x0202 none
      else (d.modWork r id (fun w => { w with stage := .loopRead (tries + 1) })).startRead w.ep .atomic (.work id) (d.workTag r w) [(pa, 8)]
    | .atomicOut _ _, .ur | .atomicOut _ _, .ca => d.refuseWork r id 0x04 0x0205 none
    | .atomicOut _ _, _ => d.refuseWork r id 0x08 0x0205 none
    | _, _ => d

/-! ## The clocks of R316 and R317 -/

/-- ACK_DELAY_EXPIRY. -/
def Dev.ackDelayExpiry (d : Dev) (r id : Nat) : Dev :=
  match tget (d.region r).trackers id with
  | none => d
  | some t =>
    match t.unacked with
    | some u =>
      if u + (d.region r).chip.ackDelay ≤ d.belfryNow r then
        (d.sendAck t.ep t.hdr t.placed t.echo t.newest).modTracker r id (fun t => { t with acked := t.placed, unacked := none })
      else d
    | none => d

/-- The packet registered last is the whole message (10 R313, 11 R350). -/
def Match.whole (m : Match) : Bool := m.hdr.plen == m.msgLen && m.hdr.msgOff == 0

/-- A match entry as the tracker of its message (11 R350): a whole message has no acknowledgement before its own. -/
def Dev.entryAckDelay (d : Dev) (r id : Nat) : Dev :=
  forEach (epsOf r) (fun e d =>
    match tget (d.ep e).store id with
    | none => d
    | some m =>
      match m.unacked with
      | some u =>
        if !m.whole && decide (u + (d.region r).chip.ackDelay ≤ d.belfryNow r) then
          (d.sendAck e m.hdr m.placed m.echo m.newest).modMatch e id (fun m => { m with acked := m.placed, unacked := none })
        else d
      | none => d) d

/-- The delay runs for trackers and for match entries alike; a number names one of the two. -/
def execAckDelayExpiry (r : Fin 4) (tracker : Nat) (s : State) : Host.Outcome State Fault Refusal :=
  actIf (fun d => d.regionRuns r.val) (fun d => (d.ackDelayExpiry r.val tracker).entryAckDelay r.val tracker) s

/-- ACK_MAP_EXPIRY. -/
def execAckMapExpiry (r : Fin 4) (conn : Nat) (s : State) : Host.Outcome State Fault Refusal :=
  actIf (fun d => d.regionRuns r.val) (fun d => d.ackMapExpiry r.val conn) s

/-- TRACKER_EXPIRY (10 R316). -/
def execTrackerExpiry (r : Fin 4) (tracker : Nat) (s : State) : Host.Outcome State Fault Refusal :=
  actIf (fun d => d.regionRuns r.val) (fun d => d.expireTracker r.val tracker) s

end Sys2Proof.Machine
end

