-- ==== Sys2Proof/Machine/Initiator.lean ====
section
/-! DEFINITION. Carter at the initiator (10 R297 to R300, R305 to R311, R318 to R327; 11 R332, R333, R353, R355): starting
operations, building and injecting their packets, the responses, the window, timers and retries, and completion. -/

namespace Sys2Proof.Machine

/-! ## Operations -/

/-- An operation with nothing in it. -/
def Op.blank : Op :=
  { kind := .put, ep := 0, sq := 0, entry := 0, conn := 0, addr := 0, remote := 0, key := 0, length := 0, operand := 0,
    compare := 0, aop := 0, wide := false, fetch := false, inline := none, built := none, localFen := 0, dstFen := 0, dstEpi := 0, srcEpi := 0,
    pasid := 0, user := false, fence := false, msgSeq := 0, sync := false, attempt := 0, next := 0, acked := 0, refused := 0,
    refusals := [], lastRetryLater := false, resend := [], again := [], timer := none, timeout := 0, sent := [], cost := 0,
    stamp := 0, fenceCounted := false, landing := [], localFault := none, signal := none, dataLen := 0, tag := 0, rank := 0,
    context := 0, sendSeq := 0, handle := 0, lent := none, lastGet := none, served := [], servedFault := none, matchId := 0, engine := 0,
    tracked := false, numbered := false, started := false, lost := false, connWaited := false, sendWaited := false }

def Dev.op (d : Dev) (r id : Nat) : Option Op := tget (d.region r).ops id
def Dev.modOp (d : Dev) (r id : Nat) (f : Op → Op) : Dev := d.modRegion r (fun x => { x with ops := tmod x.ops id f })

/-- Kinds that read or write no range of the peer by offset: one packet each. -/
def Op.single (o : Op) : Bool :=
  match o.kind with
  | .signal | .atomic | .rts | .fin => true
  | .put | .get | .eager | .pull => o.length == 0

/-- A PUT, a GET or a pull of no bytes: it sends no packet (R297). -/
def Op.empty (o : Op) : Bool := o.length == 0 && (o.kind == .put || o.kind == .get || o.kind == .pull)

/-- Its entry's queue is HALTED: it is parked (07 R213, 08 R259). -/
def Dev.opParked (d : Dev) (o : Op) : Bool := o.kind != .fin && (d.sq o.ep o.sq).state == .halted

/-- The bytes of the packet at an offset (R305, 11 R332). -/
def Op.chunk (o : Op) (off : Nat) : Nat :=
  match o.kind with
  | .put | .get => min (o.length - off) (4096 - (o.remote + off) % 4096)
  | .eager | .pull => min (o.length - off) (4096 - off % 4096)
  | .signal | .atomic | .rts | .fin => 0

/-- The cost of the packet at an offset (R308). -/
def Op.price (o : Op) (off : Nat) : Nat :=
  match o.kind with
  | .get | .pull => o.chunk off
  | _ => max 64 (o.chunk off)

/-- The end of the offsets a message's packets start at. -/
def Op.span (o : Op) : Nat := if o.single then 1 else o.length

/-- The offset of the next packet due: a packet sent again by R315, and otherwise the next in order. -/
def Op.due (o : Op) : Option Nat :=
  if o.lost then none else
  match o.again with
  | a :: _ => some a
  | [] => if o.next < o.span then some o.next else none

/-- Offsets that a RETRY_LATER took back. -/
def Op.takenBack (o : Op) : List Nat := o.again ++ o.resend.map (fun x => x.1)

/-- The bytes sent in this attempt and not taken back by a RETRY_LATER (R327); a packet that has no bytes by offset counts as one. -/
def Op.sentBytes (o : Op) : Nat :=
  if o.single then (if o.next = 0 ∨ !o.takenBack.isEmpty then 0 else 1)
  else min o.next o.length - (o.takenBack.foldl (fun n a => n + o.chunk a) 0)

/-- Another message of the same connection that was accepted earlier and has not completed (R311). -/
def Dev.earlier (d : Dev) (r id : Nat) (o : Op) : Bool :=
  (d.region r).ops.any (fun p => decide (p.1 < id) && p.2.localFen == o.localFen && p.2.dstFen == o.dstFen && !p.2.empty)

/-- A fence holds the operation, and every SIGNAL as a fenced packet (R311, 05 R160). -/
def Dev.fenceHolds (d : Dev) (r id : Nat) (o : Op) : Bool := (o.fence || o.kind == .signal) && d.earlier r id o

/-- FENCE_WAITS counts each operation held. -/
def Dev.countFence (d : Dev) (r id : Nat) : Dev :=
  match d.op r id with
  | none => d
  | some o =>
    if !o.fenceCounted && d.fenceHolds r id o then
      (d.modOp r id (fun o => { o with fenceCounted := true })).count (Ctr.fenceWaits o.ep)
    else d

/-! ## Completion (R318 to R320) -/

/-- The refusal of a status at the lowest offset. -/
def Op.refusal (o : Op) (p : Refused → Bool) : Option (Nat × Nat) :=
  (minBy (fun f => f.off) (o.refusals.filter p)).map (fun f => (f.status, f.detail))

/-- The first alternative that is there. -/
def firstOf : List (Option (Nat × Nat)) → Nat × Nat
  | [] => (0, 0)
  | some x :: _ => x
  | none :: xs => firstOf xs

/-- STATUS and DETAIL of a completed operation (R319); `timed` is what the timer gave. -/
def Op.status (o : Op) (timed : Option (Nat × Nat)) : Nat × Nat :=
  let has (s : Nat) := o.refusal (fun f => f.status == s)
  let cut := o.refusal (fun f => f.status == 0x03 && f.detail == 0x0103)
  firstOf
    [o.localFault, has 0x05, has 0x04,
     if o.kind = .put ∧ o.inline.isNone ∧ 0 < o.acked ∧ cut.isSome then some (0x06, 0x0103) else none,
     has 0x03, has 0x0E, timed, has 0x08]

/-- BYTES of the record (R295, R319). -/
def Op.bytes (o : Op) (status : Nat) : Nat :=
  if o.kind = .signal then o.dataLen else if status = 0 then o.length else o.acked

/-- A tracker of the initiating pool becomes free (R320). -/
def Region.dropTracker (x : Region) (id : Nat) : Region := { x with trackerOf := x.trackerOf.filter (fun t => t.2 != id) }

/-- The operation leaves: its tracker, its cost and its place in OUTSTANDING (R308, R320). -/
def Dev.dropOp (d : Dev) (r id : Nat) : Dev :=
  match d.op r id with
  | none => d
  | some o =>
    let d := (d.modRegion r (fun x => { x.dropTracker id with ops := tdrop x.ops id })).forsake o.ep
      (fun w => w == .source id || w == .landing id)
    if o.started then
      d.modConn r o.conn (fun c => { c with inflight := c.inflight - o.cost, outstanding := c.outstanding - 1 })
    else d

/-- Counted by the final status (R323, R329). -/
def Dev.countStatus (d : Dev) (e status : Nat) : Dev :=
  if status = 0x06 then d.count (Ctr.partialWrites e)
  else if status = 0x08 then d.count (Ctr.outcomeUnknowns e)
  else d

/-- The cost still counted for a message falls by `n`, and INFLIGHT with it. -/
def Dev.pay (d : Dev) (r id n : Nat) : Dev :=
  match d.op r id with
  | none => d
  | some o =>
    let k := min n o.cost
    (d.modOp r id (fun o => { o with cost := o.cost - k })).modConn r o.conn (fun c => { c with inflight := c.inflight - k })

/-- A PUT_SIGNAL whose data is placed goes on to its signal (R311). -/
def Dev.toSignal (d : Dev) (r id : Nat) (o : Op) (s : Nat × Nat × Nat) : Dev :=
  let sync := match d.conn r o.conn with
    | some c => c.syncing
    | none => false
  let d := (d.pay r id o.cost).modOp r id (fun o =>
    { o with kind := .signal, remote := s.1, operand := s.2.1, msgSeq := s.2.2, dataLen := o.length, length := 8, signal := none,
             sync := sync, attempt := 0, next := 0, acked := 0, refused := 0, refusals := [], lastRetryLater := false,
             resend := [], again := [], timer := none, sent := [] })
  d.countFence r id

/-- The RNDV_FIN that follows a receive's record (11 R355). -/
def Dev.addFin (d : Dev) (e engine : Nat) (m : Match) : Dev :=
  let id := d.nextId
  let r := regionOf e
  let o := { Op.blank with
    kind := .fin, ep := e, engine := engine, sq := m.sq, localFen := m.localFen, dstFen := m.hdr.srcFen, dstEpi := m.hdr.srcEpi,
    srcEpi := m.epi, sendSeq := m.sendSeq, handle := m.handle, stamp := d.belfryNow r }
  d.takeId.modRegion r (fun x => { x with ops := tput x.ops id o })

/-- The status of a receive that ended without another one: TRUNCATED when its message was longer than its buffer
(11 R347, R351). -/
def Match.okStatus (m : Match) : Nat := if m.capacity < m.msgLen then 0x09 else 0

/-- A matched receive completes and its entry is freed (11 R351). -/
def Dev.endReceive (d : Dev) (e id : Nat) (status detail bytes : Nat) : Dev :=
  match tget (d.ep e).store id with
  | none => d
  | some m =>
    let d := if status = 0x09 then d.count (Ctr.truncations e) else d
    ((d.freeMatch e id).modEp e (fun x => { x with places := x.places.filter (fun p => p.2.owner != .entry id) })).complete e m.sq m.entry ⟨status, bytes, m.tag, m.rank, detail⟩

/-- A pull has ended (11 R355). -/
def Dev.endPull (d : Dev) (o : Op) (status detail : Nat) : Dev :=
  match tget (d.ep o.ep).store o.matchId with
  | none => d
  | some m =>
    let st := if status = 0 then m.okStatus else status
    let bytes := if status = 0 then o.length else o.acked
    (d.endReceive o.ep o.matchId st detail bytes).addFin o.ep o.engine m

/-- A message is complete (R319, R320): its operation completes, or goes on to its signal. -/
def Dev.finishOp (d : Dev) (r id : Nat) (timed : Option (Nat × Nat)) (result : Nat) : Dev :=
  match d.op r id with
  | none => d
  | some o =>
    let (st, detail) := o.status timed
    match o.kind, o.signal with
    | .put, some s =>
      if st = 0 then d.toSignal r id o s
      else ((d.countStatus o.ep st).dropOp r id).complete o.ep o.sq o.entry ⟨st, o.bytes st, 0, 0, detail⟩
    | .fin, _ => d.dropOp r id
    | .pull, _ => ((d.countStatus o.ep st).dropOp r id).endPull o st detail
    | _, _ => ((d.countStatus o.ep st).dropOp r id).complete o.ep o.sq o.entry ⟨st, o.bytes st, result, 0, detail⟩

/-! ## Starting (R297, R298, R300, R307, 11 R332, R333) -/

/-- The lowest index that a table does not list. -/
def firstGap {α : Type} : Tbl α → Nat → Nat
  | [], n => n
  | (k, _) :: t, n => if k = n then firstGap t (n + 1) else n

/-- A send of a connection that keeps TX_LOW where it is (11 R333). -/
def Op.holdsTxLow (conn : Nat) (o : Op) : Bool :=
  o.started && o.conn == conn && (o.kind == .eager || (o.kind == .rts && o.lent.isNone))

/-- TX_LOW of a connection. -/
def Region.txLow (x : Region) (conn : Nat) (c : Conn) : Nat :=
  match x.ops.find? (fun o => o.2.holdsTxLow conn) with
  | some o => o.2.sendSeq
  | none => c.txSeq

def Op.isSend (o : Op) : Bool := o.kind == .eager || o.kind == .rts

/-- An operation takes an initiating tracker (R307, 11 R353). -/
def Dev.giveTracker (d : Dev) (r id slot : Nat) (o : Op) : Dev :=
  let reuse := (tgetD (d.region r).reuse slot 0 + 1) % 2 ^ 17
  d.modRegion r (fun x =>
    { x with ops := tput x.ops id { o with tracked := true, handle := if o.kind = .rts then slot + 32768 * reuse else o.handle },
             reuse := tput x.reuse slot reuse, trackerOf := tput x.trackerOf slot id })

/-- An operation that has no tracker and needs one. -/
def Dev.wantsTracker (d : Dev) (o : Op) : Bool := !o.tracked && !o.empty && !d.opParked o

/-- Free trackers go to the operations that wait: between the region's two gates step 3 of R16 decides (R314), and within a
gate the order of acceptance. -/
def Dev.giveTrackers : Nat → Dev → Nat → Dev
  | 0, d, _ => d
  | n + 1, d, r =>
    let slot := firstGap (d.region r).trackerOf 0
    let waits := (d.region r).ops.filter (fun o => d.wantsTracker o.2)
    let gates := (waits.map (fun o => o.2.ep / 2 % 2)).eraseDups
    match if slot < 32768 then arbitrate 2 (d.region r).initPtr (gates.map (fun g => ⟨g, 0, 0⟩)) else none with
    | none => d
    | some (g, ptr) =>
      let d := d.modRegion r (fun x => { x with initPtr := ptr })
      match waits.find? (fun o => o.2.ep / 2 % 2 == g) with
      | some (id, o) => (d.giveTracker r id slot o).giveTrackers n r
      | none => d

/-- An operation takes its connection and its sequence numbers (R298): two for a PUT_SIGNAL. -/
def Dev.numberOp (d : Dev) (r id : Nat) (o : Op) (conn : Nat) (c : Conn) : Dev :=
  let two := o.signal.isSome || o.kind == .signal
  let second := (c.nextSeq + 1) % 2 ^ 24
  let seq := if o.kind = .signal then second else c.nextSeq
  let gone (m : Nat × Nat × Nat) := m.1 == o.localFen && m.2.1 == o.dstFen && (m.2.2 == seq || (two && m.2.2 == second))
  let d := d.modRegion r (fun x =>
    { x with ops := tput x.ops id { o with numbered := true, conn := conn, msgSeq := seq,
                                           signal := o.signal.map (fun s => (s.1, s.2.1, second)) },
             abandoned := x.abandoned.filter (fun m => !gone m) })
  d.modConn r conn (fun c => { c with nextSeq := (c.nextSeq + (if two then 2 else 1)) % 2 ^ 24 })

/-- An operation starts: a send takes its SEND_SEQ (11 R332). -/
def Dev.beginOp (d : Dev) (r id : Nat) (o : Op) (c : Conn) : Dev :=
  let d := d.modOp r id (fun o =>
    { o with started := true, sync := c.syncing, sendSeq := if o.isSend then c.txSeq else o.sendSeq })
  let d := d.modConn r o.conn (fun c =>
    { c with outstanding := c.outstanding + 1, txSeq := if o.isSend then (c.txSeq + 1) % 65536 else c.txSeq })
  let d := if o.kind = .eager then d.count (Ctr.sendsEager o.ep) else if o.kind = .rts then d.count (Ctr.sendsRndv o.ep) else d
  d.countFence r id

/-- Connections on which an earlier operation waits, and those on which an earlier send waits. -/
structure Blocked where
  conns : List (Nat × Nat)
  sends : List (Nat × Nat)
  deriving DecidableEq, Repr

/-- One operation that has not started, in the order of acceptance. DESIGN CHOICE: a PUT, PUT_INLINE or GET of no bytes, which sends
no packet, takes no MSG_SEQ and no context of its connection; R298 does not say (log entry 30). -/
def Dev.startOne (r : Nat) (x : Dev × Blocked) (id : Nat) : Dev × Blocked :=
  let (d, b) := x
  match d.op r id with
  | none => x
  | some o =>
    let k := (o.localFen, o.dstFen)
    if o.started || d.opParked o then x
    else if o.empty then
      if o.fence && d.earlier r id o then (d.countFence r id, b) else (d.finishOp r id none 0, b)
    else if !o.tracked || b.conns.contains k then (d, { b with conns := k :: b.conns })
    else
      match if o.numbered then (d, some o.conn) else d.takeConn o.ep o.localFen o.dstFen 0 with
      | (d, none) =>
        let d := if o.connWaited then d else (d.modOp r id (fun o => { o with connWaited := true })).count (Ctr.connWaits o.ep)
        (d, { b with conns := k :: b.conns })
      | (d, some cid) =>
        match d.conn r cid with
        | none => (d, b)
        | some c =>
          let d := if o.numbered then d else d.numberOp r id o cid c
          if o.isSend && (b.sends.contains k || decide (256 ≤ (c.txSeq + 65536 - (d.region r).txLow cid c) % 65536)) then
            let d := if o.sendWaited then d else (d.modOp r id (fun o => { o with sendWaited := true })).count (Ctr.sendWaits o.ep)
            (d, { b with sends := k :: b.sends })
          else (d.beginOp r id { o with conn := cid } c, b)

/-- Every operation of a region that can start does, and a pull that may start is queued for an engine. -/
def Dev.startOps (d : Dev) (r : Nat) : Dev :=
  let d := d.giveTrackers (d.region r).ops.length r
  (((d.region r).ops.map (fun o => o.1)).foldl (Dev.startOne r) (d, ⟨[], []⟩)).1.feedPull r

/-- A new operation, stamped with its acceptance. -/
def Dev.addOp (d : Dev) (o : Op) : Dev :=
  let id := d.nextId
  let r := regionOf o.ep
  (d.takeId.modRegion r (fun x => { x with ops := tput x.ops id { o with stamp := d.belfryNow r } })).startOps r

/-- A message has ended: what waited for its tracker, connection, window or fence may start. -/
def Dev.endOp (d : Dev) (r id : Nat) (timed : Option (Nat × Nat)) (result : Nat) : Dev :=
  (d.finishOp r id timed result).startOps r

/-- Complete when every byte is acknowledged or refused (R318), and for an operation that stopped by R327 when every
packet sent is. -/
def Dev.checkOp (d : Dev) (r id : Nat) : Dev :=
  match d.op r id with
  | none => d
  | some o =>
    if o.localFault.isSome then (if o.sentBytes ≤ o.acked + o.refused then d.endOp r id none 0 else d)
    else if !o.single && decide (o.length ≤ o.acked + o.refused) then d.endOp r id none 0
    else d

/-- An operation stops by R327. -/
def Dev.stopOp (d : Dev) (r id : Nat) (fault : Nat × Nat) : Dev :=
  (d.modOp r id (fun o => { o with localFault := some (o.localFault.getD fault) })).checkOp r id

/-! ## Injection (R305 to R311) -/

/-- A walk of the operation runs, or the read of its packet's bytes. -/
def Dev.opWalks (d : Dev) (id : Nat) (o : Op) : Bool :=
  (d.ep o.ep).walks.any (fun w => w.2.who == .source id || w.2.who == .landing id) || (d.ep o.ep).reads (.source id)

/-- The operation may send (R308, R310, R311). -/
def Dev.maySend (d : Dev) (r id : Nat) (o : Op) : Bool :=
  match o.due, d.conn r o.conn with
  | some off, some c =>
    o.started && !o.empty && o.localFault.isNone && o.lent.isNone && !d.opParked o && !d.opWalks id o && !d.fenceHolds r id o &&
      (d.epRuns o.ep || o.kind == .fin) && (c.inflight == 0 || decide (c.inflight + o.price off ≤ c.window))
  | _, _ => false

/-- Header bits [511:320] of a Scrivener request (11 R336). -/
def sendExt (tag rank context seq low handle : Nat) : Nat :=
  pack [(tag, 64), (rank, 32), (context, 16), (seq, 16), (low, 16), (handle, 32), (0, 16)]

/-- OP, MSG_LEN and bits [511:320] of a message's packet at an offset (R302, R303, 11 R335, R336). -/
def Op.form (o : Op) (off low : Nat) : Nat × Nat × Nat :=
  let at_ := (o.remote + off) % 2 ^ 64
  match o.kind with
  | .put => (0x00, o.length, endpointExt at_ o.key 0)
  | .get => (0x01, o.length, endpointExt at_ o.key (o.chunk off))
  | .atomic => (0x02, o.length, endpointExt o.remote o.key (o.aop + 16 * b2n o.wide + 32 * b2n o.fetch))
  | .signal => (0x03, 8, endpointExt o.remote o.key o.operand)
  | .eager => (0x10, o.length, sendExt o.tag o.rank o.context o.sendSeq low 0)
  | .rts => (0x11, o.length, sendExt o.tag o.rank o.context o.sendSeq low o.handle)
  | .pull => (0x12, o.length, sendExt (o.chunk off) 0 0 o.sendSeq 0 o.handle)
  | .fin => (0x13, 0, sendExt 0 0 0 o.sendSeq 0 o.handle)

/-- FENCE of a packet: the first of a fenced operation, and each SIGNAL (R311). -/
def Op.fenceBit (o : Op) : Bool := o.kind == .signal || (o.fence && o.attempt == 0 && o.sent.isEmpty)

/-- The request packet of a message at an offset. -/
def Op.header (o : Op) (off low : Nat) : Hdr :=
  let (op, len, ext) := o.form off low
  { dstFen := o.dstFen, srcFen := o.localFen, cls := 0, fence := o.fenceBit, mode := 0, rung := 0, unit := 0,
    opcode := opByte op o.sync o.attempt, dstEpi := o.dstEpi, srcEpi := o.srcEpi, msgSeq := o.msgSeq, msgLen := len,
    msgOff := if o.single then 0 else off, ext := ext }

/-- A message after the packet at an offset has been sent; its timer starts with the first packet of an attempt, and
that of an ATOMIC or SIGNAL with each sending (R321). -/
def Op.afterSend (o : Op) (off now timeout : Nat) (landing : List (Nat × Nat × Bool)) : Op :=
  let restart := o.timer.isNone || o.kind == .atomic || o.kind == .signal
  { o with
    built := none
    next := if o.again.isEmpty then off + max 1 (o.chunk off) else o.next
    again := o.again.drop 1
    sent := o.sent.filter (fun s => s.off != off) ++ [⟨off, o.chunk off, now⟩]
    timer := if restart then some now else o.timer
    timeout := if restart then timeout else o.timeout
    cost := o.cost + o.price off
    stamp := now
    landing := o.landing.filter (fun l => landing.all (fun m => m.1 != l.1)) ++ landing }

/-- A packet of an operation injected: at its gate's port, or that of the engines for a pull and its RNDV_FIN (01 R36). -/
def Dev.sendOp (d : Dev) (o : Op) (h : Hdr) (payload : List Byte) : Dev :=
  if o.kind = .pull ∨ o.kind = .fin then d.send (regionOf o.ep) (61 + o.engine % 2) h payload else d.sendEp o.ep h payload

/-- A packet leaves (R308, R310, R329). -/
def Dev.sendPacket (d : Dev) (r id off : Nat) (o : Op) (payload : List Byte) (landing : List (Nat × Nat × Bool)) : Dev :=
  match d.conn r o.conn with
  | none => d
  | some c =>
    let now := d.belfryNow r
    let h := o.header off ((d.region r).txLow o.conn c)
    let timeout := (d.region r).chip.msgTimeout
    let d := (d.sendOp o h payload).countSent (Ctr.rmaPktsSent o.ep)
    let d := d.modConn r o.conn (fun c =>
      { c with inflight := c.inflight + o.price off, used := now, txLast := if o.isSend then us24 now else c.txLast })
    d.modOp r id (fun o => o.afterSend off now timeout landing)

/-- The payload of a packet that needs no host read. -/
def Op.ownPayload (o : Op) (off : Nat) : List Byte :=
  match o.kind, o.inline with
  | .atomic, _ => leBytes 16 o.operand ++ leBytes 16 o.compare
  | .put, some b | .eager, some b => sliceBytes b off (o.chunk off)
  | _, _ => []

/-- The packet is read from the host. -/
def Op.reads (o : Op) : Bool := (o.kind == .put || o.kind == .eager) && o.inline.isNone && o.length != 0

/-- The bytes of the answer that a packet brings back, by offset and length (R307). -/
def Op.lands (o : Op) (off : Nat) : Option Nat :=
  match o.kind with
  | .get | .pull => some (o.chunk off)
  | .atomic => if o.fetch then some o.length else none
  | _ => none

/-- The bytes read for the packet at an offset, once they are there. -/
def Op.builtFor (o : Op) (off : Nat) : Option (List Byte) :=
  match o.built with
  | some (a, data) => if a = off ∧ data.length = o.chunk off then some data else none
  | none => none

/-- The next packet of an operation is built and sent; it waits when a translation needs a walk, and while its bytes are
read. A FENCED device sends none (15 R473). -/
def Dev.injectOp (d : Dev) (r id off : Nat) (o : Op) : Dev :=
  if d.fenced && o.kind != .fin then d.endOp r id (some (0x07, 0x0501)) 0 else
  let n := o.chunk off
  let va := (o.addr + off) % 2 ^ 64
  let rem := o.length - (off + n)
  if o.reads then
    match o.builtFor off with
    | some data => d.sendPacket r id off o data []
    | none =>
      let ps := pieces 3 va n
      match d.needPages o.ep (.source id) o.pasid o.user .read rem ps with
      | (d, .waiting) => d
      | (d, .fault k) => d.stopOp r id (0x01, k)
      | (d, .ready got) =>
        let d := (d.useGrants o.ep (.source id) d.nextId).modOp r id (fun o => { o with built := some (off, []) })
        d.startRead o.ep .payload (.source id) (some (o.pasid, none)) ((got.zip ps).map (fun x => (x.1.2.1, x.2.2)))
  else
    match o.lands off with
    | none => d.sendPacket r id off o (o.ownPayload off) []
    | some k =>
      match d.needPages o.ep (.landing id) o.pasid o.user .write (if o.kind = .atomic then 0 else rem) (pieces 3 va k) with
      | (d, .waiting) => d
      | (d, .fault f) => d.stopOp r id (0x01, f)
      | (d, .ready got) => (d.useGrants o.ep (.landing id) id).sendPacket r id off o (o.ownPayload off) got

/-- The read of a packet's bytes has ended: the packet leaves if it still may, and otherwise keeps them (log entry 50). -/
def Dev.sourceRead (d : Dev) (e id : Nat) (res : HostRes) : Dev :=
  let r := regionOf e
  match d.op r id with
  | none => d
  | some o =>
    match res with
    | .ok data =>
      let o := { o with built := o.built.map (fun b => (b.1, sliceBytes data 0 (o.chunk b.1))) }
      let d := d.modOp r id (fun _ => o)
      if d.maySend r id o then d.injectOp r id (o.due.getD 0) o else d
    | _ => d.stopOp r id (0x02, 0)

/-- PACKET_INJECT: a gate's arbiter takes steps 2 and 3 of 00 R16 (R310). -/
def Dev.packetInject (d : Dev) (g : Nat) : Dev :=
  let r := g / 2
  let d := d.startOps r
  let cands := (d.region r).ops.filter (fun o => o.2.ep / 2 == g && d.maySend r o.1 o.2)
  match minBy (fun o : Nat × Op => o.2.stamp) cands with
  | none => d
  | some oldest =>
    let old := cands.filter (fun o => o.2.stamp == oldest.2.stamp)
    let sqs := (old.map (fun o => o.2.sq)).eraseDups
    match arbitrate 8192 (d.gate g).injectPtr (sqs.map (fun q => ⟨q, 0, 0⟩)) with
    | none => d
    | some (q, ptr) =>
      let d := d.modGate g (fun x => { x with injectPtr := ptr })
      match old.find? (fun o => o.2.sq == q) with
      | some (id, o) => d.injectOp r id (o.due.getD 0) o
      | none => d

def execPacketInject (g : Fin 8) (s : State) : Host.Outcome State Fault Refusal :=
  actIf (fun d => d.gatesRun && d.regionRuns (g.val / 2)) (fun d => d.packetInject g.val) s

/-! ## The message timer (R321 to R323) -/

/-- The message timer has reached its end (R321). -/
def Op.expired (o : Op) (now : Nat) : Bool :=
  match o.timer with
  | some t => decide (t + o.timeout ≤ now)
  | none => false

/-- A whole-message retry (R322). -/
def Dev.retryOp (d : Dev) (r id : Nat) (o : Op) : Dev :=
  let d := (d.pay r id o.cost).count (Ctr.retries o.ep)
  d.modOp r id (fun o =>
    { o with attempt := o.attempt + 1, acked := 0, refused := 0, next := 0, again := [], resend := [], timer := none,
             sent := [], landing := [], built := none })

/-- MSG_TIMEOUT (R322, R327). -/
def Dev.msgTimeoutEnd (d : Dev) (r id : Nat) : Dev :=
  match d.op r id with
  | none => d
  | some o =>
    if !o.expired (d.belfryNow r) || o.lent.isSome || o.kind == .atomic || o.kind == .signal || d.opParked o then d
    else if o.localFault.isSome || !o.refusals.isEmpty then d.endOp r id none 0
    else if !o.lost && decide (o.attempt < (d.region r).chip.maxRetries) then d.retryOp r id o
    else (d.count (Ctr.timeouts o.ep)).endOp r id (some (if o.lastRetryLater then (0x0E, 0x0203) else (0x07, 0))) 0

/-- ATOMIC_TIMEOUT: an ATOMIC or a SIGNAL is never sent twice (R323). -/
def Dev.atomicTimeoutEnd (d : Dev) (r id : Nat) : Dev :=
  match d.op r id with
  | none => d
  | some o =>
    if o.expired (d.belfryNow r) && (o.kind == .atomic || o.kind == .signal) && !d.opParked o then
      d.endOp r id (some (0x08, 0)) 0
    else d

/-- A message whose timer has reached its end expires before anything else reaches it (00 R14). -/
def Dev.expireOp (d : Dev) (r id : Nat) : Dev := (d.msgTimeoutEnd r id).atomicTimeoutEnd r id

/-! ## Responses (R309, R315, R318) -/

/-- A 32-bit difference of time-base values. -/
def since32 (now then_ : Nat) : Nat := (now + 2 ^ 32 - then_ % 2 ^ 32) % 2 ^ 32

/-- `on_progress` of R309, after INFLIGHT has fallen. A sample may be negative. -/
def Dev.onProgress (d : Dev) (r conn : Nat) (marked : Bool) (sample : Int) : Dev :=
  match d.conn r conn with
  | none => d
  | some c =>
    let now := d.belfryNow r
    let h := (d.region r).chip
    let srtt := min (2 ^ 20 - 1) (max 1000 ((7 * (c.srtt : Int) + sample) / 8).toNat)
    let cut := marked && (match c.lastCut with
      | none => true
      | some t => decide (srtt ≤ since32 now t))
    let window := if cut then max (1024 * h.winMinK) (c.window / 2) else c.window
    let round := decide (srtt ≤ since32 now c.roundStart)
    let isMarked := c.marked || marked
    let grow := round && !isMarked
    let d := if cut then d.count (Ctr.windowCuts c.ep) else d
    let d := if grow then d.count (Ctr.windowGrows c.ep) else d
    d.modConn r conn (fun c =>
      { c with srtt := srtt, lastCut := if cut then some now else c.lastCut,
               window := if grow then min (1024 * h.winMaxK) (window + 1024 * h.winStepK) else window,
               roundStart := if round then now else c.roundStart, marked := if round then false else isMarked, used := now })

/-- The time a message's newest packet was sent, and that of the packet at an offset. -/
def Op.newest (o : Op) : Nat := o.sent.foldl (fun m s => max m s.time) 0
def Op.sentAt (o : Op) (off : Nat) : Nat := ((o.sent.find? (fun s => s.off == off)).map (fun s => s.time)).getD 0

/-- The message a response names (R298, R304). -/
def Region.findOp (x : Region) (h : Hdr) (seq : Nat) : Option (Nat × Op) :=
  x.ops.find? (fun o => o.2.started && !o.2.lost && o.2.localFen == h.dstFen && o.2.dstFen == h.srcFen && o.2.msgSeq == seq)

/-- A response that finds no message is discarded (R318), as stale after a queue reset (08 R265) and as R224 states
after a reset of the endpoint. -/
def Dev.lateResponse (d : Dev) (r e : Nat) (h : Hdr) (seq : Nat) : Dev :=
  let x := d.region r
  let since := match x.findConn h.dstFen h.srcFen 0 with
    | some (_, c) => decide (seq < c.nextSeq)
    | none => false
  d.count (
    if x.abandoned.contains (h.dstFen, h.srcFen, seq) then Ctr.staleResponses e
    else if !since && x.prior.any (fun m => m.1 == h.dstFen && m.2.1 == h.srcFen && decide (seq < m.2.2)) then Ctr.respDiscards e
    else Ctr.lateResponses e)

/-- What every response meets first: its form (R302), the end of SYNCING (R299), and 07 R224. -/
def Dev.onResponse (d : Dev) (r : Nat) (p : Packet) (op : Nat) (go : Dev → Nat → Dev) : Dev :=
  let e := d.targetEp r p.hdr
  if !opOk p op then d.count (Ctr.badOpcodes e) else
  let d := match (d.region r).findConn p.hdr.dstFen p.hdr.srcFen 0 with
    | some (id, _) =>
      let now := d.belfryNow r
      d.modConn r id (fun c => { c with syncing := false, used := now })
    | none => d
  if !d.targetUp r p.hdr then d.count (Ctr.respDiscards e) else go d e

/-- A response to one message of a kind, in its current attempt. -/
def Dev.oneResponse (d : Dev) (r : Nat) (p : Packet) (op : Nat) (kind : Op → Bool) (go : Dev → Nat → Op → Dev) : Dev :=
  d.onResponse r p op (fun d e =>
    let d := match (d.region r).findOp p.hdr p.hdr.msgSeq with
      | some (id, _) => d.expireOp r id
      | none => d
    match (d.region r).findOp p.hdr p.hdr.msgSeq with
    | none => d.lateResponse r e p.hdr p.hdr.msgSeq
    | some (id, o) =>
      if o.attempt % 4 = p.hdr.attempt ∧ kind o ∧ d.opParked o = false then go d id o else d.count (Ctr.lateResponses e))

/-- Kinds that an ACK acknowledges. -/
def Op.takesAck (o : Op) : Bool := o.kind == .put || o.kind == .eager || o.kind == .signal || o.kind == .fin

/-- ACK_RECEIVED. -/
def Dev.ackReceived (d : Dev) (r : Nat) (p : Packet) : Dev :=
  d.oneResponse r p 0x08 Op.takesAck (fun d id o =>
    let now := d.belfryNow r
    let sample : Int := (now : Int) - o.newest - p.hdr.rHold
    if o.single then ((d.pay r id o.cost).onProgress r o.conn p.hdr.rEcho sample).endOp r id none 0
    else
      let adv := p.hdr.rBytes - o.acked
      let d := (d.pay r id adv).onProgress r o.conn p.hdr.rEcho sample
      let d := if adv = 0 then d else d.modOp r id (fun o => { o with acked := o.acked + adv, timer := some now })
      d.checkOp r id)

def execAckReceived (r : Fin 4) (pkt : Packet) (s : State) : Host.Outcome State Fault Refusal :=
  onArrival r.val pkt (fun d => d.ackReceived r.val pkt) s

/-- ACK_MAP_RECEIVED: one update for the whole map (R309). -/
def Dev.ackMapReceived (d : Dev) (r : Nat) (p : Packet) : Dev :=
  d.onResponse r p 0x09 (fun d e =>
    let seqs := (setBits p.hdr.rMap 64).map (fun i => (p.hdr.msgSeq + i) % 2 ^ 24)
    let d := forEach (seqs.filterMap (fun s => (d.region r).findOp p.hdr s)) (fun o d => d.expireOp r o.1) d
    let hits := seqs.filterMap (fun s =>
      ((d.region r).findOp p.hdr s).bind (fun o =>
        if o.2.takesAck && o.2.kind != .signal && !d.opParked o.2 then some o else none))
    let d := forEach seqs (fun s d => if hits.any (fun o => o.2.msgSeq == s) then d else d.lateResponse r e p.hdr s) d
    match hits with
    | [] => d
    | (_, o) :: _ =>
      let now := d.belfryNow r
      let newest := hits.foldl (fun m x => max m x.2.newest) 0
      let d := forEach hits (fun x d => (d.pay r x.1 x.2.cost).modOp r x.1 (fun o => { o with acked := o.length })) d
      let d := d.onProgress r o.conn p.hdr.rEcho ((now : Int) - newest - p.hdr.rHold)
      forEach hits (fun x d => d.endOp r x.1 none 0) d)

def execAckMapReceived (r : Fin 4) (pkt : Packet) (s : State) : Host.Outcome State Fault Refusal :=
  onArrival r.val pkt (fun d => d.ackMapReceived r.val pkt) s

/-- The landing pages of the bytes at an offset, when every piece has one. -/
def Op.landingOf (o : Op) (off n : Nat) : List ((Nat × Nat) × Option (Nat × Nat × Bool)) :=
  (pieces 3 ((o.addr + off) % 2 ^ 64) n).map (fun x => (x, o.landing.find? (fun l => l.1 == x.1)))

/-- Data written at its landing pages, which the message then no longer needs. -/
def Dev.landData (d : Dev) (r id off : Nat) (o : Op) (n : Nat) (data : List Byte) (payload : Bool) (use : Use) : Dev :=
  let base := (o.addr + off) % 2 ^ 64
  let d := forEach (o.landingOf off n) (fun x d =>
    match x.2 with
    | some (_, pa, device) =>
      let i := (x.1.1 + 2 ^ 64 - base) % 2 ^ 64
      d.hostWrite o.ep pa ((data.drop i).take x.1.2) (payload && !device) use
    | none => d) d
  let d := if o.kind = .pull then
      d.modMatch o.ep o.matchId (fun m => { m with wrote := m.wrote.filter (fun w => w.1 != off) ++ [(off, n)] })
    else d
  d.modOp r id (fun q => { q with landing := q.landing.filter (fun l => (o.landingOf off n).all (fun x => x.1.1 != l.1)) })

/-- GET_DATA and RNDV_DATA (R318, 11 R355). -/
def Dev.dataReceived (d : Dev) (r : Nat) (p : Packet) (op : Nat) (kind : OpKind) : Dev :=
  d.oneResponse r p op (fun o => o.kind == kind) (fun d id o =>
    let now := d.belfryNow r
    let off := p.hdr.msgOff
    let n := p.payload.length
    if n = 0 || (o.landingOf off n).any (fun x => x.2.isNone) then d.count (Ctr.lateResponses o.ep) else
    let d := (d.landData r id off o n p.payload true .payload).pay r id n
    let d := d.onProgress r o.conn (p.hdr.cmark || p.hdr.rEcho) ((now : Int) - o.sentAt off)
    (d.modOp r id (fun o => { o with acked := o.acked + n, timer := some now })).checkOp r id)

def execGetDataReceived (r : Fin 4) (pkt : Packet) (s : State) : Host.Outcome State Fault Refusal :=
  onArrival r.val pkt (fun d => d.dataReceived r.val pkt 0x0A .get) s

/-- ATOMIC_RESP_RECEIVED (R295, R304). -/
def Dev.atomicResp (d : Dev) (r : Nat) (p : Packet) : Dev :=
  d.oneResponse r p 0x0B (fun o => o.kind == .atomic) (fun d id o =>
    let now := d.belfryNow r
    let low := bits p.hdr.ext 191 128
    let old := low + 2 ^ 64 * (bits p.hdr.ext 95 64 + 2 ^ 32 * bits p.hdr.ext 127 96)
    let d := if o.fetch then d.landData r id 0 o o.length (leBytes o.length old) false .result else d
    ((d.pay r id o.cost).onProgress r o.conn (p.hdr.cmark || p.hdr.rEcho) ((now : Int) - o.newest)).endOp r id none low)

def execAtomicRespReceived (r : Fin 4) (pkt : Packet) (s : State) : Host.Outcome State Fault Refusal :=
  onArrival r.val pkt (fun d => d.atomicResp r.val pkt) s

/-- REFUSE_RECEIVED (R315, R318, R319). -/
def Dev.refuseReceived (d : Dev) (r : Nat) (p : Packet) : Dev :=
  d.oneResponse r p 0x0C (fun o => o.lent.isNone) (fun d id o =>
    let now := d.belfryNow r
    let off := p.hdr.msgOff
    let d := d.pay r id p.hdr.rBytes
    if p.hdr.rStatus = 0x80 then
      let due := now + (d.region r).chip.retryLaterDelay
      let d := d.modOp r id (fun o => { o with lastRetryLater := true, resend := o.resend ++ [(off, due)] })
      (d.count (Ctr.refusalsRetryLater o.ep)).checkOp r id
    else
      let d := d.modOp r id (fun o =>
        { o with lastRetryLater := false, refused := o.refused + p.hdr.rBytes, timer := some now,
                 refusals := o.refusals ++ [⟨off, p.hdr.rStatus, p.hdr.rDetail⟩] })
      let d := d.count (Ctr.refusalsReceived o.ep)
      if o.single then d.endOp r id none 0 else d.checkOp r id)

def execRefuseReceived (r : Fin 4) (pkt : Packet) (s : State) : Host.Outcome State Fault Refusal :=
  onArrival r.val pkt (fun d => d.refuseReceived r.val pkt) s

/-! ## Timers as commands (R315, R321) -/

/-- RETRY_LATER_RESEND: the packet at an offset is due again. -/
def Dev.retryLaterResend (d : Dev) (r id off : Nat) : Dev :=
  let now := d.belfryNow r
  match d.op r id with
  | none => d
  | some o =>
    match takeFirst (fun x : Nat × Nat => x.1 == off && decide (x.2 ≤ now)) o.resend with
    | some (_, rest) =>
      if d.opParked o || o.localFault.isSome then d
      else d.modOp r id (fun o => { o with resend := rest, again := o.again ++ [off] })
    | none => d

def execRetryLaterResend (r : Fin 4) (op : Nat) (off : Nat) (s : State) : Host.Outcome State Fault Refusal :=
  actIf (fun d => d.regionRuns r.val) (fun d => d.retryLaterResend r.val op off) s

def execMsgTimeout (r : Fin 4) (op : Nat) (s : State) : Host.Outcome State Fault Refusal :=
  actIf (fun d => d.regionRuns r.val) (fun d => d.msgTimeoutEnd r.val op) s

def execAtomicTimeout (r : Fin 4) (op : Nat) (s : State) : Host.Outcome State Fault Refusal :=
  actIf (fun d => d.regionRuns r.val) (fun d => d.atomicTimeoutEnd r.val op) s

/-! ## Abandoning (08 R265, 07 R215) -/

/-- An operation is abandoned by a reset of its queue or of its endpoint. -/
def Dev.abandonOp (d : Dev) (r id : Nat) : Dev :=
  match d.op r id with
  | none => d
  | some o =>
    let d := if o.started then
        d.modRegion r (fun x => { x with abandoned := (o.localFen, o.dstFen, o.msgSeq) :: x.abandoned })
      else d
    d.dropOp r id

end Sys2Proof.Machine
end

