-- ==== Sys2Proof/Machine/Match.lean ====
section
/-! DEFINITION. Scrivener (11): ordering, the match store, eager delivery, rendezvous, and its clocks. -/

namespace Sys2Proof.Machine

/-! ## Room and acknowledgement (R341, R348, R354) -/

/-- Room for a message that must be held or stored (R341, R348, R358). -/
def Dev.roomFor (d : Dev) (e blocks : Nat) (eager : Bool) : Bool :=
  let r := regionOf e
  let x := d.ep e
  decide (16 * (x.countKind .held + x.countKind .unexpected + 1) ≤ d.share r * (d.region r).chip.uxMaxFrac) &&
    decide (x.store.length < d.share r) && decide (x.blocksUsed + blocks ≤ d.blocksTotal r) && (!eager || decide (0 < d.blocksTotal r))

/-! ## Packets of a message's entry (R346 to R351) -/

/-- A packet is answered with RTS_ACK (R354). -/
def Dev.rtsAck (d : Dev) (e : Nat) (h : Hdr) : Dev := d.sendEp e (h.answer 0x18 0 (respExt 0 0 0 h.cmark 0 0 0)) []

/-- The receive's queue is HALTED: its entry is parked. -/
def Dev.recvParked (d : Dev) (e : Nat) (m : Match) : Bool := (d.sq e m.sq).state == .halted

/-- The bytes of the buffer that an entry has written. -/
def Match.written (m : Match) : Nat := m.wrote.foldl (fun n w => n + w.2) 0

/-- The copy of an entry has issued its last write: its blocks are free (R349). -/
def Dev.copyEnd (d : Dev) (e id : Nat) : Dev :=
  d.modMatch e id (fun m => if m.copying ∧ m.writing = 0 then { m with copying := false, blocks := [], store := [] } else m)

/-- What an entry's counts call for: its acknowledgements (R350, 10 R317), and the end of a receive that is not copied
or pulled (R351). -/
def Dev.entryProgress (d : Dev) (e id : Nat) : Dev :=
  let d := (d.copyEnd e id).parkItem (regionOf e) id
  match tget (d.ep e).store id with
  | none => d
  | some m =>
    let all := decide (m.msgLen ≤ m.done) && m.writing == 0 && m.toStore.all (fun t => t.2.hdr.attempt != m.attempt)
    let d :=
      if m.rndv || m.final || m.kind == .posted then d
      else if all then
        let d := d.modMatch e id (fun m => { m with final := true, acked := m.placed, unacked := none })
        if m.whole && m.placed == m.msgLen then d.ackWhole e m.hdr m.newest
        else if m.whole && m.placed == 0 then d
        else d.sendAck e m.hdr m.placed m.echo m.newest
      else if !m.whole && decide ((d.region (regionOf e)).chip.ackBytes ≤ m.placed - m.acked) then
        (d.sendAck e m.hdr m.placed m.echo m.newest).modMatch e id (fun m => { m with acked := m.placed, unacked := none })
      else d
    if m.kind == .matched && !m.rndv && all && m.blocks.isEmpty && !d.recvParked e m then
      if m.fault = 0 then d.endReceive e id m.okStatus 0 m.written else d.endReceive e id 0x01 m.fault m.written
    else d

/-- An entry's counts for a packet of its message: none when its attempt is older (R350). -/
def Match.register (m : Match) (h : Hdr) (n now : Nat) : Option Match :=
  if h.attempt < m.attempt then none else
  let m := if m.attempt < h.attempt then
      { m with attempt := h.attempt, done := 0, placed := 0, echo := false, acked := 0, unacked := none, final := false }
    else m
  some { m with hdr := h, done := m.done + n, echo := m.echo || h.cmark, newest := now }

/-- Bytes of an entry's message count as placed in their attempt. -/
def Match.place (m : Match) (n now : Nat) : Match :=
  { m with placed := m.placed + n, unacked := if n = 0 then m.unacked else some (m.unacked.getD now) }

/-- A packet of an entry's message: counted, and its bytes written to the receive buffer, or handed to an engine that writes
them to the reserved blocks (R346 to R349). One for a receive whose queue is HALTED is dropped: the receive is parked (08 R259). -/
def Dev.entryPacket (d : Dev) (e id : Nat) (p : Packet) : Dev :=
  let now := d.belfryNow (regionOf e)
  match tget (d.ep e).store id with
  | none => d
  | some m =>
    if m.kind == .matched && d.recvParked e m then d else
    let n := p.payload.length
    let off := p.hdr.msgOff
    match m.register p.hdr n now with
    | none => d.count (Ctr.staleAttemptDrops e)
    | some m' =>
      let d := d.modMatch e id (fun _ => m')
      let d :=
        if m.kind == .matched && m.blocks.isEmpty then
          let k := min n (m.capacity - off)
          let va := (m.buf + off) % 2 ^ 64
          let parts := (pieces 3 va k).length
          let d := if parts = 0 then d.count (Ctr.rmaPktsPlaced e) else d
          let d := d.modMatch e id (fun m =>
            let m := m.place (n - k) now
            { m with parts := m.parts.filter (fun x => x.1 != partOf p.hdr) ++ (if parts = 0 then [] else [(partOf p.hdr, parts)]) })
          let q := d.sq e m.sq
          d.placeAll e q.pasid (!q.super) va (p.payload.take k) (min m.msgLen m.capacity - (off + k)) .payload (.entry id) (some p)
        else if n = 0 then d.count (Ctr.rmaPktsPlaced e)
        else
          let item := d.nextId
          (d.takeId.modMatch e id (fun m => { m with toStore := m.toStore ++ [(item, p)] })).parkItem (regionOf e) item
      d.entryProgress e id

/-- An engine has written a packet's payload to its entry's blocks: the packet is placed (R348). -/
def Dev.storeWrite (d : Dev) (r item : Nat) : Dev :=
  forEach (epsOf r) (fun e d =>
    match (d.ep e).store.find? (fun m => m.2.toStore.any (fun t => t.1 == item)) with
    | none => d
    | some (id, m) =>
      match m.toStore.find? (fun t => t.1 == item) with
      | none => d
      | some (_, p) =>
        let now := d.belfryNow r
        let d := (d.count (Ctr.rmaPktsPlaced e)).modMatch e id (fun m =>
          let m := { m with toStore := m.toStore.filter (fun t => t.1 != item),
                            store := Memory.writeN hbmDefault m.store p.hdr.msgOff p.payload }
          if p.hdr.attempt = m.attempt then m.place p.payload.length now else m)
        d.entryProgress e id) d

/-- ENGINE_DISPATCH: an engine takes an item; the write of a payload is done in the step that starts it (log entry 51). -/
def Dev.engineDispatch (d : Dev) (b : Nat) : Dev :=
  match d.dispatchItem b with
  | (d, some item) => d.storeWrite (b / 16) item
  | (d, none) => d

def execEngineDispatch (b : Fin 64) (s : State) : Host.Outcome State Fault Refusal :=
  actIf (fun d => d.blockRuns b.val) (fun d => d.engineDispatch b.val) s

/-- An entry takes a packet of its message: bytes, or another RTS. -/
def Dev.toEntry (d : Dev) (e id : Nat) (p : Packet) : Dev :=
  if p.hdr.op = 0x11 then
    let now := d.belfryNow (regionOf e)
    (d.modMatch e id (fun m => { m with newest := now })).rtsAck e p.hdr
  else d.entryPacket e id p

/-- A space shortage (R358). -/
def Dev.uxRefuse (d : Dev) (e : Nat) (p : Packet) : Dev :=
  let first := !(d.ep e).uxFull
  let d := ((d.retryLater e p).count (Ctr.uxFullRefusals e)).modEp e (fun x => { x with uxFull := true })
  if first then d.raise (Isl.belfry (regionOf e)) (Src.ep e 4) 0 0 else d

/-! ## Matching (R344) -/

/-- Blocks that a message reserves when it must be held or stored (R348). -/
def blocksFor (p : Packet) : Nat := if p.hdr.op = 0x11 then 0 else (p.hdr.msgLen + 4095) / 4096

/-- A new entry for a message. -/
def newEntry (kind : MKind) (localFen : Nat) (p : Packet) (now : Nat) : Match :=
  { kind := kind, epi := p.hdr.dstEpi, context := msgContext p.hdr, rank := msgRank p.hdr, tag := msgTag p.hdr, anySource := false,
    anyTag := false, stamp := 0, sq := 0, entry := 0, buf := 0, capacity := 0, hdr := p.hdr, localFen := localFen,
    sendSeq := sendSeqOf p.hdr, attempt := p.hdr.attempt, msgLen := p.hdr.msgLen, done := 0, placed := 0, acked := 0,
    unacked := none, echo := false, rndv := p.hdr.op == 0x11, newest := now, handle := handleOf p.hdr,
    blocks := [], store := [], toStore := [], copying := false, parts := [], wrote := [], writing := 0, fault := 0,
    pulling := false, final := false }

/-- A message's entry joined with the receive that takes it. -/
def Match.takenBy (msg recv : Match) : Match :=
  { msg with stamp := recv.stamp, kind := .matched, anySource := recv.anySource, anyTag := recv.anyTag, sq := recv.sq, entry := recv.entry,
             buf := recv.buf, capacity := recv.capacity }

/-- A matched entry goes on: a rendezvous joins the pull queue, an eager message is examined for its end. The
receive is no longer POSTED (08 R261). -/
def Dev.onMatched (d : Dev) (e id : Nat) : Dev :=
  match tget (d.ep e).store id with
  | none => d
  | some m =>
    let r := regionOf e
    let d := d.modSq e m.sq (fun s => { s with work := modWhere (fun a => a.id == m.entry) (fun a => { a with posted := false }) s.work })
    if m.rndv then
      let busy := decide ((d.region r).chip.rndvMaxActive ≤ (d.region r).activePulls)
      let d := d.modRegion r (fun x => { x with pullQueue := x.pullQueue ++ [(e, id)] })
      (if busy then d.count (Ctr.rndvQueued e) else d).feedPull r
    else d.entryProgress e id

/-- A message at its turn finds the POSTED receive with the lowest stamp; those of a HALTED queue are parked (08 R259). -/
def Dev.findPosted (d : Dev) (e : Nat) (k : MKey) : Dev × Option (Nat × Match) :=
  (d.countBy (Ctr.chainSteps e) (d.messageSteps e k),
   (d.ep e).lowest .posted (fun m => receives m.anySource m.anyTag m.key k && !d.recvParked e m))

/-- The next UX_STAMP. -/
def Dev.stampUx (d : Dev) (e id : Nat) (m : Match) : Dev :=
  let x := d.ep e
  (d.modEp e (fun x => { x with uxStamp := (x.uxStamp + 1) % 2 ^ 32 })).putMatch e id { m with kind := .unexpected, stamp := x.uxStamp }

/-- A HELD entry at its turn: matched, or UNEXPECTED. -/
def Dev.turnHeld (d : Dev) (e id : Nat) : Dev :=
  match tget (d.ep e).store id with
  | none => d
  | some m =>
    match d.findPosted e m.key with
    | (d, some (pid, p)) =>
      (((d.freeMatch e id).putMatch e pid (m.takenBy p)).count (Ctr.matchOnArrival e)).onMatched e pid
    | (d, none) => d.stampUx e id m

/-! ## Order at the receiver (R338 to R340) -/

/-- The held sequence numbers of a connection, expired ones included, by distance from RX_EXPECT. -/
def Dev.heldSeqs (d : Dev) (c : Conn) : List Nat :=
  ((d.ep c.ep).store.filter (fun m => m.2.kind == .held && m.2.localFen == c.localFen && m.2.hdr.srcFen == c.peerFen)).map
    (fun m => m.2.sendSeq) ++ c.rxExpired
def sendDist (a b : Nat) : Nat := (b + 65536 - a % 65536) % 65536
def Dev.lowestHeld (d : Dev) (c : Conn) : Option Nat := minBy (sendDist c.rxExpect) (d.heldSeqs c)

/-- Held messages take their turns while RX_EXPECT names one (R338, R340). -/
def Dev.releaseHeld : Nat → Dev → Nat → Nat → Dev
  | 0, d, _, _ => d
  | n + 1, d, r, cid =>
    match d.conn r cid with
    | none => d
    | some c =>
      let now := d.belfryNow r
      let on (c : Conn) : Conn := { c with rxExpect := (c.rxExpect + 1) % 65536, rxHeld := c.rxHeld - 1, rxGap := us24 now }
      if c.rxExpired.contains c.rxExpect then
        let d := d.modConn r cid (fun c => { on c with rxExpired := c.rxExpired.filter (fun s => s != c.rxExpect) })
        Dev.releaseHeld n (d.count (Ctr.seqSkips c.ep)) r cid
      else
        match (d.ep c.ep).store.find? (fun m =>
            m.2.kind == .held && m.2.localFen == c.localFen && m.2.hdr.srcFen == c.peerFen && m.2.sendSeq == c.rxExpect) with
        | none => d
        | some (id, _) => Dev.releaseHeld n ((d.modConn r cid on).turnHeld c.ep id) r cid

/-- A packet registered from the peer: RX_LAST, and the gap timer (R338 step 4, R340). -/
def Dev.touchRx (d : Dev) (r cid seq : Nat) : Dev :=
  match d.conn r cid with
  | none => d
  | some c =>
    let now := d.belfryNow r
    let gap := match d.lowestHeld c with
      | some l => decide (sendDist c.rxExpect seq < sendDist c.rxExpect l)
      | none => false
    d.modConn r cid (fun c => { c with rxLast := us24 now, rxGap := if gap then us24 now else c.rxGap, used := now, fresh := false })

/-- Rebasing (R339). -/
def Dev.rebase (d : Dev) (r cid e : Nat) (h : Hdr) : Dev :=
  match d.conn r cid with
  | none => d
  | some c =>
    let now := d.belfryNow r
    if c.fresh || decide ((d.region r).chip.msgHold ≤ age24 now c.rxLast) then
      let d := d.modConn r cid (fun c => { c with rxExpect := txLowOf h, rxGap := us24 now })
      Dev.releaseHeld 256 (d.count (if h.sync then Ctr.rebases e else Ctr.rebasesLost e)) r cid
    else d

/-- RX_EXPECT passes a message that took its turn, and its held successors follow. -/
def Dev.passTurn (d : Dev) (r cid : Nat) : Dev :=
  let now := d.belfryNow r
  Dev.releaseHeld 256 (d.modConn r cid (fun c => { c with rxExpect := (c.rxExpect + 1) % 65536, rxGap := us24 now })) r cid

/-- A message at its turn: matched with the POSTED receive, or stored as UNEXPECTED. -/
def Dev.turnNew (d : Dev) (r cid e : Nat) (p : Packet) : Dev :=
  let now := d.belfryNow r
  match d.findPosted e (msgKey p.hdr) with
  | (d, some (pid, recv)) =>
    let m := (newEntry .held p.hdr.dstFen p now).takenBy recv
    let d := (d.putMatch e pid m).count (Ctr.matchOnArrival e)
    let d := if m.rndv then d.onMatched e pid
      else d.modSq e m.sq (fun s => { s with work := modWhere (fun a => a.id == m.entry) (fun a => { a with posted := false }) s.work })
    (d.toEntry e pid p).passTurn r cid
  | (d, none) =>
    let m := newEntry .unexpected p.hdr.dstFen p now
    if !d.roomFor e (blocksFor p) (!m.rndv) then d.uxRefuse e p else
    let m := { m with blocks := d.freeBlocks e (blocksFor p) }
    let id := d.nextId
    let d := (d.takeId.modEp e (fun x => { x with uxFull := false })).stampUx e id m
    (d.toEntry e id p).passTurn r cid

/-- A message out of order is HELD. -/
def Dev.holdNew (d : Dev) (r cid e : Nat) (p : Packet) : Dev :=
  let now := d.belfryNow r
  let m := newEntry .held p.hdr.dstFen p now
  if !d.roomFor e (blocksFor p) (!m.rndv) then d.uxRefuse e p else
  let m := { m with blocks := d.freeBlocks e (blocksFor p) }
  let id := d.nextId
  let d := ((d.takeId.modEp e (fun x => { x with uxFull := false })).putMatch e id m).count (Ctr.msgsHeld e)
  let d := d.modConn r cid (fun c =>
    { c with rxHeld := if c.rxExpired.contains m.sendSeq then c.rxHeld else c.rxHeld + 1,
             rxExpired := c.rxExpired.filter (fun s => s != m.sendSeq),
             rxGap := if c.rxHeld = 0 then us24 now else c.rxGap })
  d.toEntry e id p

/-- An old message (R338): acknowledged, and nothing placed. -/
def Dev.oldMessage (d : Dev) (r e : Nat) (p : Packet) : Dev :=
  let d := d.count (Ctr.oldMessages e)
  if p.hdr.op = 0x11 then d.rtsAck e p.hdr else d.sendAck e p.hdr p.hdr.msgLen p.hdr.cmark (d.belfryNow r)

/-- GAP_TIMER_EXPIRY (R340). -/
def Dev.gapExpiry (d : Dev) (r cid : Nat) : Dev :=
  match d.conn r cid with
  | none => d
  | some c =>
    let now := d.belfryNow r
    if c.rxHeld = 0 ∨ age24 now c.rxGap < (d.region r).chip.msgHold then d else
    match d.lowestHeld c with
    | none => d
    | some l =>
      let d := d.countBy (Ctr.seqSkips c.ep) (sendDist c.rxExpect l)
      Dev.releaseHeld 256 (d.modConn r cid (fun c => { c with rxExpect := l, rxGap := us24 now })) r cid

/-- An entry may expire: not POSTED, not complete, and a rendezvous only while its pull runs. -/
def Match.mayExpire (m : Match) : Bool := m.kind != .posted && decide (m.done < m.msgLen) && (!m.rndv || m.pulling)

/-- The pull of an entry is given up. -/
def Dev.dropPull (d : Dev) (r e id : Nat) : Dev :=
  match (d.region r).ops.find? (fun o => o.2.kind == .pull && o.2.ep == e && o.2.matchId == id) with
  | some (o, _) => d.dropOp r o
  | none => d

/-- An entry expires (R352). -/
def Dev.expireEntry (d : Dev) (r e id : Nat) (m : Match) : Dev :=
  let d := d.count (Ctr.entryExpiries e)
  if m.kind == .matched then
    (d.dropPull r e id).endReceive e id 0x07 0x0303 m.written
  else
    let d := d.freeMatch e id
    if m.kind == .held then
      match (d.region r).findConn m.localFen m.hdr.srcFen 0 with
      | some (cid, _) => d.modConn r cid (fun c => { c with rxExpired := c.rxExpired ++ [m.sendSeq] })
      | none => d
    else d

/-- MATCH_ENTRY_EXPIRY. -/
def Dev.entryExpiry (d : Dev) (r e id : Nat) : Dev :=
  match tget (d.ep e).store id with
  | none => d
  | some m =>
    if !m.mayExpire || decide (d.belfryNow r < m.newest + (d.region r).chip.msgHold) then d
    else if m.kind == .matched && d.recvParked e m then d
    else d.expireEntry r e id m

/-- Timers whose ends have passed act before a packet of a message does (00 R14): the gap timer of its connection, and the
expiry of its entry. -/
def Dev.messageTimers (d : Dev) (r e : Nat) (h : Hdr) : Dev :=
  let d := match (d.region r).findConn h.dstFen h.srcFen 0 with
    | some (cid, _) => d.gapExpiry r cid
    | none => d
  match d.findMsg e h.dstFen h.srcFen (sendSeqOf h) with
  | some id => (d.entryExpiry r e id).startOps r
  | none => d

/-- SEND_DATA_RECEIVED and RTS_RECEIVED (R338, R354). -/
def Dev.messageIn (d : Dev) (r : Nat) (p : Packet) (op : Nat) : Dev :=
  let h := p.hdr
  let e := d.targetEp r h
  let seq := sendSeqOf h
  if !opOk p op then d.count (Ctr.badOpcodes e)
  else if !d.targetUp r h then
    let d := match (d.region r).findConn h.dstFen h.srcFen 0 with
      | some (cid, _) => d.touchRx r cid seq
      | none => d
    d.refuseGate e p 0x05 0
  else match (d.messageTimers r e h).takeConn e h.dstFen h.srcFen 0 with
    | (d, none) => (d.retryLater e p).count (Ctr.connRefusals e)
    | (d, some cid) =>
      let d := (d.rebase r cid e h).touchRx r cid seq
      match d.findMsg e h.dstFen h.srcFen seq with
      | some id => d.toEntry e id p
      | none =>
        match d.conn r cid with
        | none => d
        | some c =>
          let k := sendDist c.rxExpect seq
          if k = 0 then d.turnNew r cid e p
          else if k < 256 then d.holdNew r cid e p
          else if k < 32768 then (d.retryLater e p).count (Ctr.windowRefusals e)
          else d.oldMessage r e p

def execSendDataReceived (r : Fin 4) (pkt : Packet) (s : State) : Host.Outcome State Fault Refusal :=
  onArrival r.val pkt (fun d => d.messageIn r.val pkt 0x10) s

def execRtsReceived (r : Fin 4) (pkt : Packet) (s : State) : Host.Outcome State Fault Refusal :=
  onArrival r.val pkt (fun d => d.messageIn r.val pkt 0x11) s

def execGapTimerExpiry (r : Fin 4) (conn : Nat) (s : State) : Host.Outcome State Fault Refusal :=
  actIf (fun d => d.regionRuns r.val) (fun d => d.gapExpiry r.val conn) s

/-! ## RECV (R344, R358) -/

/-- A RECV is registered: it takes the UNEXPECTED message with the lowest stamp, or becomes POSTED. -/
def Dev.postRecv (d : Dev) (e q entry : Nat) (b : List Byte) : Dev :=
  let r := regionOf e
  let anySource := bit (entFlags b) 0
  let anyTag := bit (entFlags b) 1
  let k : MKey := ⟨q / 2, field b 36 2, field b 32 4, field b 24 8⟩
  let recv : Match :=
    { newEntry .posted 0 {} 0 with
      epi := k.epi, context := k.context, rank := k.rank, tag := k.tag, anySource := anySource, anyTag := anyTag, sq := q,
      entry := entry, buf := field b 16 8, capacity := field b 40 4 }
  let d := (d.count (Ctr.recvsPosted e)).countBy (Ctr.chainSteps e) (d.receiveSteps e anySource anyTag k)
  match (d.ep e).lowest .unexpected (fun m => receives anySource anyTag k m.key) with
  | some (id, m) => ((d.putMatch e id (m.takenBy recv)).count (Ctr.matchOnPost e)).onMatched e id
  | none =>
    if d.share r ≤ (d.ep e).store.length then
      (d.count (Ctr.recvRejects e)).complete e q entry (Fin8.status' 0x0E 0x0301)
    else
      let id := d.nextId
      let stamp := (d.ep e).postStamp
      let d := (d.takeId.modEp e (fun x => { x with postStamp := (x.postStamp + 1) % 2 ^ 32 })).putMatch e id { recv with stamp := stamp }
      d.modSq e q (fun s => { s with work := modWhere (fun a => a.id == entry) (fun a => { a with posted := true }) s.work })

/-! ## The copy out of the store, and expiry (R349, R352) -/

/-- UX_COPY: the step that an engine runs of a matched, complete message (R349). -/
def Dev.copyOut (d : Dev) (e id : Nat) : Dev :=
  match tget (d.ep e).store id with
  | none => d
  | some m =>
    if m.rndv || !m.engineWork false || d.recvParked e m || !d.stepRuns (regionOf e) id then d else
    let data := Memory.readN hbmDefault m.store 0 (min m.msgLen m.capacity)
    let q := d.sq e m.sq
    let d := (d.modMatch e id (fun m => { m with copying := true })).stepEnd (regionOf e) id
    (d.placeAll e q.pasid (!q.super) m.buf data 0 .payload (.entry id) none).entryProgress e id

def execUxCopy (r : Fin 4) (entry : Nat) (s : State) : Host.Outcome State Fault Refusal :=
  actIf (fun d => d.regionRuns r.val) (fun d => forEach (epsOf r.val) (fun e d => d.copyOut e entry) d) s

def execMatchEntryExpiry (r : Fin 4) (entry : Nat) (s : State) : Host.Outcome State Fault Refusal :=
  actIf (fun d => d.regionRuns r.val) (fun d =>
    (forEach (epsOf r.val) (fun e d => d.entryExpiry r.val e entry) d).startOps r.val) s

/-! ## Rendezvous (R353 to R357) -/

/-- RTS_ACK_RECEIVED: the send is LENT; its RTS counts no cost any more, and TX_LOW moves on. -/
def Dev.rtsAckReceived (d : Dev) (r : Nat) (p : Packet) : Dev :=
  d.oneResponse r p 0x18 (fun o => o.kind == .rts && o.lent.isNone) (fun d id o =>
    let now := d.belfryNow r
    ((d.pay r id o.cost).modOp r id (fun o => { o with lent := some now, timer := none })).startOps r)

def execRtsAckReceived (r : Fin 4) (pkt : Packet) (s : State) : Host.Outcome State Fault Refusal :=
  onArrival r.val pkt (fun d => d.rtsAckReceived r.val pkt) s

/-- The LENT send that a handle names for a peer (R356). -/
def Region.findLent (x : Region) (h : Hdr) : Option (Nat × Op) :=
  match tget x.trackerOf (handleOf h % 32768) with
  | none => none
  | some id => (tget x.ops id).bind (fun o =>
      if o.kind == .rts && o.lent.isSome && o.handle == handleOf h && o.sendSeq == sendSeqOf h && o.dstFen == h.srcFen &&
          o.localFen == h.dstFen then some (id, o) else none)

/-- A LENT send completes: with a fault recorded by R356, or with a status. -/
def Dev.endLent (d : Dev) (r id status detail : Nat) : Dev :=
  match d.op r id with
  | none => d
  | some o => ((d.dropOp r id).complete o.ep o.sq o.entry ⟨status, if status = 0 then o.length else o.acked, 0, 0, detail⟩).startOps r

/-- How far the served ranges reach without a gap. -/
def reachOf (served : List (Nat × Nat)) : Nat → Nat → Nat
  | 0, pos => pos
  | n + 1, pos => reachOf served n (served.foldl (fun m x => if x.1 ≤ m then max m (x.1 + x.2) else m) pos)

/-- LENT_IDLE_EXPIRY. -/
def Dev.lentIdle (d : Dev) (r id : Nat) : Dev :=
  match d.op r id with
  | none => d
  | some o =>
    match o.lent, o.lastGet with
    | some _, some t =>
      if d.belfryNow r < t + (d.region r).chip.msgHold ∨ d.opParked o then d else
      let d := d.count (Ctr.lendExpiries o.ep)
      if o.length ≤ reachOf o.served o.served.length 0 then d.endLent r id 0 0 else d.endLent r id 0x07 0x0304
    | _, _ => d

/-- LEND_TIMEOUT. -/
def Dev.lendExpiry (d : Dev) (r id : Nat) : Dev :=
  match d.op r id with
  | none => d
  | some o =>
    let limit := (d.region r).chip.lendTimeout
    match o.lent, o.lastGet with
    | some t, none =>
      if limit = 0 ∨ d.belfryNow r < t + limit ∨ d.opParked o then d
      else (d.count (Ctr.lendExpiries o.ep)).endLent r id 0x07 0x0304
    | _, _ => d

/-- The LENT send that a request names, after the expiries that have come (00 R14). -/
def Dev.lentSend (d : Dev) (r : Nat) (h : Hdr) : Dev × Option (Nat × Op) :=
  match (d.region r).findLent h with
  | none => (d, none)
  | some (id, _) =>
    let d := (d.lentIdle r id).lendExpiry r id
    (d, (d.region r).findLent h)

/-- RNDV_GET_RECEIVED. -/
def Dev.rndvGet (d : Dev) (r : Nat) (p : Packet) : Dev :=
  let e := d.targetEp r p.hdr
  if !opOk p 0x12 then d.count (Ctr.badOpcodes e)
  else if !d.targetUp r p.hdr then d.refuseGate e p 0x05 0
  else
    let no (d : Dev) : Dev := (d.count (Ctr.handleRefusals e)).refuse e p 0x03 0x0305
    match d.lentSend r p.hdr with
    | (d, none) => no d
    | (d, some (id, o)) =>
      if o.length < p.hdr.msgOff + p.hdr.getBytes then no d else
      let now := d.belfryNow r
      (d.modOp r id (fun o => { o with lastGet := some now })).startWork r e p none none (some id)

def execRndvGetReceived (r : Fin 4) (pkt : Packet) (s : State) : Host.Outcome State Fault Refusal :=
  onArrival r.val pkt (fun d => d.rndvGet r.val pkt) s

/-- RNDV_DATA_RECEIVED: the receive's entry registers a packet (R352), and the pull takes its bytes. -/
def Dev.rndvData (d : Dev) (r : Nat) (p : Packet) : Dev :=
  let now := d.belfryNow r
  let d := match (d.region r).findOp p.hdr p.hdr.msgSeq with
    | some (_, o) =>
      if o.kind == OpKind.pull then (d.entryExpiry r o.ep o.matchId).modMatch o.ep o.matchId (fun m => { m with newest := now }) else d
    | none => d
  d.dataReceived r p 0x19 .pull

def execRndvDataReceived (r : Fin 4) (pkt : Packet) (s : State) : Host.Outcome State Fault Refusal :=
  onArrival r.val pkt (fun d => d.rndvData r.val pkt) s

/-- RNDV_FIN_RECEIVED: acknowledged by an ACK of its own (R355), and the LENT send completes (R357). -/
def Dev.rndvFin (d : Dev) (r : Nat) (p : Packet) : Dev :=
  let e := d.targetEp r p.hdr
  if !opOk p 0x13 then d.count (Ctr.badOpcodes e)
  else if !d.targetUp r p.hdr then d.refuseGate e p 0x05 0
  else
    let d := d.sendAck e p.hdr 0 p.hdr.cmark (d.belfryNow r)
    match d.lentSend r p.hdr with
    | (d, none) => d
    | (d, some (id, o)) =>
      if d.opParked o then d else
      let (st, detail) := o.servedFault.getD (0, 0)
      d.endLent r id st detail

def execRndvFinReceived (r : Fin 4) (pkt : Packet) (s : State) : Host.Outcome State Fault Refusal :=
  onArrival r.val pkt (fun d => d.rndvFin r.val pkt) s

/-- The pull of a matched rendezvous, carried as a GET (R355). -/
def pullOp (e id : Nat) (m : Match) (q : Sq) : Op :=
  { Op.blank with
    kind := .pull, ep := e, sq := m.sq, entry := m.entry, addr := m.buf, length := min m.msgLen m.capacity,
    localFen := m.localFen, dstFen := m.hdr.srcFen, dstEpi := m.hdr.srcEpi, srcEpi := m.epi, pasid := q.pasid,
    user := !q.super, sendSeq := m.sendSeq, handle := m.handle, matchId := id }

/-- RNDV_PULL_START: the head of the pull queue has a slot, and the engine that runs its step starts the pull. -/
def Dev.pullStart (d : Dev) (r : Nat) : Dev :=
  match (d.region r).pullReady with
  | none => d
  | some (e, id) =>
    if !d.stepRuns r id then d else
    let b := d.itemBlock r id
    let d := (d.modRegion r (fun x => { x with pullQueue := x.pullQueue.tail })).stepEnd r id
    match tget (d.ep e).store id with
    | none => d
    | some m =>
      let now := d.belfryNow r
      let d := (d.modMatch e id (fun m => { m with pulling := true, newest := now })).count (Ctr.rndvPulls e)
      d.addOp { pullOp e id m (d.sq e m.sq) with engine := b }

def execRndvPullStart (r : Fin 4) (s : State) : Host.Outcome State Fault Refusal :=
  actIf (fun d => d.regionRuns r.val) (fun d => d.pullStart r.val) s

def execLentIdleExpiry (r : Fin 4) (op : Nat) (s : State) : Host.Outcome State Fault Refusal :=
  actIf (fun d => d.regionRuns r.val) (fun d => d.lentIdle r.val op) s

def execLendTimeout (r : Fin 4) (op : Nat) (s : State) : Host.Outcome State Fault Refusal :=
  actIf (fun d => d.regionRuns r.val) (fun d => d.lendExpiry r.val op) s

/-! ## Ages (R334, 10 R300) -/

/-- A time field whose age is above 2^23 µs is clamped to it. -/
def clampAge (now field : Nat) : Nat := if 1000 * 2 ^ 23 < age24 now field then aged24 now else field

/-- AGE_SWEEP. -/
def execAgeSweep (r : Fin 4) (s : State) : Host.Outcome State Fault Refusal :=
  actIf (fun d => d.regionRuns r.val) (fun d =>
    let now := d.belfryNow r.val
    d.modRegion r.val (fun x =>
      { x with conns := x.conns.map (fun c =>
          (c.1, { c.2 with txLast := clampAge now c.2.txLast, rxLast := clampAge now c.2.rxLast, rxGap := clampAge now c.2.rxGap })) })) s

/-- CONN_IDLE_EXPIRY: a context has become evictable, and an operation that waits may take it. -/
def execConnIdleExpiry (r : Fin 4) (conn : Nat) (s : State) : Host.Outcome State Fault Refusal :=
  actIf (fun d => d.regionRuns r.val) (fun d =>
    match d.conn r.val conn with
    | some c => if d.evictable r.val c then d.startOps r.val else d
    | none => d) s

end Sys2Proof.Machine
end

