-- ==== Sys2Proof/Machine/Collect.lean ====
section
/-! DEFINITION. Cooper (12): tree contexts, instances, segments up and down, deadlines, and COLL entries. The commands
TREE_SET to TREE_READ stand in Machine/Trees.lean. -/

namespace Sys2Proof.Machine

/-! ## Contexts (R364 to R367) -/

def Dev.tree (d : Dev) (r id : Nat) : Option Tree := tget (d.region r).trees id
def Dev.modTree (d : Dev) (r id : Nat) (f : Tree → Tree) : Dev :=
  d.modRegion r (fun x => { x with trees := tmod x.trees id f })

/-- The region that holds a TREE_ID: the chip-wide tree map. -/
def Dev.treeRegion (d : Dev) (id : Nat) : Option Nat := allRegions.find? (fun r => (d.tree r id).isSome)

/-- Fields of the static part. -/
def Tree.sf (t : Tree) (h l : Nat) : Nat := bits (leNat t.static) h l
def Tree.root (t : Tree) : Bool := t.sf 14 14 == 1
def Tree.parentFen (t : Tree) : Nat := t.sf 33 16
def Tree.slotAtParent (t : Tree) : Nat := t.sf 40 34
def Tree.sourceSlot (t : Tree) : Nat := t.sf 54 48
def Tree.window (t : Tree) : Nat := t.sf 59 56
/-- DEADLINE in ns. -/
def Tree.deadline (t : Tree) : Nat := 1000 * t.sf 87 64
def Tree.below (t : Tree) : Nat := t.sf 127 96

/-- Fields of a child entry. -/
def childLocal (c : Nat) : Bool := bit c 1
def childFen (c : Nat) : Nat := bits c 19 2
def childEp (c : Nat) : Nat := 2 * bits c 4 2 + bits c 5 5
def childEpi (c : Nat) : Nat := bits c 17 6
def Tree.numChildren (t : Tree) : Nat := t.children.length
def Tree.child (t : Tree) (c : Nat) : Nat := t.children.getD c 0
def Tree.remotes (t : Tree) : List Nat := t.children.filter (fun c => !childLocal c)
/-- The LOCAL child of a member. -/
def Tree.memberSlot (t : Tree) (e epi : Nat) : Option Nat :=
  (List.range t.numChildren).find? (fun c => childLocal (t.child c) && childEp (t.child c) == e && childEpi (t.child c) == epi)

/-- The tree FEN of a context (R364). -/
def Dev.treeFen (d : Dev) (r : Nat) : Nat := fenOf (d.region r).chip.routerId (4 * r)

/-! ## Instances and segments (R366, R370, R376, R379) -/

def Tree.inst (t : Tree) (n : Nat) : Option Instance := t.insts.find? (fun i => i.number == n)
def Dev.modInst (d : Dev) (r id n : Nat) (f : Instance → Instance) : Dev :=
  d.modTree r id (fun t => { t with insts := modWhere (fun i => i.number == n) f t.insts })

/-- S: elements of a segment. -/
def segSize (dtype : Nat) (exact : Bool) : Nat := if exact then 128 else 4096 / dtypeBytes dtype
def segsOf (n s : Nat) : Nat := max 1 ((n + s - 1) / s)
def Instance.size (i : Instance) : Nat := segSize i.dtype i.exact_
/-- The up phase carries contributions. -/
def Instance.carries (i : Instance) : Bool := i.collOp == 2 || i.collOp == 3
def Instance.upSegs (i : Instance) : Nat := if i.carries then segsOf i.elems i.size else 1
def Instance.downSegs (i : Instance) : Nat := if i.collOp = 0 then 1 else segsOf i.elems i.size
/-- Elements of segment j, up and down. -/
def Instance.elemsOf (i : Instance) (j : Nat) : Nat := min i.size (i.elems - j * i.size)
def Instance.upElems (i : Instance) (j : Nat) : Nat := if i.carries then i.elemsOf j else 0

def Instance.seg (i : Instance) (j : Nat) : Segment := (i.segs.find? (fun s => s.seg == j)).getD ⟨j, [], [], [], false⟩
def Instance.setSeg (i : Instance) (s : Segment) : Instance := { i with segs := i.segs.filter (fun x => x.seg != s.seg) ++ [s] }

/-- Its up, or down, deadline has passed (R391). -/
def Tree.upLate (t : Tree) (i : Instance) (now : Nat) : Bool := i.upEnded || (t.deadline != 0 && decide (i.upStart + t.deadline ≤ now))
def Tree.downLate (t : Tree) (i : Instance) (now : Nat) : Bool :=
  i.downEnded || (t.deadline != 0 && (match i.downStart with
    | some s => decide (s + t.deadline ≤ now)
    | none => false))

/-- `may_advance` (R379). -/
def Tree.mayAdvance (t : Tree) (i : Instance) (j : Nat) : Bool := decide (j < i.segsDown + t.window)

/-- An instance number is CUR_INSTANCE or CUR_INSTANCE + 1 and has not ended (R371). -/
def numDist (a b : Nat) : Nat := (b + 65536 - a % 65536) % 65536
def Tree.accepts (t : Tree) (n : Nat) : Bool :=
  decide (numDist t.cur n ≤ 1) && t.state != 3 && !((t.inst n).any (fun i => i.phase == 0))

/-- A new instance (R366). -/
def newInstance (n op dtype redop : Nat) (exact : Bool) (elems now : Nat) : Instance :=
  { number := n, phase := 1, collOp := op, dtype := dtype, redop := redop, exact_ := exact, isPartial := false, elems := elems,
    segsUp := 0, segsDown := 0, upEnded := false, downEnded := false, absent := 0, failed := 0, upDone := 0, segs := [], childSegs := [],
    downGot := [], upStart := now, downStart := none }

/-- DTYPE, REDOP and EXACT as an operation uses them (R372, R374). -/
def usedParams (op dtype redop : Nat) (exact : Bool) : Nat × Nat × Bool :=
  (if op = 0 then 0 else dtype, if op = 2 ∨ op = 3 then redop else 0,
   exact && (op == 2 || op == 3) && redop == 0 && isFloat dtype)

/-- The slot of an instance, made by its first registration; the context is RUNNING. -/
def Dev.openInst (d : Dev) (r id n op dtype redop : Nat) (exact : Bool) (elems : Nat) : Dev :=
  let now := d.belfryNow r
  let (dt, ro, ex) := usedParams op dtype redop exact
  d.modTree r id (fun t =>
    if (t.inst n).isSome then t else { t with state := 2, insts := t.insts ++ [newInstance n op dt ro ex elems now] })

/-- An entry or packet differs from its slot (R371). -/
def Instance.differs (i : Instance) (op dtype redop : Nat) (exact : Bool) (elems : Nat) : Bool :=
  let (dt, ro, ex) := usedParams op dtype redop exact
  i.collOp != op || i.elems != elems || i.dtype != dt || i.redop != ro || i.exact_ != ex

/-- A child becomes absent from an instance. -/
def Dev.makeAbsent (d : Dev) (r id n c : Nat) : Dev := d.modInst r id n (fun i => { i with absent := putBit i.absent c true })

/-- MISMATCHES and its event (18 R545). -/
def Dev.mismatch (d : Dev) (r id : Nat) : Dev := (d.count (Ctr.mismatches r)).raise (Isl.belfry r) (Src.region r 21) 0 id

/-! ## Combining (R375, R380, R382) -/

/-- A contribution of child `c` to segment `j`, from element `first` of the segment on. When the segment is whole, the
child's part of CONTRIB stands. -/
def Instance.contribute (i : Instance) (c j first : Nat) (xs : List Val) (contrib : Nat) (isPart : Bool) : Instance :=
  let s := i.seg j
  let put (t : Tbl Val) (k : Nat) (x : Val) : Tbl Val :=
    tput t k (match tget t k with
      | some v => v.combine i.dtype i.redop x
      | none => x)
  let got := s.got ++ [(c, first, xs.length)]
  let n := (got.filter (fun g => g.1 == c)).foldl (fun n g => n + g.2.2) 0
  let whole := decide (i.upElems j ≤ n)
  let segs := tgetD i.childSegs c 0 + b2n whole
  let s := { s with
    got := got, vals := ((List.range xs.length).zip xs).foldl (fun t x => put t (first + x.1) x.2) s.vals,
    parts := if whole then tput s.parts c contrib else s.parts, isPartial := s.isPartial || isPart }
  { i.setSeg s with
    childSegs := tput i.childSegs c segs, upDone := if i.upSegs ≤ segs then putBit i.upDone c true else i.upDone }

/-- A child has delivered some of the elements of a range, or an empty part. -/
def Segment.has (s : Segment) (c first n : Nat) : Bool :=
  s.got.any (fun g => g.1 == c && (n == 0 || (decide (g.2.1 < first + n) && decide (first < g.2.1 + g.2.2))))

/-- Segment `j` is complete without the absent children. -/
def Tree.segReady (t : Tree) (i : Instance) (j : Nat) : Bool :=
  let s := i.seg j
  (List.range t.numChildren).all (fun c => bit i.absent c || (tget s.parts c).isSome)

def Segment.contrib (s : Segment) : Nat := s.parts.foldl (fun n p => n + p.2) 0

/-- The combined values of a segment; an element to which no child contributed is a free value. -/
def Dev.segValues (d : Dev) (i : Instance) (j : Nat) : Dev × List Val :=
  let s := i.seg j
  (List.range (i.upElems j)).foldl (fun (x : Dev × List Val) k =>
    match tget s.vals k with
    | some v => (x.1, x.2 ++ [v])
    | none =>
      let raw := (Config.unstated x.1.free).toNat % 2 ^ (8 * dtypeBytes i.dtype)
      (x.1.draw, x.2 ++ [valOf i.exact_ i.dtype i.redop raw])) (d, [])

/-! ## Sending (R377, R378, R381, R386) -/

/-- COLL_ARG. -/
def collArgOf (slot : Nat) (isPart : Bool) (op contrib total : Nat) : Nat :=
  pack [(slot, 7), (b2n isPart, 1), (op, 2), (0, 22), (contrib, 32), (total, 32)]

/-- A packet of a context. -/
def Dev.sendColl (d : Dev) (r id opcode cls dst : Nat) (i : Instance) (full : Bool) (count off arg : Nat) (payload : List Byte) :
    Dev :=
  d.send r (58 + id % 2)
    { dstFen := dst, srcFen := d.treeFen r, cls := cls, unit := 1, opcode := opcode,
      ext := cooperExt id i.number i.dtype i.redop i.exact_ full count off arg } payload

/-- Maximal runs of one form, cut to packets of at most 170 compact or 15 full partial sums: form, and elements. -/
def addRun (rs : List (Bool × List Acc)) (a : Acc) : List (Bool × List Acc) :=
  match rs.reverse with
  | (k, xs) :: before =>
    if k == a.compact && decide (xs.length < if k then 170 else 15) then (before.reverse ++ [(k, xs ++ [a])]) else rs ++ [(a.compact, [a])]
  | [] => [(a.compact, [a])]

def Val.acc : Val → Acc
  | .exact a => a
  | .fast _ => Acc.special .nan

/-- The packets of an exact segment. -/
def exactRuns (xs : List Acc) : List (Bool × List Acc) := if xs.isEmpty then [(true, [])] else xs.foldl addRun []

/-- A segment goes up to the parent; one of no elements goes as one packet. -/
def Dev.sendUp (d : Dev) (r id : Nat) (t : Tree) (i : Instance) (j : Nat) (xs : List Val) (isPart : Bool) : Dev :=
  let arg := collArgOf t.slotAtParent isPart i.collOp (i.seg j).contrib i.elems
  let base := j * i.size
  let one (full : Bool) (count off : Nat) (payload : List Byte) (d : Dev) : Dev :=
    (d.sendColl r id 0x01 2 t.parentFen i full count off arg payload).countSent (Ctr.collUpSent r)
  if i.exact_ then
    (exactRuns (xs.map Val.acc)).foldl (fun (x : Dev × Nat) run =>
      let n := run.2.length
      let d := one (!run.1) n (base + x.2) (run.2.flatMap (if run.1 then Acc.toCompact else Acc.toFull)) x.1
      (if d.fenced then d else d.countBy (if run.1 then Ctr.compactElems r else Ctr.fullElems r) n, x.2 + n)) (d, 0) |>.1
  else
    one false xs.length base (xs.flatMap (fun v => leBytes (dtypeBytes i.dtype) (v.result i.dtype))) d

/-- Results are written for a member that has posted, while its endpoint is in RUN (R381, R395). -/
def Dev.memberWrite (d : Dev) (r id : Nat) (i : Instance) (off c : Nat) (data : List Byte) : Dev :=
  match (d.tree r id).bind (fun t => t.postings.find? (fun p => p.child == c && p.number == i.number && p.admitted)) with
  | none => d
  | some p =>
    if !d.epRuns p.ep || (d.sq p.ep p.sq).state == .halted then d
    else
      let at_ := off * dtypeBytes i.dtype
      d.placeAll p.ep p.pasid p.user ((p.result + at_) % 2 ^ 64) data (i.elems * dtypeBytes i.dtype - (at_ + data.length)) .result
        (.member r id c i.number) none

/-- A down segment: sent to every REMOTE child, and written where R370 says. -/
def Dev.sendDown (d : Dev) (r id : Nat) (t : Tree) (i : Instance) (j : Nat) (isPart : Bool) (contrib : Nat) (payload : List Byte) :
    Dev :=
  let off := if i.collOp = 0 then 0 else j * i.size
  let data := i.collOp == 1 || i.collOp == 3
  let count := if data then i.elemsOf j else 0
  let arg := collArgOf 0 isPart i.collOp contrib i.elems
  let d := forEach t.remotes (fun c d =>
    (d.sendColl r id (if data then 0x02 else 0x03) 3 (childFen c) i false count off arg (if data then payload else [])).countSent
      (Ctr.collDownSent r)) d
  let d := if data then
      forEach ((List.range t.numChildren).filter (fun c => childLocal (t.child c))) (fun c d => d.memberWrite r id i off c payload) d
    else if i.collOp == 2 && t.root then d.memberWrite r id i off t.sourceSlot payload
    else d
  d.modInst r id i.number (fun i =>
    let got := insertNat j i.downGot
    { i with downGot := got, segsDown := firstGap (got.map (fun k => (k, ()))) 0, isPartial := i.isPartial || isPart })

/-! ## Contributions (R379, R380, R395) -/

/-- What a member reads: REDUCE and ALLREDUCE up, and the source of a BROADCAST at the root, once its up phase is over. -/
def Tree.wantsRead (t : Tree) (i : Instance) (p : Posting) : Bool :=
  let others := t.insts.all (fun k => k.number == i.number || decide (numDist t.cur i.number < numDist t.cur k.number) ||
    decide (k.upSegs ≤ k.segsUp))
  p.admitted && !p.reading && p.fault.isNone && others && t.mayAdvance i p.nextSeg &&
    (if i.carries then decide (p.nextSeg < i.upSegs) && !bit i.absent p.child && i.phase == 1
     else i.collOp == 1 && t.root && p.child == t.sourceSlot && i.phase == 2 && decide (p.nextSeg < i.downSegs))

/-- A member's contribution or the source's data fails: absent from here on, and the entry's fault (R395). -/
def Dev.contribFault (d : Dev) (r id : Nat) (p : Posting) (fault : Nat × Nat) : Dev :=
  (d.modPosting r id p.child p.number (fun p => { p with reading := false, fault := some (p.fault.getD fault) })).modInst
    r id p.number (fun i => { i with absent := putBit i.absent p.child true, failed := putBit i.failed p.child true })

/-- Encodings of a contribution's bytes, as values. -/
def valsOf (i : Instance) (data : List Byte) (n : Nat) : List Val :=
  (List.range n).map (fun k => valOf i.exact_ i.dtype i.redop (field data (k * dtypeBytes i.dtype) (dtypeBytes i.dtype)))

/-- A segment of a member's contribution has been read. -/
def Dev.contribDone (d : Dev) (r id : Nat) (t : Tree) (i : Instance) (p : Posting) (data : List Byte) : Dev :=
  let j := p.nextSeg
  let d := d.modPosting r id p.child p.number (fun p => { p with reading := false, nextSeg := j + 1 })
  if i.carries then
    if t.upLate i (d.belfryNow r) || bit i.absent p.child then d.count (Ctr.lateContributions r)
    else d.modInst r id i.number (fun i => i.contribute p.child j 0 (valsOf i data (i.elemsOf j)) 1 false)
  else d.sendDown r id t i j i.isPartial (if bit i.absent p.child then 0 else 1) data

/-- The pages of a contribution's next segment are found, and it is read; a segment of no elements needs no read. -/
def Dev.readContrib (d : Dev) (r id : Nat) (t : Tree) (i : Instance) (p : Posting) : Dev :=
  let n := i.elemsOf p.nextSeg * dtypeBytes i.dtype
  let va := (p.addr + p.nextSeg * i.size * dtypeBytes i.dtype) % 2 ^ 64
  let who := Who.contrib r id p.child p.nextSeg
  let rem := (i.elems - p.nextSeg * i.size) * dtypeBytes i.dtype - n
  match d.needPages p.ep who p.pasid p.user .read rem (pieces 2 va n) with
  | (d, .waiting) => d.modPosting r id p.child p.number (fun p => { p with reading := true })
  | (d, .fault k) => d.contribFault r id p (0x01, k)
  | (d, .ready got) =>
    if n = 0 then d.contribDone r id t i p [] else
    let d := (d.useGrants p.ep who d.nextId).modPosting r id p.child p.number (fun p => { p with reading := true })
    d.startRead p.ep .payload who (some (p.pasid, none)) ((got.zip (pieces 2 va n)).map (fun x => (x.1.2.1, x.2.2)))

/-! ## Ending (R371, R381, R393) -/

/-- Every down segment has been sent on, or the window has ended, and every local write is issued. -/
def Tree.instOver (t : Tree) (i : Instance) : Bool :=
  i.phase != 0 && (i.downEnded || decide (i.downSegs ≤ i.segsDown)) &&
    t.postings.all (fun p => p.number != i.number || !p.admitted || p.writing == 0)

/-- Instances that ended ahead of CUR_INSTANCE are passed, and the context is READY when both slots are empty (R369). -/
def Tree.settle : Nat → Tree → Tree
  | 0, t => t
  | n + 1, t =>
    match t.inst t.cur with
    | some i => if i.phase = 0 then Tree.settle n { t with cur := (t.cur + 1) % 65536, insts := t.insts.filter (fun k => k.number != t.cur) }
                else t
    | none => if t.insts.all (fun k => k.phase == 0) && t.state == 2 then { t with state := 1 } else t

/-- An entry's record. -/
def Posting.fin (p : Posting) (isPart : Bool) : Fin8 :=
  match p.fault with
  | some (st, k) => ⟨st, p.written, 0, 0, k⟩
  | none => ⟨if isPart then 0x0B else 0, p.written, 0, 0, 0⟩

/-- An instance ends at the context. -/
def Dev.endInst (d : Dev) (r id : Nat) (i : Instance) : Dev :=
  match d.tree r id with
  | none => d
  | some t =>
    let mine := t.postings.filter (fun p => p.number == i.number && p.admitted)
    let d := d.modTree r id (fun t =>
      Tree.settle 3 { t with
        postings := t.postings.filter (fun p => !(p.number == i.number && p.admitted))
        insts := modWhere (fun k => k.number == i.number) (fun k => { k with phase := 0 }) t.insts })
    let d := d.count (Ctr.instancesEnded r)
    let d := if t.root && i.isPartial then (d.count (Ctr.partialInstances r)).raise (Isl.belfry r) (Src.region r 22) 0 id else d
    forEach mine (fun p d => d.complete p.ep p.sq p.entry (p.fin i.isPartial)) d

/-- The up windows of a context that have ended (R391, R392). -/
def Dev.endWindows (d : Dev) (r id : Nat) : Dev :=
  match d.tree r id with
  | none => d
  | some t =>
    let now := d.belfryNow r
    forEach t.insts (fun i d =>
      if i.phase == 1 && !i.upEnded && t.upLate i now then
        let gone := (List.range t.numChildren).filter (fun c => !bit i.upDone c && !bit i.absent c)
        let d := d.countBy (Ctr.absentMarks r) gone.length
        d.modInst r id i.number (fun i => { i with upEnded := true, absent := gone.foldl (fun a c => putBit a c true) i.absent })
      else d) d

/-- A posting's registration at its context (R371): it fills or meets the slot, its empty arrival counts, or it completes
at once. -/
def Dev.admitPosting (d : Dev) (r id op dtype redop : Nat) (exact : Bool) (elems : Nat) (p : Posting) : Dev :=
  let d := (d.openInst r id p.number op dtype redop exact elems).endWindows r id
  match (d.tree r id).bind (fun t => t.inst p.number) with
  | none => d
  | some i =>
    let drop (d : Dev) : Dev :=
      (d.modTree r id (fun t => { t with postings := t.postings.filter (fun q => !(q.entry == p.entry && q.ep == p.ep)) })).complete p.ep p.sq
        p.entry (Fin8.status' 0x0B 0)
    if i.differs op dtype redop exact elems then drop ((d.mismatch r id).makeAbsent r id p.number p.child)
    else if bit i.absent p.child then drop (if i.upEnded && !i.carries then d.count (Ctr.lateContributions r) else d)
    else
      let ready (q : Posting) : Posting := { q with admitted := true, nextSeg := if i.carries then tgetD i.childSegs p.child 0 else i.segsDown }
      let d := d.modTree r id (fun t =>
        { t with postings := modWhere (fun q => q.entry == p.entry && q.ep == p.ep) ready t.postings })
      if i.carries || (tget (i.seg 0).parts p.child).isSome then d
      else d.modInst r id p.number (fun i => i.contribute p.child 0 0 [] 1 false)

/-- COLL_OP, DTYPE, REDOP, EXACT and ELEM_COUNT of an entry (08 R246). -/
def collParams (b : List Byte) : Nat × Nat × Nat × Bool × Nat :=
  (entSub b, bits (byteAt b 36) 3 0, bits (byteAt b 36) 7 4, bit (byteAt b 37) 0, field b 40 4)

/-- A parked posting whose instance number is now accepted, or has passed. -/
def Dev.unparkOne (d : Dev) (r id : Nat) : Dev :=
  match d.tree r id with
  | none => d
  | some t =>
    if t.state = 3 then d else
    match t.postings.find? (fun p => !p.admitted && (t.accepts p.number || decide (32768 ≤ numDist t.cur p.number))) with
    | none => d
    | some p =>
      if t.accepts p.number then
        match (d.sq p.ep p.sq).entry p.entry with
        | some a =>
          let (op, dtype, redop, exact, elems) := collParams a.bytes
          d.admitPosting r id op dtype redop exact elems p
        | none => d.modTree r id (fun t => { t with postings := t.postings.filter (fun q => !(q.entry == p.entry && q.ep == p.ep)) })
      else
        (d.modTree r id (fun t => { t with postings := t.postings.filter (fun q => !(q.entry == p.entry && q.ep == p.ep)) })).complete
          p.ep p.sq p.entry (Fin8.status' 0x0B 0)

/-- Every parked posting that can be admitted is, in the order of acceptance. -/
def Dev.unpark (d : Dev) (r id : Nat) : Dev :=
  match d.tree r id with
  | none => d
  | some t => forEach t.postings (fun _ d => d.unparkOne r id) d

/-! ## Progress -/

/-- A child is absent from segment `s` of an instance: one whose contribution failed is not from the segments it had delivered
(R394, R395). -/
def Instance.lacks (i : Instance) (s : Segment) (c : Nat) : Bool := bit i.absent c && !(bit i.failed c && (tget s.parts c).isSome)


/-- A complete segment goes on: up, or at the root down (R379, R381, R392, R394). -/
def Dev.passSegment (d : Dev) (r id : Nat) (t : Tree) (i : Instance) : Dev :=
  let j := i.segsUp
  let (d, xs) := d.segValues i j
  let s := i.seg j
  let isPart := s.isPartial || (List.range t.numChildren).any (i.lacks s) || (t.root && decide (s.contrib < t.below))
  let d := d.count (Ctr.segmentsCombined r)
  let d := if t.root then
      if i.collOp = 1 then d.modInst r id i.number (fun i => { i with isPartial := i.isPartial || isPart })
      else d.sendDown r id t i j isPart s.contrib (xs.flatMap (fun v => leBytes (dtypeBytes i.dtype) (v.result i.dtype)))
    else d.sendUp r id t i j xs isPart
  let now := d.belfryNow r
  d.modInst r id i.number (fun i =>
    let last := decide (i.upSegs ≤ j + 1)
    { i with segsUp := j + 1, segs := i.segs.filter (fun s => s.seg != j), phase := if last then 2 else i.phase,
             downStart := if last && !t.root then some now else i.downStart })

/-- The root of a BROADCAST whose source is absent sends free values down (R392). -/
def Dev.passEmpty (d : Dev) (r id : Nat) (t : Tree) (i : Instance) : Dev :=
  let j := i.segsDown
  let n := i.elemsOf j
  let (d, xs) := (List.range n).foldl (fun (x : Dev × List Byte) _ =>
    (x.1.draw, x.2 ++ leBytes (dtypeBytes i.dtype) (Config.unstated x.1.free).toNat)) (d, [])
  d.sendDown r id t i j true 0 xs

/-- One thing that a context can do now. -/
inductive CoopStep where
  | read (i : Instance) (p : Posting)
  | pass (i : Instance)
  | empty (i : Instance)
  | ends (i : Instance)
  deriving DecidableEq, Repr

def Tree.sourceGone (t : Tree) (i : Instance) : Bool := t.root && i.collOp == 1 && i.phase == 2 && bit i.absent t.sourceSlot

def Dev.coopNext (d : Dev) (t : Tree) : Option CoopStep :=
  t.insts.findSome? (fun i =>
    if t.instOver i then some (.ends i)
    else if i.phase == 0 || i.downEnded then none
    else if decide (i.segsUp < i.upSegs) && t.segReady i i.segsUp && (t.mayAdvance i i.segsUp || t.root) then some (.pass i)
    else if t.sourceGone i && decide (i.segsDown < i.downSegs) then some (.empty i)
    else (t.postings.find? (fun p => p.number == i.number && t.wantsRead i p && d.epRuns p.ep && (d.sq p.ep p.sq).state != .halted)).map
      (fun p => .read i p))

/-- A context does what it can. -/
def Dev.coopGo : Nat → Dev → Nat → Nat → Dev
  | 0, d, _, _ => d
  | n + 1, d, r, id =>
    match d.tree r id with
    | none => d
    | some t =>
      if t.state = 3 then d else
      match d.coopNext t with
      | some (.read i p) => Dev.coopGo n (d.readContrib r id t i p) r id
      | some (.pass i) => Dev.coopGo n (d.passSegment r id t i) r id
      | some (.empty i) => Dev.coopGo n (d.passEmpty r id t i) r id
      | some (.ends i) => Dev.coopGo n ((d.endInst r id i).unpark r id) r id
      | none => d

/-- How many steps one event can cause. -/
def Dev.coopFuel (d : Dev) (r id : Nat) : Nat :=
  match d.tree r id with
  | none => 0
  | some t => t.insts.foldl (fun n i => n + i.upSegs + i.downSegs + 4) (4 * t.postings.length + 8)

def Dev.coopRun (d : Dev) (r id : Nat) : Dev := Dev.coopGo (d.coopFuel r id) d r id

/-! ## COLL entries (R371) -/

/-- An accepted COLL entry reaches the context of its tree. -/
def Dev.postColl (d : Dev) (e q entry : Nat) (b : List Byte) : Dev :=
  let id := bits (field b 32 2) 11 0
  let no (d : Dev) : Dev := d.complete e q entry (Fin8.status' 0x0B 0)
  match d.treeRegion id with
  | none => no d
  | some r =>
    match d.tree r id with
    | none => no d
    | some t =>
      match t.memberSlot e (q / 2) with
      | none => no d
      | some c =>
        let n := field b 34 2
        if 32768 ≤ numDist t.cur n ∨ (t.inst n).any (fun i => i.phase == 0) ∨ t.postings.any (fun p => p.child == c && p.number == n) then no d
        else
          let s := d.sq e q
          let p : Posting :=
            { ep := e, sq := q, entry := entry, child := c, number := n, addr := field b 16 8, result := field b 24 8,
              pasid := s.pasid, user := !s.super, admitted := false, nextSeg := 0, reading := false,
              written := 0, writing := 0, fault := none }
          let d := d.modTree r id (fun t => { t with postings := t.postings ++ [p] })
          (d.unpark r id).coopRun r id

/-! ## Packets (R377, R380, R381) -/

/-- CHILD_SLOT, PARTIAL, COLL_OP, CONTRIB and TOTAL_ELEMS. -/
def argSlot (h : Hdr) : Nat := bits h.collArg 6 0
def argPartial (h : Hdr) : Bool := bit h.collArg 7
def argOp (h : Hdr) : Nat := bits h.collArg 9 8
def argContrib (h : Hdr) : Nat := bits h.collArg 63 32
def argTotal (h : Hdr) : Nat := bits h.collArg 95 64

/-- The values a COLL_UP carries (R378). -/
def upVals (i : Instance) (p : Packet) : List Val :=
  let n := p.hdr.elemCount
  if i.exact_ then
    (List.range n).map (fun k =>
      .exact (if p.hdr.fullForm then accOfFull (sliceBytes p.payload (272 * k) 272) else accOfCompact (sliceBytes p.payload (24 * k) 24)))
  else (List.range n).map (fun k => .fast (fastStart i.dtype i.redop (field p.payload (k * dtypeBytes i.dtype) (dtypeBytes i.dtype))))

def Dev.badSource (d : Dev) (r : Nat) : Dev := d.count (Ctr.badSourceDrops r)
def Dev.staleInst (d : Dev) (r : Nat) : Dev := d.count (Ctr.staleInstanceDrops r)

/-- COLL_UP_RECEIVED. -/
def Dev.collUp (d : Dev) (r : Nat) (p : Packet) : Dev :=
  let h := p.hdr
  let id := h.treeId
  let c := argSlot h
  match d.tree r id with
  | none => d.badSource r
  | some t =>
    if h.opcode ≠ 0x01 ∨ h.cls ≠ 2 ∨ t.numChildren ≤ c ∨ childLocal (t.child c) ∨ childFen (t.child c) ≠ h.srcFen then d.badSource r
    else if !t.accepts h.inst then d.staleInst r
    else
      let d := d.openInst r id h.inst (argOp h) h.dtype h.redop h.exact_ (argTotal h)
      match (d.tree r id).bind (fun t => t.inst h.inst) with
      | none => d
      | some i =>
        if i.differs (argOp h) h.dtype h.redop h.exact_ (argTotal h) then
          ((d.mismatch r id).makeAbsent r id h.inst c).coopRun r id
        else if t.upLate i (d.belfryNow r) || bit i.absent c then d.count (Ctr.lateContributions r)
        else
          let j := if i.carries then h.elemOffset / i.size else 0
          let first := if i.carries then h.elemOffset % i.size else 0
          if i.upSegs ≤ j ∨ j < i.segsUp ∨ i.upElems j < first + h.elemCount ∨ (i.seg j).has c first h.elemCount then d.badSource r
          else
            (d.modInst r id h.inst (fun i => i.contribute c j first (upVals i p) (argContrib h) (argPartial h))).coopRun r id

def execCollUpReceived (r : Fin 4) (pkt : Packet) (s : State) : Host.Outcome State Fault Refusal :=
  onArrival r.val pkt (fun d => d.collUp r.val pkt) s

/-- COLL_DOWN_RECEIVED and COLL_CREDIT_RECEIVED. -/
def Dev.collDown (d : Dev) (r : Nat) (p : Packet) (opcode : Nat) : Dev :=
  let h := p.hdr
  let id := h.treeId
  match d.tree r id with
  | none => d.badSource r
  | some t =>
    if h.opcode ≠ opcode ∨ h.cls ≠ 3 ∨ t.root ∨ t.parentFen ≠ h.srcFen then d.badSource r
    else if !t.accepts h.inst then d.staleInst r
    else match t.inst h.inst with
      | none => d.staleInst r
      | some i =>
        if t.downLate i (d.belfryNow r) then d.staleInst r else
        let j := if i.collOp = 0 then 0 else h.elemOffset / i.size
        if i.downSegs ≤ j ∨ i.downGot.contains j then d.badSource r
        else
          let data := sliceBytes p.payload 0 (i.elemsOf j * dtypeBytes i.dtype)
          (d.sendDown r id t i j (argPartial h) (argContrib h) data).coopRun r id

def execCollDownReceived (r : Fin 4) (pkt : Packet) (s : State) : Host.Outcome State Fault Refusal :=
  onArrival r.val pkt (fun d => d.collDown r.val pkt 0x02) s

def execCollCreditReceived (r : Fin 4) (pkt : Packet) (s : State) : Host.Outcome State Fault Refusal :=
  onArrival r.val pkt (fun d => d.collDown r.val pkt 0x03) s

/-! ## Reads and deadlines -/

/-- The posting whose read of a segment runs. -/
def Tree.reader (t : Tree) (c seg : Nat) : Option Posting :=
  t.postings.find? (fun p => p.child == c && p.nextSeg == seg && p.reading)

/-- A host read of a contribution has ended (R380, R395). -/
def Dev.contribRead (d : Dev) (r id c seg : Nat) (res : HostRes) : Dev :=
  match d.tree r id with
  | none => d
  | some t =>
    match t.reader c seg with
    | none => d
    | some p =>
      match t.inst p.number, res with
      | some i, .ok data =>
        (d.contribDone r id t i p (sliceBytes data 0 (i.elemsOf seg * dtypeBytes i.dtype))).coopRun r id
      | _, .ok _ => d
      | _, _ => (d.contribFault r id p (0x02, 0)).coopRun r id

/-- A walk that a contribution waited for has ended: its pages are looked up again. -/
def Dev.contribFound (d : Dev) (r id c seg : Nat) : Dev :=
  match d.tree r id with
  | none => d
  | some t =>
    match t.reader c seg with
    | none => d
    | some p =>
      match t.inst p.number with
      | some i => (d.readContrib r id t i { p with reading := false }).coopRun r id
      | none => d

/-- UP_WINDOW_EXPIRY (R391, R392). -/
def Dev.upWindow (d : Dev) (r id : Nat) : Dev := (d.endWindows r id).coopRun r id

def execUpWindowExpiry (r : Fin 4) (tree : Nat) (s : State) : Host.Outcome State Fault Refusal :=
  actIf (fun d => d.regionRuns r.val) (fun d => d.upWindow r.val tree) s

/-- DOWN_WINDOW_EXPIRY (R393). -/
def Dev.downWindow (d : Dev) (r id : Nat) : Dev :=
  match d.tree r id with
  | none => d
  | some t =>
    let now := d.belfryNow r
    let d := forEach t.insts (fun i d =>
      if i.phase == 2 && !i.downEnded && t.downLate i now && decide (i.segsDown < i.downSegs) then
        ((d.count (Ctr.downTimeouts r)).raise (Isl.belfry r) (Src.region r 23) 0 id).modInst r id i.number
          (fun i => { i with downEnded := true, isPartial := true })
      else d) d
    d.coopRun r id

def execDownWindowExpiry (r : Fin 4) (tree : Nat) (s : State) : Host.Outcome State Fault Refusal :=
  actIf (fun d => d.regionRuns r.val) (fun d => d.downWindow r.val tree) s

end Sys2Proof.Machine
end

