-- ==== Sys2Proof/Machine/Locks.lean ====
section
/-! DEFINITION. Locksmith (13): cells, waiters and inheritance at the lock slice, PENDING entries at the proxy slice, and
the records of an event queue. The commands LOCK_FORCE_RELEASE to LOCK_READ stand in Machine/Trees.lean. -/

namespace Sys2Proof.Machine

/-! ## Packets (R409) -/

/-- Fields of LOCK_ARG. TRY is not laid out by R409, and R407 needs it at the cell: a LOCK carries it in bit 24, which
STATUS uses in BUSY alone (log entry 24). -/
def argPend (h : Hdr) : Nat := bits h.lockArg 14 0
def argTry (h : Hdr) : Bool := bit h.lockArg 24
def argStatus (h : Hdr) : Nat := bits h.lockArg 31 24
def argDetail (h : Hdr) : Nat := bits h.lockArg 47 32
def argGrantSeq (h : Hdr) : Nat := bits h.lockArg 95 64
def lockArgOf (pend : Nat) (aband forced : Bool) (status detail seq : Nat) : Nat :=
  pack [(pend, 15), (0, 1), (b2n aband, 1), (b2n forced, 1), (0, 6), (status, 8), (detail, 16), (0, 16), (seq, 32)]

/-- A packet of a slice to a requester or a holder. -/
def Dev.lockSend (d : Dev) (r opcode fen epi id prio tag arg : Nat) : Dev :=
  d.send r 60
    { dstFen := fen, srcFen := fenOf (d.region r).chip.routerId 0, cls := 1, unit := 2, opcode := opcode, srcEpi := epi,
      ext := lockExt id prio tag arg } []

/-- A requester as a packet names it: FEN, endpoint index, PEND_INDEX. -/
def Dev.lockBusy (d : Dev) (r : Nat) (h : Hdr) (status detail : Nat) : Dev :=
  (d.lockSend r 0x83 h.srcFen h.srcEpi h.lockId h.lockPrio h.grantAddr (lockArgOf (argPend h) false false status detail 0)).count
    (Ctr.lockBusySent r)
def Dev.lockAnswer (d : Dev) (r opcode : Nat) (h : Hdr) : Dev :=
  d.lockSend r opcode h.srcFen h.srcEpi h.lockId h.lockPrio h.grantAddr (lockArgOf (argPend h) false false 0 0 0)

/-! ## Inheritance (R414, R416) -/

/-- LOCK_ARG of INHERIT and DISINHERIT: bytes 1 to 3 of the record at their own places, bytes 8 to 15 after them
(log entry 24). -/
def inheritArg (newPrio holderPrio : Nat) (forced released : Bool) (wFen wEpi seq waiters : Nat) : Nat :=
  pack [(0, 8), (newPrio, 8), (holderPrio, 8), (b2n forced, 1), (b2n released, 1), (0, 6), (wFen, 18), (wEpi, 12), (0, 2),
    (seq, 16), (min 65535 waiters, 16)]

/-- INHERIT to the holder, which names the waiter. -/
def Dev.inherit (d : Dev) (r id : Nat) (w : Waiter) : Dev :=
  let d := d.modLockCell id (fun c => { c with inhSeq := (c.inhSeq + 1) % 65536 })
  let c := d.lockCell id
  (d.lockSend r 0x85 c.holderFen c.holderEpi id c.effPrio c.holderTag
    (inheritArg c.effPrio c.holderPrio false false w.fen w.epi c.inhSeq c.waiters.length)).count (Ctr.inheritsSent r)

/-- DISINHERIT to the holder. -/
def Dev.disinherit (d : Dev) (r id newPrio : Nat) (forced released : Bool) : Dev :=
  let d := d.modLockCell id (fun c => { c with inhSeq := (c.inhSeq + 1) % 65536 })
  let c := d.lockCell id
  (d.lockSend r 0x86 c.holderFen c.holderEpi id newPrio c.holderTag
    (inheritArg newPrio c.holderPrio forced released 0 0 c.inhSeq c.waiters.length)).count (Ctr.disinheritsSent r)

def firstPrio : List Waiter → Nat
  | [] => 0
  | w :: _ => w.prio

/-- A waiter was removed: the holder's effective priority may fall. -/
def Dev.lowerEff (d : Dev) (r id : Nat) : Dev :=
  let c := d.lockCell id
  let e := max c.holderPrio (firstPrio c.waiters)
  if c.state = 1 ∧ e < c.effPrio then (d.modLockCell id (fun c => { c with effPrio := e })).disinherit r id e false false else d

/-! ## Grants and releases (R407, R408, R421) -/

/-- A grant: the cell is HELD by the waiter, and INHERIT follows when a waiter that remains is more urgent. -/
def Dev.grantLock (d : Dev) (r id : Nat) (w : Waiter) (aband forced : Bool) : Dev :=
  let d := d.modLockCell id (fun c =>
    { c with state := 1, holderPrio := w.prio, effPrio := max w.prio (firstPrio c.waiters), holderFen := w.fen, holderEpi := w.epi,
             holderPend := w.pend, grantSeq := (c.grantSeq + 1) % 2 ^ 32, holderTag := w.tag })
  let c := d.lockCell id
  let d := (d.lockSend r 0x81 w.fen w.epi id w.prio w.tag (lockArgOf w.pend aband forced 0 0 c.grantSeq)).count (Ctr.lockGrants r)
  match c.waiters with
  | v :: _ => if w.prio < v.prio then d.inherit r id v else d
  | [] => d

/-- The holder is gone: the first waiter is granted, or the cell takes a state of its own (0 FREE, 2 ABANDONED,
3 FORCED). -/
def Dev.passLock (d : Dev) (r id st : Nat) : Dev :=
  match (d.lockCell id).waiters with
  | w :: ws => (d.modLockCell id (fun c => { c with waiters := ws })).grantLock r id w (st == 2) (st == 3)
  | [] => d.modLockCell id (fun c => { c with state := st })

/-- A release by the holder (R407, R414). -/
def Dev.releaseLock (d : Dev) (r id : Nat) : Dev :=
  let c := d.lockCell id
  let d := if c.holderPrio < c.effPrio then d.disinherit r id c.holderPrio false true else d
  d.passLock r id 0

/-- A forced release (R418). -/
def Dev.forceLock (d : Dev) (r id : Nat) : Dev :=
  let c := d.lockCell id
  let d := ((d.count (Ctr.forcedReleases r)).raise (Isl.belfry r) (Src.region r 24) 0 id).disinherit r id c.holderPrio true
    (decide (c.holderPrio < c.effPrio))
  d.passLock r id 3

/-- An abandonment (R421, R414). -/
def Dev.abandonLock (d : Dev) (r id : Nat) : Dev :=
  let c := d.lockCell id
  let d := if c.holderPrio < c.effPrio then d.disinherit r id c.holderPrio false false else d
  ((d.count (Ctr.abandonments r)).raise (Isl.belfry r) (Src.region r 25) 0 id).passLock r id 2

/-- WAITER entries in use by a slice, and PENDING entries. -/
def Region.waitersUsed (x : Region) : Nat := x.locks.foldl (fun n c => n + c.2.waiters.length) 0
def Region.pendsUsed (x : Region) : Nat := (x.pends.filter (fun p => decide (p.1 < 32768))).length

/-- The lowest of a slice's waiter entries that neither a PENDING entry nor a waiter holds (log entry 24). -/
def Region.freeWaiter (x : Region) : Nat :=
  firstGap ((x.locks.flatMap (fun c => c.2.waiters)).foldl (fun t w => tput t w.slot ()) (x.pends.map (fun p => (p.1, ())))) 0

/-- Waiters in descending priority, and in order of registration within one. -/
def addWaiter (w : Waiter) : List Waiter → List Waiter
  | [] => [w]
  | v :: vs => if v.prio < w.prio then w :: v :: vs else v :: addWaiter w vs

def Waiter.is (w : Waiter) (h : Hdr) : Bool := w.fen == h.srcFen && w.epi == h.srcEpi && w.pend == argPend h
def LockCell.heldBy (c : LockCell) (h : Hdr) : Bool := c.state == 1 && c.holderFen == h.srcFen && c.holderEpi == h.srcEpi

/-- A packet for a slice is of an opcode, in its class, and names a cell of the slice (R402, R409). -/
def lockOk (r : Nat) (p : Packet) (opcode : Nat) : Bool :=
  p.hdr.opcode == opcode && p.hdr.cls == (if opcode < 0x80 then 0 else 1) && p.hdr.lockId / 16384 == r

/-- LOCK_AT_CELL. -/
def Dev.lockAtCell (d : Dev) (r : Nat) (p : Packet) : Dev :=
  let h := p.hdr
  let id := h.lockId
  let c := d.lockCell id
  let w : Waiter := ⟨h.srcFen, h.srcEpi, h.lockPrio, argPend h, h.grantAddr, (d.region r).freeWaiter⟩
  if !lockOk r p 0x01 then d.count (Ctr.lockBadOpcodes r)
  else if c.state ≠ 1 then d.grantLock r id w (c.state == 2) (c.state == 3)
  else if c.waiters.any (fun v => v.is h) then d.lockAnswer r 0x82 h
  else if c.heldBy h then
    if c.holderPend = argPend h then
      d.lockSend r 0x81 h.srcFen h.srcEpi id h.lockPrio h.grantAddr (lockArgOf (argPend h) false false 0 0 c.grantSeq)
    else d.lockBusy r h 0x0A 0x0402
  else if argTry h then d.lockBusy r h 0x0A 0x0401
  else if 32768 ≤ (d.region r).waitersUsed + (d.region r).pendsUsed then d.lockBusy r h 0x0E 0x0404
  else
    let d := ((d.modLockCell id (fun c => { c with waiters := addWaiter w c.waiters })).lockAnswer r 0x82 h).count (Ctr.lockQueued r)
    if c.effPrio < w.prio then (d.modLockCell id (fun c => { c with effPrio := w.prio })).inherit r id w else d

def execLockAtCell (r : Fin 4) (pkt : Packet) (s : State) : Host.Outcome State Fault Refusal :=
  onArrival r.val pkt (fun d => d.lockAtCell r.val pkt) s

/-- UNLOCK_AT_CELL. A repeat is recognised while the cell is HELD, as R407's table has it (log entry 24). -/
def Dev.unlockAtCell (d : Dev) (r : Nat) (p : Packet) : Dev :=
  let h := p.hdr
  let id := h.lockId
  let c := d.lockCell id
  if !lockOk r p 0x02 then d.count (Ctr.lockBadOpcodes r)
  else if c.heldBy h then
    ((d.modLockCell id (fun c => { c with lastFen := h.srcFen, lastEpi := h.srcEpi, lastPend := argPend h })).lockAnswer r 0x84 h).releaseLock
      r id
  else if c.state = 1 ∧ c.lastFen = h.srcFen ∧ c.lastEpi = h.srcEpi ∧ c.lastPend = argPend h then d.lockAnswer r 0x84 h
  else d.lockBusy r h 0x0A 0x0403

/-- CANCEL (R413). -/
def Dev.cancelAtCell (d : Dev) (r : Nat) (p : Packet) : Dev :=
  let h := p.hdr
  let id := h.lockId
  let c := d.lockCell id
  if !lockOk r p 0x03 then d.count (Ctr.lockBadOpcodes r)
  else
    let d := d.lockAnswer r 0x84 h
    if c.waiters.any (fun v => v.is h) then
      (d.modLockCell id (fun c => { c with waiters := c.waiters.filter (fun v => !v.is h) })).lowerEff r id
    else if c.heldBy h && c.holderPend == argPend h then d.abandonLock r id
    else d

/-- Every held cell of a region whose holder matches is abandoned, and every matching waiter is removed (R419, R420):
the cells abandoned and the waiters removed. -/
def Dev.abandonAll (d : Dev) (r : Nat) (p : Nat → Nat → Bool) : Dev × Nat × Nat :=
  ((d.region r).locks.map (fun c => c.1)).foldl (fun (x : Dev × Nat × Nat) id =>
    let (d, held, gone) := x
    let c := d.lockCell id
    let n := (c.waiters.filter (fun w => p w.fen w.epi)).length
    let d := d.modLockCell id (fun c => { c with waiters := c.waiters.filter (fun w => !p w.fen w.epi) })
    if c.state = 1 ∧ p c.holderFen c.holderEpi then (d.abandonLock r id, held + 1, gone + n)
    else (if n = 0 then d else d.lowerEff r id, held, gone + n)) (d, 0, 0)

/-! ## The proxy slice (R402, R404, R410 to R413) -/

def Dev.modPend (d : Dev) (r k : Nat) (f : Pend → Pend) : Dev :=
  d.modRegion r (fun x => { x with pends := tmod x.pends k f })
def Dev.pend (d : Dev) (r k : Nat) : Option Pend := tget (d.region r).pends k

/-- A request of a PENDING entry that no error took goes to the lock's device, or is registered at the own crossbar port when that is
this device. -/
def Dev.sendRequest (d : Dev) (r k : Nat) (p : Pend) (opcode : Nat) : Dev :=
  if p.lost then d else
  let h : Hdr :=
    { dstFen := p.router * 16, srcFen := p.fen, cls := 0, unit := 2, opcode := opcode, srcEpi := p.epi,
      ext := lockExt p.lockId p.prio p.addr (lockArgOf k false false (b2n (p.try_ && opcode == 0x01)) 0 0) }
  if p.router = (d.region r).chip.routerId then
    if d.fenced then d else d.emit (.deliver r 60 (mkPacket { h with srcEpoch := d.epochFor r p.fen } []))
  else d.send r 60 h []

def Pend.opcode (p : Pend) : Nat := if p.state = .cancelling then 0x03 else if p.unlock then 0x02 else 0x01

/-- A PENDING entry is freed and its entry completes. An UNLOCK or LOCK that a reset abandoned is FLUSHED with its queue (08 R266). -/
def Dev.endPend (d : Dev) (r k : Nat) (f : Fin8) : Dev :=
  match d.pend r k with
  | none => d
  | some p =>
    let d := d.modRegion r (fun x => { x with pends := tdrop x.pends k, lastPends := notePast (p.past k p.flushed) x.lastPends })
    if p.flushed = 0 then d.complete p.ep p.sq p.entry f else d

/-- The 8-byte grant word is written at its pages (R410). -/
def Dev.grantWord (d : Dev) (p : Pend) (word : Nat) : Dev :=
  let bs := leBytes 8 word
  forEach (p.pas.zip (pieces 2 p.addr 8)) (fun x d =>
    let i := (x.2.1 + 2 ^ 64 - p.addr) % 2 ^ 64
    d.hostWrite p.ep x.1.2.1 ((bs.drop i).take x.2.2) false .grant) d
def wordOf (granted aband forced denied : Bool) (status id seq : Nat) : Nat :=
  pack [(b2n granted, 1), (b2n aband, 1), (b2n forced, 1), (b2n denied, 1), (0, 4), (status, 8), (id, 16), (seq, 32)]

/-- The DENIED word of a LOCK (R410). A reset of the endpoint leaves no translation to write it through, and outside RUN nothing is
written (07 R213). -/
def Dev.denyWord (d : Dev) (p : Pend) (status : Nat) : Dev :=
  if p.flushed = 2 || !d.epRuns p.ep then d else d.grantWord p (wordOf false false false true status p.lockId 0)

/-- A LOCK that completes without a grant. -/
def Dev.denyPend (d : Dev) (r k : Nat) (p : Pend) (status detail : Nat) : Dev :=
  (d.denyWord p status).endPend r k (Fin8.status' status detail)

/-- A LOCK that a reset of its queue withdrew is FLUSHED: its word, and with its queue its record (R410, R413, 08 R266). -/
def Dev.flushPend (d : Dev) (r k : Nat) (p : Pend) : Dev := d.denyPend r k { p with flushed := max 1 p.flushed } 0x0C 0

/-- An entry of a HALTED queue is parked (08 R259); a cancel is the slice's own. -/
def Dev.pendParked (d : Dev) (p : Pend) : Bool := p.state != .cancelling && (d.sq p.ep p.sq).state == .halted

/-- The first request of a PENDING entry: a LOCK's grant address is translated first. One that its queue's reset has withdrawn by then
is FLUSHED. -/
def Dev.pendTry (d : Dev) (r k : Nat) : Dev :=
  match d.pend r k with
  | none => d
  | some p =>
    if d.pendParked p then d else
    let now := d.belfryNow r
    let go (d : Dev) (ps : List (Nat × Nat × Bool)) : Dev :=
      let d := d.modPend r k (fun p => { p with pas := ps, state := .sent, since := now })
      d.sendRequest r k { p with state := .sent } (if p.unlock then 0x02 else 0x01)
    if p.unlock then go d [] else
    let q := d.sq p.ep p.sq
    match d.needPages p.ep (.grant r k) q.pasid (!q.super) .write 0 (pieces 2 p.addr 8) with
    | (d, .waiting) => d
    | (d, .fault f) => d.endPend r k (Fin8.status' 0x01 f)
    | (d, .ready ps) =>
      let d := d.useGrants p.ep (.grant r k) p.entry
      if p.flushed = 0 then go d ps else d.flushPend r k { p with pas := ps }

/-- An entry waits for a free PENDING entry: neither parked nor withdrawn. -/
def Dev.pendWaits (d : Dev) (p : Nat × Pend) : Bool := decide (32768 ≤ p.1) && p.2.flushed == 0 && !d.pendParked p.2

/-- Entries that wait for a free PENDING entry take those there are, in order. -/
def Dev.pendGo : Nat → Dev → Nat → Dev
  | 0, d, _ => d
  | n + 1, d, r =>
    let x := d.region r
    match x.pends.find? d.pendWaits with
    | none => d
    | some (k, p) =>
      if max 1 (rbits x.chip.lockCtrl 14 0) ≤ x.pendsUsed ∨ 32768 ≤ x.pendsUsed + x.waitersUsed then d else
      let slot := x.freeWaiter
      Dev.pendGo n ((d.modRegion r (fun x => { x with pends := tput (tdrop x.pends k) slot p, lastPends := x.lastPends.filter (fun m => !(p.past slot 0).same m) })).pendTry r slot) r

/-- Every entry that waits is served as far as entries are free (R404). -/
def Dev.pendServe (d : Dev) (r : Nat) : Dev := Dev.pendGo (d.region r).pends.length d r

/-- The FENs of this device under which an endpoint has taken locks: its own, and the twin's that TWIN_MAP gives it (15 R469).
DESIGN CHOICE: the latter also when ALT_VALID is 0 again; the lock's cell does not say who took it (log entry 24). -/
def Dev.ownFens (d : Dev) (e : Nat) : List Nat :=
  let c := (d.region (regionOf e)).chip
  fenOf c.routerId e :: ((List.range 16).filter (fun t => d.twin.mapped t == some e)).map (fun t => fenOf c.altRouterId t)

/-- R419: an event of an endpoint of this device reaches the cells of its own device. -/
def Dev.abandonLocal (d : Dev) (e : Nat) (epi : Option Nat) : Dev :=
  let fens := d.ownFens e
  forEach allRegions (fun r d =>
    (d.abandonAll r (fun f i => fens.contains f && (match epi with
      | some k => k == i
      | none => true))).1.pendServe r) d

/-- UNLOCK_AT_CELL and CANCEL as commands: a waiter entry that they free may become a PENDING entry (R404). -/
def execUnlockAtCell (r : Fin 4) (pkt : Packet) (s : State) : Host.Outcome State Fault Refusal :=
  onArrival r.val pkt (fun d => (d.unlockAtCell r.val pkt).pendServe r.val) s

def execCancel (r : Fin 4) (pkt : Packet) (s : State) : Host.Outcome State Fault Refusal :=
  onArrival r.val pkt (fun d => (d.cancelAtCell r.val pkt).pendServe r.val) s

/-- A LOCK or UNLOCK entry reaches its proxy slice. -/
def Dev.postLock (d : Dev) (e q entry : Nat) (b : List Byte) (unlock : Bool) : Dev :=
  let id := field b 24 2
  let r := id / 16384
  let k := 32768 + d.nextId
  let p : Pend :=
    { ep := e, sq := q, entry := entry, unlock := unlock, try_ := !unlock && bit (entFlags b) 0,
      prio := if unlock then 0 else byteAt b 26,
      fen := d.localFen e, epi := q / 2, router := fenRouter (bits (entDest b) 17 0), lockId := id,
      addr := if unlock then 0 else field b 16 8, pas := [],
      state := .waiting, repeats := 0, since := 0, unanswered := false, flushed := 0, lost := false }
  let d := (d.takeId.modRegion r (fun x => { x with pends := tput x.pends k p })).pendServe r
  if (d.pend r k).isSome then d.count (Ctr.pendWaits r) else d

/-! ## Repeats, probes and cancels (R412, R413) -/

/-- The entry becomes CANCELLING and sends its first CANCEL. -/
def Dev.startCancel (d : Dev) (r k flushed : Nat) : Dev :=
  match d.pend r k with
  | none => d
  | some p =>
    let now := d.belfryNow r
    let d := d.modPend r k (fun p => { p with state := .cancelling, repeats := 0, since := now, flushed := max p.flushed flushed })
    if p.lost then d else (d.sendRequest r k p 0x03).count (Ctr.lockCancels r)

/-- An entry that its queue's reset withdrew, and that completes with a TIMEOUT all the same (R413). -/
def Dev.timeoutPend (d : Dev) (r k : Nat) (p : Pend) (detail : Nat) : Dev :=
  let f := Fin8.status' 0x07 detail
  let d := if p.unlock then d.endPend r k f else d.denyPend r k p 0x07 detail
  (if p.flushed = 1 then d.complete p.ep p.sq p.entry f else d).pendServe r

/-- The repeats of an entry have run out. -/
def Dev.pendOut (d : Dev) (r k : Nat) (p : Pend) : Dev :=
  if p.state = .cancelling then d.timeoutPend r k p 0x0406
  else if p.unlock then d.timeoutPend r k p 0x0405
  else d.startCancel r k 0

/-- LOCK_REPEAT_TIMEOUT. On a FENCED device an entry whose request falls due sends nothing and completes (15 R473). -/
def Dev.lockRepeat (d : Dev) (r k : Nat) : Dev :=
  match d.pend r k with
  | none => d
  | some p =>
    let now := d.belfryNow r
    let c := (d.region r).chip
    if (p.state != .sent && p.state != .cancelling) || decide (now < p.since + c.msgTimeout) || d.pendParked p then d
    else if d.fenced then d.timeoutPend r k p 0x0501
    else if p.repeats < c.maxRetries then
      let d := (d.modPend r k (fun p => { p with repeats := p.repeats + 1, since := now })).sendRequest r k p p.opcode
      if p.lost then d else
      let d := d.count (Ctr.lockRepeats r)
      if p.state = .cancelling then d.count (Ctr.lockCancels r) else d
    else d.pendOut r k p

/-- PROBE of LOCK_CTRL in ns (R423). -/
def ChipRegs.probe (c : ChipRegs) : Nat := 1000 * max 100 (rbits c.lockCtrl 31 16)

/-- LOCK_PROBE: an unanswered probe counts as a timeout. FENCED as in LOCK_REPEAT_TIMEOUT. -/
def Dev.lockProbe (d : Dev) (r k : Nat) : Dev :=
  match d.pend r k with
  | none => d
  | some p =>
    let now := d.belfryNow r
    let c := (d.region r).chip
    let n := p.repeats + b2n p.unanswered
    if p.state != .queued || decide (now < p.since + c.probe) || d.pendParked p then d
    else if d.fenced then d.timeoutPend r k p 0x0501
    else if p.unanswered && decide (c.maxRetries < n) then d.startCancel r k 0
    else
      let d := d.modPend r k (fun p => { p with repeats := n, unanswered := true, since := now })
      if p.lost then d else (d.sendRequest r k p 0x01).count (Ctr.lockRepeats r)

/-! ## Responses -/

/-- A response that meets no entry that takes it: by the reset that abandoned its entry (08 R265, 07 R224), and otherwise
late. -/
def Dev.lateLock (d : Dev) (r : Nat) (h : Hdr) (flushed : Nat) : Dev :=
  let e := d.targetEp r h
  match flushed with
  | 0 => d.count (Ctr.lateLockResponses r)
  | 1 => d.count (Ctr.staleResponses e)
  | _ => d.count (Ctr.respDiscards e)

/-- How the PENDING entry that a response names ended. -/
def Region.pastPend (x : Region) (h : Hdr) : Nat :=
  match x.lastPends.find? (fun m => m.same ⟨argPend h, h.dstFen, h.srcEpi, fenRouter h.srcFen, h.lockId, 0⟩) with
  | some m => m.how
  | none => 0

/-- A response to a PENDING entry: its form (R409), 07 R224, the timers that have ended (00 R14), and the entry it matches.
The answer to a CANCEL ends the slice's own entry, whatever the endpoint's state; for an endpoint outside RUN, or for a LOCK of before its
last reset, it counts as discarded, and the endpoint sees nothing of it (log entry 25). -/
def Dev.lockResponse (d : Dev) (r : Nat) (p : Packet) (opcode : Nat) (go : Dev → Nat → Pend → Dev) : Dev :=
  let h := p.hdr
  if !lockOk r p opcode then d.count (Ctr.lockBadOpcodes r) else
  let d := (d.lockRepeat r (argPend h)).lockProbe r (argPend h)
  match d.pend r (argPend h) with
  | some q =>
    let mine := q.fen == h.dstFen && q.epi == h.srcEpi && q.router == fenRouter h.srcFen && q.lockId == h.lockId && q.state != .waiting && !q.lost
    if mine && q.state == .cancelling then
      if opcode = 0x84 then go (if q.flushed = 2 || !d.targetUp r h then d.count (Ctr.respDiscards (d.targetEp r h)) else d) (argPend h) q
      else if !d.targetUp r h then d.count (Ctr.respDiscards (d.targetEp r h))
      else d.lateLock r h q.flushed
    else if !d.targetUp r h then d.count (Ctr.respDiscards (d.targetEp r h))
    else if mine && (d.sq q.ep q.sq).state != .halted then (go d (argPend h) q).pendServe r
    else d.lateLock r h ((d.region r).pastPend h)
  | none =>
    if !d.targetUp r h then d.count (Ctr.respDiscards (d.targetEp r h)) else d.lateLock r h ((d.region r).pastPend h)

/-- GRANT_RECEIVED. -/
def Dev.grantReceived (d : Dev) (r : Nat) (p : Packet) : Dev :=
  d.lockResponse r p 0x81 (fun d k q =>
    if q.unlock then d.count (Ctr.lateLockResponses r) else
    let word := wordOf true (bit p.hdr.lockArg 16) (bit p.hdr.lockArg 17) false 0 q.lockId (argGrantSeq p.hdr)
    (d.grantWord q word).endPend r k (Fin8.ok 8))

def execGrantReceived (r : Fin 4) (pkt : Packet) (s : State) : Host.Outcome State Fault Refusal :=
  onArrival r.val pkt (fun d => d.grantReceived r.val pkt) s

/-- QUEUED_RECEIVED: the entry is QUEUED, and an answered probe is no timeout. -/
def Dev.queuedReceived (d : Dev) (r : Nat) (p : Packet) : Dev :=
  d.lockResponse r p 0x82 (fun d k q =>
    if q.unlock then d.count (Ctr.lateLockResponses r) else
    let now := d.belfryNow r
    d.modPend r k (fun q =>
      { q with state := .queued, since := if q.state = .queued then q.since else now, repeats := 0, unanswered := false }))

def execQueuedReceived (r : Fin 4) (pkt : Packet) (s : State) : Host.Outcome State Fault Refusal :=
  onArrival r.val pkt (fun d => d.queuedReceived r.val pkt) s

/-- BUSY_RECEIVED. -/
def Dev.busyReceived (d : Dev) (r : Nat) (p : Packet) : Dev :=
  d.lockResponse r p 0x83 (fun d k q =>
    if q.unlock then d.endPend r k (Fin8.status' (argStatus p.hdr) (argDetail p.hdr))
    else d.denyPend r k q (argStatus p.hdr) (argDetail p.hdr))

def execBusyReceived (r : Fin 4) (pkt : Packet) (s : State) : Host.Outcome State Fault Refusal :=
  onArrival r.val pkt (fun d => d.busyReceived r.val pkt) s

/-- UNLOCK_DONE_RECEIVED: an UNLOCK is done, or a CANCEL is answered. -/
def Dev.unlockDone (d : Dev) (r : Nat) (p : Packet) : Dev :=
  d.lockResponse r p 0x84 (fun d k q =>
    if q.state = .cancelling then (if q.flushed = 0 then d.denyPend r k q 0x07 0 else d.flushPend r k q).pendServe r
    else if q.unlock then d.endPend r k (Fin8.ok 0)
    else d.count (Ctr.lateLockResponses r))

def execUnlockDoneReceived (r : Fin 4) (pkt : Packet) (s : State) : Host.Outcome State Fault Refusal :=
  onArrival r.val pkt (fun d => d.unlockDone r.val pkt) s

/-- INHERIT and DISINHERIT become records of the holder's event queue (R415, R416). -/
def Dev.inheritRecord (d : Dev) (r : Nat) (p : Packet) (opcode kind : Nat) : Dev :=
  let h := p.hdr
  if !lockOk r p opcode then d.count (Ctr.lockBadOpcodes r)
  else if !d.targetUp r h then d.count (Ctr.respDiscards (d.targetEp r h))
  else
    let a := leBytes 12 h.lockArg
    d.eqRecord (d.targetEp r h) h.srcEpi
      (leBytes 1 kind ++ sliceBytes a 1 3 ++ leBytes 2 h.lockId ++ leBytes 2 (fenRouter h.srcFen) ++ sliceBytes a 4 8 ++
        leBytes 8 h.grantAddr ++ zeros 7) true

def execInheritReceived (r : Fin 4) (pkt : Packet) (s : State) : Host.Outcome State Fault Refusal :=
  onArrival r.val pkt (fun d => d.inheritRecord r.val pkt 0x85 0x02) s

def execDisinheritReceived (r : Fin 4) (pkt : Packet) (s : State) : Host.Outcome State Fault Refusal :=
  onArrival r.val pkt (fun d => d.inheritRecord r.val pkt 0x86 0x03) s

/-! ## The timers as commands, and resets (R412, R413) -/

def execLockRepeatTimeout (r : Fin 4) (pend : Nat) (s : State) : Host.Outcome State Fault Refusal :=
  actIf (fun d => d.regionRuns r.val) (fun d => d.lockRepeat r.val pend) s

def execLockProbe (r : Fin 4) (pend : Nat) (s : State) : Host.Outcome State Fault Refusal :=
  actIf (fun d => d.regionRuns r.val) (fun d => d.lockProbe r.val pend) s

/-- A reset of a queue or of an endpoint (R413): its LOCKs that were sent are cancelled. Of those not sent, a queue's reset denies each
once its grant address is translated, and the rest are dropped. -/
def Dev.cancelPends (d : Dev) (e : Nat) (sq : Option Nat) : Dev :=
  forEach allRegions (fun r d =>
    let ks := ((d.region r).pends.filter (fun p => p.2.ep == e && (match sq with
      | some q => p.2.sq == q
      | none => true))).map (fun p => p.1)
    let d := forEach ks (fun k d =>
      match d.pend r k with
      | none => d
      | some p =>
        let f := if sq.isSome then 1 else 2
        if p.state = .waiting then
          if f = 1 && !p.unlock && d.epRuns e then (d.modPend r k (fun p => { p with flushed := 1 })).pendTry r k
          else (d.modRegion r (fun x => { x with pends := tdrop x.pends k })).forsake e (· == .grant r k)
        else if p.unlock then (d.modPend r k (fun p => { p with flushed := f })).endPend r k (Fin8.ok 0)
        else if p.state = .cancelling then d.modPend r k (fun p => { p with flushed := max p.flushed f })
        else d.startCancel r k f) d
    d.pendServe r) d

end Sys2Proof.Machine
end

