-- ==== Sys2Proof/Machine/Command.lean ====
section
/-! DEFINITION. The Ocmiset command protocol (14 R425 to R447): the Warden's intake and arbiter, the checks of R427 and
R558, replies and INTERIMs on the three paths, and the CMD entries of gates. -/

namespace Sys2Proof.Machine

/-! ## WARDEN_CTRL (14 R458), times in ns -/

def Warden.cmdTimeout (w : Warden) : Nat := 1000000 * max 1 (rbits w.ctrl 15 0)
def Warden.interimPeriod (w : Warden) : Nat := 1000 * max 100 (rbits w.ctrl 31 16)
def Warden.inbandEn (w : Warden) : Bool := rbit w.ctrl 32
def Warden.cagePgWait (w : Warden) : Nat := 1000000 * clamp 1 1000 (rbits w.ctrl 42 33)

/-! ## Requests -/

def Request.opcode (q : Request) : Nat := Ocm.opcode q.bytes
def Request.tag (q : Request) : Nat := Ocm.tag q.bytes
def Request.params (q : Request) : List Byte := Ocm.params q.bytes
def Request.index (q : Request) : Nat := Ocm.index q.bytes
def Request.level (q : Request) : Nat := Ocm.level q.bytes
def Request.replyMax (q : Request) : Nat := Ocm.replyMax q.bytes
def Request.is (q : Request) (path : Path) (tag : Nat) : Bool := q.path == path && q.tag == tag

/-- The opcode's row marks it detached (R459). -/
def detachedOp (op : Nat) : Bool :=
  match Ocm.row op with
  | some r => r.detached
  | none => false

/-- Checks 1 to 3 of R427: the status of the first that fails. -/
def Request.malformed (q : Request) : Option Nat :=
  if !Ocm.goodFrame q.bytes then some Ocm.badFrame else
  match Ocm.row q.opcode with
  | none => some Ocm.unknownOpcode
  | some r => if Ocm.targetOk r q.level q.index then none else some Ocm.wrongTarget

/-- The intake source of a request (R443). -/
def Request.source (q : Request) : Nat :=
  match q.path with
  | .gate e _ => e
  | .inband _ _ => 16 + q.region
  | .bellrope => 20

/-! ## Replies (R426, R433, R435, R437) -/

/-- A router that sends back along a DIRECTED request's hops (R435). -/
def Hdr.reversed (h : Hdr) : Nat :=
  (List.range h.dirLen).foldl (fun s k => putBits s (7 * k + 6) (7 * k) (h.hop (h.dirLen - 1 - k))) 0

/-- The header of a WARDEN packet that answers one (R435). -/
def Hdr.wardenAnswer (h : Hdr) (type : Nat) : Hdr :=
  let a : Hdr := { dstFen := h.srcFen, srcFen := h.dstFen, cls := 4, unit := 3, opcode := type, dstEpi := h.srcEpi }
  if h.mode = 2 then { a with mode := 2, interGroup := h.dirLen, laSet := Hdr.reversed h } else a

/-- The accepted entry of a CMD. -/
def Dev.cmdEntry (d : Dev) (e q entry : Nat) : List Byte :=
  match (d.sq e q).entry entry with
  | some a => a.bytes
  | none => []

/-- A CMD whose reply packet is written completes (R433). -/
def Dev.endCmd (d : Dev) (e q entry : Nat) : Dev :=
  match (d.sq e q).cmds.find? (fun c => c.entry == entry) with
  | none => d
  | some c =>
    match c.status with
    | none => d
    | some st =>
      if c.writing ≠ 0 then d else
      let d := d.modSq e q (fun s => { s with cmds := s.cmds.filter (fun c => c.entry != entry) })
      match c.fault with
      | some k => d.complete e q entry ⟨1, c.written, 0, 0, k⟩
      | none => d.complete e q entry ⟨0, c.written, 0, 0, st⟩

/-- The final reply of a CMD arrives: it releases the queue of a detached command, another releases it as it completes (R434); the whole packet is written at REPLY_ADDR, up to REPLY_MAX bytes (R433). -/
def Dev.cmdFinal (d : Dev) (e q entry : Nat) (pkt : List Byte) : Dev :=
  let b := d.cmdEntry e q entry
  let s := d.sq e q
  let d := d.modCmd e q entry (fun c =>
    { c with status := some (Ocm.status pkt), released := c.released || detachedOp (Ocm.opcode pkt) })
  (d.placeAll e s.pasid (!s.super) (field b 24 8) (pkt.take (field b 36 4)) 0 .reply (.reply q entry) none).endCmd e q entry

/-- The CMD of a queue that a reply's TAG names and that has no final reply. -/
def Sq.cmdOf (s : Sq) (tag : Nat) : Option Cmd := s.cmds.find? (fun c => c.passed && c.tag == tag && c.status.isNone)

/-- A REPLY or INTERIM reaches the queue of its CMD; the first of any type releases a detached command's queue
(R434). One for an entry that a reset abandoned, or for an endpoint outside RUN, is discarded (08 R265, 07 R224,
R447); one for a HALTED queue finds its entry parked (08 R259). -/
def Dev.cmdAnswer (d : Dev) (e q tag type orphan : Nat) (pkt : List Byte) : Dev :=
  if orphan = 1 then d.count (Ctr.staleResponses e)
  else if orphan = 2 || !d.epRuns e then d.count (Ctr.respDiscards e)
  else if (d.sq e q).state = .halted then d
  else match (d.sq e q).cmdOf tag with
  | none => d.count (Ctr.staleResponses e)
  | some c =>
    if type = 2 then d.cmdFinal e q c.entry pkt
    else if detachedOp (Ocm.opcode pkt) then d.modCmd e q c.entry (fun c => { c with released := true })
    else d

/-- A REPLY (type 2) or an INTERIM (type 3) leaves on its request's path. -/
def Dev.sendReply (d : Dev) (q : Request) (type status : Nat) (params : List Byte) : Dev :=
  let pkt := Ocm.build type status q.opcode q.tag (Ocm.target q.bytes) 0 params
  let d := d.emit (.reply q.path pkt)
  match q.path with
  | .gate e n => d.cmdAnswer e n q.tag type q.orphan pkt
  | .inband _ _ =>
    match q.hdr with
    | some h => d.send q.region 63 (Hdr.wardenAnswer h type) pkt
    | none => d
  | .bellrope =>
    if d.lantern.rope = .waiting (some q.tag) then
      d.modLantern (fun l => { l with rope := .answer (leBytes 2 pkt.length ++ pkt) })
    else d

/-- The pairs of regions of CLOCK_STATUS.BUTTRESS, in its bit order (R457). -/
def regionPairs : List (Nat × Nat) := [(0, 1), (0, 2), (0, 3), (1, 2), (1, 3), (2, 3)]

/-- CLOCK_STATUS (R457). -/
def Warden.clockStatus (w : Warden) : Nat :=
  pack [(w.belfry, 4), (w.hbm, 4), (w.buttress, 6), (b2n w.pll, 1), (b2n w.done, 1), (0, 16), (ofSigned 32 w.nref, 32)]

/-- The 16-byte reply of CLOCK_SWITCH (R455): CLOCK_STATUS and CLOCK_ENGINES. -/
def Warden.clockReply (w : Warden) : List Byte := leBytes 8 w.clockStatus ++ leBytes 8 w.engines

/-- In P2 and P3 the Lantern domain serves Bellrope (R438). -/
def Dev.lanternServes (d : Dev) : Bool := d.lanternRuns && decide (2 ≤ d.lantern.state)

/-- The parameters of a final reply. CLOCK_SWITCH has its 16 bytes on every status (R455) that the Warden itself answers a whole frame
with and that REPLY_MAX admits (log entry 38). -/
def Dev.replyParams (d : Dev) (q : Request) (status : Nat) (params : List Byte) : List Byte :=
  if q.opcode = 0x0E20 ∧ status ≠ Ocm.badFrame ∧ !d.lanternServes ∧ 16 ≤ q.replyMax then d.warden.clockReply else params

/-- A final reply, with what R460 counts of it. -/
def Dev.finalReply (d : Dev) (q : Request) (status : Nat) (params : List Byte) : Dev :=
  let params := d.replyParams q status params
  let d := if status = Ocm.badFrame then d.count Ctr.badFrames
    else if status = Ocm.notAuthorised then d.count Ctr.authRefusals
    else if status = Ocm.badSignature then (d.count Ctr.sigFails).raise Isl.warden (Src.chip 7) 0 0 else d
  d.sendReply q 2 status params

/-! ## The intake and its arbiter (R429, R443, R444) -/

/-- The Warden takes a command: its firmware runs and no entry to P2 or P3 is committed (16 R495, 17 R512). A CAGE_SET from Bellrope is
taken before gate bring-up as well: R453 gives its answer (log entry 23). -/
def Dev.wardenServes (d : Dev) (q : Request) : Bool :=
  d.wardenRuns && (d.gatesRun || q.opcode == 0x0E10) && d.lantern.entering.isNone

/-- Commands of a path that execute, and those of them that are detached. -/
def Warden.running (w : Warden) (path : Path) : List Exec := w.executing.filter (fun x => x.req.path == path)
def Warden.detachedOf (w : Warden) (path : Path) : Nat := ((w.running path).filter (fun x => x.detached)).length

/-- A waiting request may start (R443, R444): it is the earliest of its path, its path is free, and places are. -/
def Dev.mayStart (d : Dev) (q : Request) : Bool :=
  let w := d.warden
  (if d.lanternServes then q.path == .bellrope else d.wardenServes q) &&
    (w.intake.find? (fun x => x.path == q.path) == some q) &&
    (w.running q.path).all (fun x => x.detached) && decide (w.executing.length < 32) &&
    (!detachedOp q.opcode || (decide (w.detachedOf q.path < 8) &&
      decide ((w.executing.filter (fun x => x.detached)).length < 16)))

/-- The request that the Warden starts next, and the pointer afterwards (R443). -/
def Dev.nextStart (d : Dev) : Option (Request × Nat) :=
  let rs := d.warden.intake.filter d.mayStart
  match arbitrate 21 d.warden.intakePtr
      (rs.map (fun q => ⟨q.source, b2n (q.path == .bellrope), q.stamp⟩)) with
  | none => none
  | some (pos, ptr) => (minBy (fun q => q.stamp) (rs.filter (fun q => q.source == pos))).map (fun q => (q, ptr))

/-- The request leaves the intake. -/
def Dev.leaveIntake (d : Dev) (q : Request) (ptr : Nat) : Dev :=
  d.modWarden (fun w => { w with intake := w.intake.erase q, intakePtr := ptr })

/-- Requests that fail checks 1 to 3 are answered in their turn: no row of the opcode table names them. -/
def Dev.answerBad : Nat → Dev → Dev
  | 0, d => d
  | n + 1, d =>
    match d.nextStart with
    | none => d
    | some (q, ptr) =>
      match q.malformed with
      | none => d
      | some st => Dev.answerBad n ((d.leaveIntake q ptr).finalReply q st [])

/-- A command of the path with the tag waits or executes (R429). -/
def Warden.knows (w : Warden) (path : Path) (tag : Nat) : Bool :=
  w.intake.any (fun q => q.is path tag) || w.executing.any (fun x => x.req.is path tag)

/-- A request that a stopped Warden loses is counted where it came from (01 R34): in the region of the gate or of the crossbar
port, and for Bellrope in the chip. -/
def Dev.lostRequest (d : Dev) (q : Request) : Dev :=
  match q.path with
  | .gate e _ => d.crossingDrop (regionOf e)
  | .inband _ _ => d.crossingDrop q.region
  | .bellrope => d.count Ctr.chipCrossingDrops

/-- A request reaches the intake (R429, R443). One that reaches a Warden that does not run is lost (01 R34). -/
def Dev.register (d : Dev) (q : Request) : Dev :=
  if !(d.wardenRuns || (d.lanternServes && q.path == .bellrope)) then d.lostRequest q
  else if d.warden.knows q.path q.tag then d.count Ctr.cmdDupTags
  else
    let n := d.warden.intake.length
    let others := (d.warden.intake.filter (fun x => x.path != .bellrope)).length
    if 256 ≤ n ∨ (q.path ≠ .bellrope ∧ 252 ≤ others) then (d.count Ctr.cmdIntakeDrops).raise Isl.warden (Src.chip 6) 0 0
    else
      let d := (d.count Ctr.cmdsReceived).modWarden (fun w => { w with intake := w.intake ++ [q] })
      d.answerBad 256

/-! ## Authority (R439 to R441) -/

/-- The range of a register command touches MGMT_TRUST (R440, R448). -/
def touchesTrust (addr count : Nat) : Bool :=
  bits addr 35 32 == 1 && decide (bits addr 31 0 < 0x280 ∧ 0x200 < bits addr 31 0 + 8 * count)

/-- The authority that a command needs: 0 READ, 1 CONTROL, 2 SIGNED (R459). -/
def Request.needs (q : Request) (r : Ocm.Row) : Nat :=
  if q.opcode = 0x0E02 then (if touchesTrust (field q.params 0 8) (field q.params 8 2) then 2 else r.auth)
  else if q.opcode = 0x0E03 then (if touchesTrust (field q.params 0 8) 1 then 2 else r.auth)
  else if q.opcode = 0x0E08 then (if bit (byteAt q.params 6) 0 then 1 else 0)
  else r.auth

/-- A valid MGMT_TRUST entry names the router (R440). -/
def Dev.trusts (d : Dev) (router : Nat) : Bool :=
  d.warden.trust.any (fun t => rbit t.2 14 && rbits t.2 13 0 == router)

/-- The authority that a request's path grants (R439). -/
def Dev.pathAuth (d : Dev) (q : Request) : Nat :=
  match q.path with
  | .gate e _ => b2n (d.priv e)
  | .inband fen _ => b2n (d.warden.inbandEn && d.trusts (fenRouter fen))
  | .bellrope => 1

/-- Live nonces, judged in the Warden island (R442). -/
def Dev.liveNonces (d : Dev) : List (Nat × Nat) := d.warden.nonces.filter (fun n => decide (d.wardenNow < n.2))

/-- The message that a signature covers (R441). -/
def signedMessage (b : List Byte) : List Byte :=
  putBytes (b.take (16 + Ocm.paramLen b + 14)) 12 (zeros 4) ++ leBytes 6 Config.serial.toNat

/-- A signature is valid (R441). -/
def Dev.goodSignature (d : Dev) (b : List Byte) : Bool :=
  let t := sliceBytes b (16 + Ocm.paramLen b) 128
  !d.boot.ownerKey.isEmpty && d.liveNonces.any (fun n => n.1 == field t 0 8) &&
    Config.ed448Verify d.boot.ownerKey (signedMessage b) (sliceBytes t 14 114)

/-- A signed request consumes the nonce it names (R441). -/
def Dev.consumeNonce (d : Dev) (b : List Byte) : Dev :=
  if !Ocm.signed b then d else
  d.modWarden (fun w => { w with nonces := w.nonces.filter (fun n => n.1 != field b (16 + Ocm.paramLen b) 8) })

/-! ## Checks 4 to 8 of R427 -/

/-- How a command goes on from its own checks: it completes, or it executes beyond this step. -/
inductive Answer where
  | done (status : Nat) (params : List Byte)
  | runs (a b : Nat) (data : List Byte)
  deriving DecidableEq, Repr

/-- What the owning chapter says of a command: the PARAM_LEN its parameters call for, the bit ranges that are 0
(R558), whether its count and length parameters are in range, its reply length (R427), and when its target is
down. -/
structure Form where
  opcode : Nat
  len : List Byte → Nat
  zero : List (Nat × Nat)
  ranged : List Byte → Bool
  replyLen : List Byte → Nat
  down : Dev → Request → Bool

/-- A command with parameters of one length and a reply of one length. -/
def Form.fixed (opcode len : Nat) (zero : List (Nat × Nat)) (reply : Nat) : Form :=
  ⟨opcode, fun _ => len, zero, fun _ => true, fun _ => reply, fun _ _ => false⟩

/-- R558: the length, and the bits that are 0. -/
def Form.fits (f : Form) (p : List Byte) : Bool :=
  p.length == f.len p && f.zero.all (fun z => bits (leNat p) z.2 z.1 == 0)

/-- The commands served in recovery (17 R515). -/
def recoveryOps : List Nat := [0x0E00, 0x0E01, 0x0E04, 0x1101, 0x1102, 0x1103, 0x1104, 0x1111, 0x1120]

/-- The commands the Lantern domain serves in P2 and P3 (14 R438, 16 R509): a SEND_PATTERN is answered with WRONG_STATE
there. IDENT lies at offset 0 of either space (R448, 07 R202). -/
def Request.lanternServed (q : Request) : Bool :=
  let p := q.params
  q.opcode == 0x0E00 || q.opcode == 0x1002 || q.opcode == 0x1003 ||
    (q.opcode == 0x0E01 && bits (field p 0 8) 63 40 == 0 && decide (bits (field p 0 8) 35 32 ≤ 1) &&
      decide (bits (field p 0 8) 31 0 + 8 * field p 8 2 ≤ 16))

/-- A region that does not run, or is in drain or reset (15 R484), as a target of its own level, of a port block or of a lane. -/
def Dev.regionDown (d : Dev) (r : Nat) : Bool :=
  !d.regionRuns r || (d.region r).state == .draining || (d.region r).state == .drained

/-- An engine block whose islands do not run or that is in reset (15 R481), as a target or as the place of one of its engines: the
units of a region in drain run (15 R484; log entry 22). -/
def Dev.engineDown (d : Dev) (b : Nat) : Bool := !d.regionRuns (b / 16) || !d.blockRuns b || (d.block b).state == .resetting

/-- A target of any level (R428) is down. -/
def Dev.placeDown (d : Dev) (q : Request) : Bool :=
  let i := q.index
  match q.level with
  | 0 => false
  | 1 => d.regionDown i
  | 2 => if i < 64 then d.engineDown i else d.regionDown ((i - 64) / 8)
  | _ => if i < 1024 then d.engineDown (i / 16) else d.regionDown ((i - 1024) / 288)

/-- Check 6 of R427. -/
def Dev.targetDown (d : Dev) (f : Form) (q : Request) : Bool :=
  if d.lanternServes then !q.lanternServed
  else (d.boot.recovery && !recoveryOps.contains q.opcode) || f.down d q

/-- Checks 4 to 8 up to the owning chapter's own: the status of the first that fails. -/
def Dev.judge (d : Dev) (f : Form) (q : Request) : Option Nat :=
  let signed := Ocm.signed q.bytes
  if signed && !d.goodSignature q.bytes then some Ocm.badSignature
  else if (match Ocm.row q.opcode with
      | some r => decide ((if signed then 2 else d.pathAuth q) < q.needs r)
      | none => true) then some Ocm.notAuthorised
  else if d.targetDown f q then some Ocm.targetDown
  else if f.fits q.params && f.ranged q.params && decide (q.replyMax < f.replyLen q.params) then some Ocm.replyTooLarge
  else if !f.fits q.params then some Ocm.invalidParameter
  else none

/-! ## Running a command -/

/-- The command that executes on a path under a tag. -/
def Warden.exec (w : Warden) (path : Path) (tag : Nat) : Option Exec := w.executing.find? (fun x => x.req.is path tag)

def Dev.modExec (d : Dev) (path : Path) (tag : Nat) (f : Exec → Exec) : Dev :=
  d.modWarden (fun w => { w with executing := modWhere (fun x => x.req.is path tag) f w.executing })

/-- An executing command completes: its final reply, and the requests that its path or place held up. -/
def Dev.finish (d : Dev) (path : Path) (tag status : Nat) (params : List Byte) : Dev :=
  match d.warden.exec path tag with
  | none => d
  | some x =>
    let d := d.modWarden (fun w => { w with executing := w.executing.filter (fun x => !x.req.is path tag) })
    (d.finalReply x.req status params).answerBad 256

/-- The command is a place of the execution list. -/
def Dev.begin (d : Dev) (q : Request) (ptr : Nat) : Dev :=
  let now := d.wardenNow
  (d.leaveIntake q ptr).modWarden (fun w =>
    { w with executing := w.executing ++ [⟨q, q.opcode, detachedOp q.opcode, now, 0, 0, 0, [], false⟩] })

/-- The command of a path and tag, if the Warden starts it next and its opcode is the form's. -/
def Dev.startable (d : Dev) (f : Form) (path : Path) (tag : Nat) : Option (Request × Nat) :=
  match d.nextStart with
  | some (q, ptr) => if q.is path tag ∧ q.opcode = f.opcode ∧ q.malformed.isNone then some (q, ptr) else none
  | none => none

/-- A command's own work answered, or goes on: its final reply, or what it holds between its steps; and the requests that waited behind
its path. -/
def State.settle (path : Path) (tag : Nat) (r : State × Answer) : State :=
  match r with
  | (s, .done st params) => { s with dev := s.dev.finish path tag st params }
  | (s, .runs a b data) =>
    { s with dev := (s.dev.modExec path tag (fun x => { x with a := a, b := b, data := data })).answerBad 256 }

/-- A command starts (R427, R443): the checks, then its own body, and its final reply unless it goes on executing. -/
def State.startCommand (s : State) (f : Form) (path : Path) (tag : Nat) (body : State → Request → State × Answer) :
    State :=
  match s.dev.startable f path tag with
  | none => s
  | some (q, ptr) =>
    let verdict := s.dev.judge f q
    let s := { s with dev := (s.dev.begin q ptr).consumeNonce q.bytes }
    match verdict with
    | some st => { s with dev := s.dev.finish path tag st [] }
    | none => State.settle path tag (body s q)

/-- A command that its owning chapter runs in several steps: the row that starts it does the first, and each further row of it the next
(log entry 48). -/
def State.stepCommand (s : State) (f : Form) (path : Path) (tag : Nat) (body : State → Request → State × Answer)
    (next : State → Exec → State × Answer) : State :=
  match s.dev.warden.exec path tag with
  | some x => if x.opcode = f.opcode ∧ s.dev.wardenRuns then State.settle path tag (next s x) else s
  | none => s.startCommand f path tag body

/-- A command whose effect is on the device alone. -/
def command (f : Form) (path : Path) (tag : Nat) (body : Dev → Request → Dev × Answer) (s : State) :
    Host.Outcome State Fault Refusal :=
  .next (s.startCommand f path tag (fun s q => let r := body s.dev q; ({ s with dev := r.1 }, r.2)))

/-- One of several rows that share an opcode: it starts the command only when the request is its own. -/
def commandIf (own : Request → Bool) (f : Form) (path : Path) (tag : Nat) (body : Dev → Request → Dev × Answer) (s : State) :
    Host.Outcome State Fault Refusal :=
  if (match s.dev.nextStart with
      | some (q, _) => own q
      | none => false)
  then command f path tag body s
  else .next s

/-- A command that only reads. -/
def reading (f : Form) (path : Path) (tag : Nat) (body : Dev → Request → Answer) (s : State) :
    Host.Outcome State Fault Refusal :=
  command f path tag (fun d q => (d, body d q)) s

end Sys2Proof.Machine
end

