-- ==== Sys2Proof/Machine/Calls.lean ====
section
/-! DEFINITION. Requests of this device to others (14 R433 to R436): a CMD passed on, MGMT_FORWARD, replies that arrive
in-band, and the timeouts of both; and the arrival of in-band requests (R435). -/

namespace Sys2Proof.Machine

/-! ## Calls -/

def Dev.addCall (d : Dev) (c : Outstanding) : Dev := d.modWarden (fun w => { w with calls := w.calls ++ [c] })
def Dev.dropCall (d : Dev) (id : Nat) : Dev :=
  d.modWarden (fun w => { w with calls := w.calls.filter (fun c => c.id != id) })
def Dev.modCall (d : Dev) (id : Nat) (f : Outstanding → Outstanding) : Dev :=
  d.modWarden (fun w => { w with calls := modWhere (fun c => c.id == id) f w.calls })

/-- The clock that times a call: the gate's for a CMD, the Warden's for MGMT_FORWARD. -/
def Dev.callNow (d : Dev) (c : Outstanding) : Nat := if c.forward.isSome then d.wardenNow else d.gateNow c.ep

/-- A command is local (R433): its router is local under 05 R144, or routers have no IDs yet and it is 0. -/
def Dev.localRouter (d : Dev) (r router : Nat) : Bool :=
  let c := d.chipSeen r
  if c.idValid then router == c.routerId || (c.altValid && router == c.altRouterId) else router == 0

/-- A CMD's packet is passed on (R433 to R435): to the intake over a direct crossing, or in-band. -/
def Dev.passCmd (d : Dev) (e q entry dest : Nat) (pkt : List Byte) : Dev :=
  let r := regionOf e
  let fen := bits dest 17 0
  let tag := Ocm.tag pkt
  let d := (d.count (Ctr.cmdsSent e)).modCmd e q entry (fun c => { c with tag := tag, passed := true })
  if d.localRouter r (fenRouter fen) then
    d.register ⟨.gate e q, d.wardenNow, pkt, none, r, 0⟩
  else
    let id := d.nextId
    let now := d.gateNow e
    let h : Hdr := { dstFen := fen, srcFen := d.localFen e, cls := 4, unit := 3, opcode := Ocm.type pkt, srcEpi := q / 2 }
    let d := d.takeId.addCall ⟨id, none, e, q, tag, fenRouter fen, now, 0, false⟩
    if d.belfryRuns r then d.sendEp e h pkt else d.crossingDrop r

/-- The call that an arriving reply answers (R435): by its FENs, endpoint index, route mode and TAG. -/
def Dev.callOf (d : Dev) (r : Nat) (h : Hdr) (tag : Nat) : Option Outstanding :=
  d.warden.calls.find? (fun c =>
    !c.lost && c.tag == tag && c.router == fenRouter h.srcFen &&
      (if c.forward.isSome then h.mode == 2 && h.dstEpi == 0 && h.dstFen == fenOf (d.region r).chip.routerId 0
       else h.mode != 2 && h.dstEpi == c.sq / 2 && d.localFen c.ep == h.dstFen))

/-- CMD_TIMEOUT (R434, R436): no final reply within CMD_TIMEOUT of the last answer of any type. -/
def Dev.callTimeout (d : Dev) (id : Nat) : Dev :=
  match d.warden.calls.find? (fun c => c.id == id) with
  | none => d
  | some c =>
    if d.callNow c < c.since + d.warden.cmdTimeout then d else
    let d := d.dropCall id
    match c.forward with
    | some (path, tag) => d.finish path tag Ocm.noReply []
    | none =>
      if c.orphan ≠ 0 ∨ (d.sq c.ep c.sq).state = .halted then d else
      match (d.sq c.ep c.sq).cmdOf c.tag with
      | none => d
      | some m =>
        let d := d.modSq c.ep c.sq (fun s => { s with cmds := s.cmds.filter (fun x => x.entry != m.entry) })
        (d.count (Ctr.cmdTimeouts c.ep)).complete c.ep c.sq m.entry (Fin8.status' 7 0)

/-- A REPLY or INTERIM arrives in-band (R433, R434, R436). One to a heartbeat is not counted (15 R463). -/
def Dev.replyArrived (d : Dev) (r : Nat) (p : Packet) : Dev :=
  let pkt := p.payload
  let type := Ocm.type pkt
  let d := match d.callOf r p.hdr (Ocm.tag pkt) with
    | some c => d.callTimeout c.id
    | none => d
  match d.callOf r p.hdr (Ocm.tag pkt) with
  | none => if Ocm.opcode pkt = 0x0F04 then d else d.count Ctr.lateReplies
  | some c =>
    let now := d.callNow c
    let d := if type = 2 then d.dropCall c.id else d.modCall c.id (fun c => { c with since := now })
    match c.forward with
    | some (path, tag) => if type = 2 then d.finish path tag Ocm.ok pkt else d
    | none => d.cmdAnswer c.ep c.sq c.tag type c.orphan pkt

/-- A WARDEN packet delivered at crossbar port 63 (R435): one of another class is dropped. -/
def Dev.wardenPacket (d : Dev) (r : Nat) (p : Packet) : Dev :=
  let h := p.hdr
  if h.cls ≠ 4 then d.count Ctr.badFrames
  else if h.opcode = 2 ∨ h.opcode = 3 then d.replyArrived r p
  else d.register ⟨.inband h.srcFen h.srcEpi, d.wardenNow, p.payload, some h, r, 0⟩

/-- A packet crosses from crossbar port 63 to the Warden; one that meets a stopped Warden is discarded (01 R34). -/
def wardenArrival (r : Nat) (pkt : Packet) (s : State) : Host.Outcome State Fault Refusal :=
  onArrival r pkt (fun d => if d.wardenRuns then d.wardenPacket r pkt else d.crossingDrop r) s

def execCommandIntake (r : Fin 4) (pkt : Packet) (s : State) : Host.Outcome State Fault Refusal :=
  wardenArrival r.val pkt s

def execCommandReplyReceived (r : Fin 4) (pkt : Packet) (s : State) : Host.Outcome State Fault Refusal :=
  if pkt.hdr.opcode = 2 ∨ pkt.hdr.opcode = 3 then wardenArrival r.val pkt s else .next s

def execCmdTimeout (call : Nat) (s : State) : Host.Outcome State Fault Refusal :=
  actIf (fun d => d.gatesRun) (fun d => d.callTimeout call) s

/-! ## MGMT_FORWARD (R436) -/

/-- The region whose crossbar port 63 the request leaves by: the requesting gate's, the one the command arrived in, or
for Bellrope the first whose Belfry island runs. -/
def Dev.fwdRegion (d : Dev) (q : Request) : Nat :=
  match q.path with
  | .gate e _ => regionOf e
  | .inband _ _ => q.region
  | .bellrope => (allRegions.find? (fun r => d.belfryRuns r)).getD 0

/-- Bits [3:0] DIR_LEN, and hop k of the parameters. -/
def fwdHop (p : List Byte) (k : Nat) : Nat := bits (field p 0 8) (8 + 7 * k + 6) (8 + 7 * k)

/-- The hops at or beyond DIR_LEN are 0. -/
def fwdHopsOk (p : List Byte) : Bool :=
  (List.range 8).all (fun k => decide (k < bits (byteAt p 0) 3 0) || fwdHop p k == 0)

def fwdForm : Form :=
  { opcode := 0x0E05, len := fun p => p.length, zero := [(4, 7)],
    ranged := fun p => decide (1 ≤ bits (byteAt p 0) 3 0 ∧ bits (byteAt p 0) 3 0 ≤ 8 ∧ 24 ≤ p.length) && fwdHopsOk p,
    replyLen := fun p => 16 + Ocm.replyMax (p.drop 8), down := fun d q => !d.belfryRuns (d.fwdRegion q) }

def Dev.mgmtForward (d : Dev) (q : Request) : Dev × Answer :=
  let p := q.params
  let len := bits (byteAt p 0) 3 0
  if p.length < 24 ∨ len = 0 ∨ 8 < len ∨ !fwdHopsOk p then (d, .done Ocm.invalidParameter []) else
  let r := d.fwdRegion q
  let inner := p.drop 8
  let fen := fenOf (d.region r).chip.routerId 0
  let h : Hdr := { dstFen := 0, srcFen := fen, cls := 4, mode := 2, interGroup := len, unit := 3, opcode := Ocm.type inner,
                   laSet := bits (field p 0 8) 63 8 }
  let id := d.nextId
  let now := d.wardenNow
  let d := d.takeId.addCall ⟨id, some (q.path, q.tag), 0, 0, Ocm.tag inner, 0, now, 0, false⟩
  (d.send r 63 h inner, .runs id 0 [])

def execMgmtForward (path : Path) (tag : Nat) (s : State) : Host.Outcome State Fault Refusal :=
  command fwdForm path tag Dev.mgmtForward s

/-! ## NOP, AUTH_NONCE -/

def execNopCommand (path : Path) (tag : Nat) (s : State) : Host.Outcome State Fault Refusal :=
  reading { Form.fixed 0x0E00 0 [] 0 with down := Dev.placeDown } path tag (fun _ _ => .done Ocm.ok []) s

/-- AUTH_NONCE (R442): a value of the device's random source, live for 10 s; a ninth issue retires the oldest. -/
def Dev.authNonce (d : Dev) (_ : Request) : Dev × Answer :=
  let n := (Config.nonce d.free).toNat
  let expires := d.wardenNow + 10000000000
  let live := d.liveNonces
  let d := d.draw.modWarden (fun w => { w with nonces := (if live.length < 8 then live else live.drop 1) ++ [(n, expires)] })
  (d, .done Ocm.ok (leBytes 8 n ++ leBytes 8 expires))

def execAuthNonce (path : Path) (tag : Nat) (s : State) : Host.Outcome State Fault Refusal :=
  command (Form.fixed 0x0E04 0 [] 16) path tag Dev.authNonce s

end Sys2Proof.Machine
end

