-- ==== Sys2Proof/Machine/Trees.lean ====
section
/-! DEFINITION. The commands of Cooper (12 R396 to R399): TREE_SET, TREE_CLEAR, TREE_ABORT and TREE_READ. -/

namespace Sys2Proof.Machine

/-- TREE_ID in bytes 0–1. -/
def treeIdOf (p : List Byte) : Nat := bits (field p 0 2) 11 0

/-- Collective scratch of a region, in 4 KiB units: the carve-out, and what its contexts reserve (R396, R400). -/
def Region.scratchTotal (x : Region) : Nat := 65536 * x.carve.scratch
def Tree.scratchNeed (w : Nat) : Nat := 9 * w
def Region.scratchUsed (x : Region) : Nat := x.trees.foldl (fun n t => n + Tree.scratchNeed t.2.window) 0
/-- Contexts that unit u holds. -/
def Region.treesOf (x : Region) (u : Nat) : Nat := (x.trees.filter (fun t => t.1 % 2 == u)).length

/-! ## TREE_SET -/

/-- NUM_CHILDREN of the STATIC part at byte 8. -/
def setChildren (p : List Byte) : Nat := bits (field p 8 32) 47 41
def treeRegionOf (p : List Byte) : Nat := bits (byteAt p 0) 1 0

def treeSetForm : Form :=
  { opcode := 0x0C01, len := fun p => 40 + 4 * setChildren p, zero := [(2, 63)],
    ranged := fun p => decide (1 ≤ setChildren p ∧ setChildren p ≤ 96), replyLen := fun _ => 8,
    down := fun d q => !d.regionRuns (treeRegionOf q.params) }

/-- A child entry is VALID, with its reserved bits 0 (R367). -/
def childOk (c : Nat) : Bool := bit c 0 && bits c 31 20 == 0

/-- The parameters of R396. -/
def treeSetOk (s : Nat) (kids : List Nat) : Bool :=
  let n := bits s 47 41
  let root := bit s 14
  decide (1 ≤ n ∧ n ≤ 96) && bits s 59 56 != 0 && bits s 127 96 != 0 && bits s 13 12 == 0 && bits s 191 160 == 0 &&
    (root || decide (bits s 40 34 ≤ 95)) && kids.all childOk &&
    (!root || (decide (bits s 54 48 < n) && childLocal (kids.getD (bits s 54 48) 0)))

/-- The bits of the static part that R365 gives a meaning, without STATE, CUR_INSTANCE and SCRATCH. -/
def staticMask : Nat :=
  (2 ^ 12 - 1) + 2 ^ 14 + (2 ^ 55 - 2 ^ 16) + (2 ^ 60 - 2 ^ 56) + (2 ^ 88 - 2 ^ 64) + (2 ^ 128 - 2 ^ 96)

/-- A new context in READY; SCRATCH is an offset that the spec does not fix: a free value. -/
def Dev.treeSet (d : Dev) (q : Request) : Dev × Answer :=
  let p := q.params
  let r := treeRegionOf p
  let s := field p 8 32
  let id := bits s 11 0
  let kids := (List.range (setChildren p)).map (fun c => field p (40 + 4 * c) 4)
  let x := d.region r
  if !treeSetOk s kids then (d, .done Ocm.invalidParameter [])
  else if (d.treeRegion id).isSome then (d, .done Ocm.wrongState [])
  else if 512 ≤ x.treesOf (id % 2) ∨ x.scratchTotal < x.scratchUsed + Tree.scratchNeed (bits s 59 56) then (d, .done Ocm.noResource [])
  else
    let scratch := (Config.unstated d.free).toNat % 2 ^ 32
    let t : Tree :=
      { static := leBytes 32 (s &&& staticMask), state := 1, cur := bits s 143 128, scratch := scratch, children := kids,
        insts := [], postings := [], abortNew := 0 }
    (d.draw.modRegion r (fun x => { x with trees := tput x.trees id t }), .done Ocm.ok (leBytes 8 scratch))

def execTreeSet (path : Path) (tag : Nat) (s : State) : Host.Outcome State Fault Refusal :=
  command treeSetForm path tag Dev.treeSet s

/-! ## TREE_CLEAR -/

/-- The region and context of a TREE_ID. -/
def Dev.heldTree (d : Dev) (id : Nat) : Option (Nat × Tree) :=
  (d.treeRegion id).bind (fun r => (d.tree r id).map (fun t => (r, t)))

def Dev.treeClear (d : Dev) (q : Request) : Dev × Answer :=
  let id := treeIdOf q.params
  match d.heldTree id with
  | some (r, t) =>
    if t.state = 1 then
      (d.modRegion r (fun x => { x with trees := tdrop x.trees id }), .done Ocm.ok [])
    else (d, .done Ocm.wrongState [])
  | none => (d, .done Ocm.wrongState [])

def execTreeClear (path : Path) (tag : Nat) (s : State) : Host.Outcome State Fault Refusal :=
  command (Form.fixed 0x0C02 8 [(16, 63)] 0) path tag Dev.treeClear s

/-! ## TREE_ABORT -/

/-- What an abort leaves of a context: no instance, no accumulator, CUR_INSTANCE as given; the entries of the abandoned
instances stay until their writes are issued. -/
def Tree.abort (t : Tree) (new : Nat) : Tree := { t with state := 3, insts := [], cur := new, abortNew := new }

/-- The granted pages and the reads of contributions that an abort abandons are given up. -/
def Dev.dropContribs (d : Dev) (r id : Nat) (t : Tree) : Dev :=
  forEach (t.postings.filter (fun p => p.admitted)) (fun p d =>
    let mine (w : Who) : Bool := w == .contrib r id p.child p.nextSeg
    d.forsake p.ep mine) d

/-- The instances that an abort ends are counted; at the root each is PARTIAL (R398, R401, log entry 34). -/
def Dev.countAborted (d : Dev) (r : Nat) (t : Tree) : Dev :=
  let n := (t.insts.filter (fun i => i.phase != 0)).length
  (d.countBy (Ctr.instancesEnded r) n).countBy (Ctr.partialInstances r) (if t.root then n else 0)

def Dev.treeAbort (d : Dev) (q : Request) : Dev × Answer :=
  let id := treeIdOf q.params
  match d.heldTree id with
  | some (r, t) => (((d.dropContribs r id t).countAborted r t).modTree r id (fun t => t.abort (field q.params 2 2)), .runs r id [])
  | none => (d, .done Ocm.wrongState [])

def execTreeAbort (path : Path) (tag : Nat) (s : State) : Host.Outcome State Fault Refusal :=
  command (Form.fixed 0x0C03 8 [(32, 63)] 0) path tag Dev.treeAbort s

/-- Every executing command of an opcode that works on (a, b) completes. -/
def Dev.finishAll (d : Dev) (op a b status : Nat) (params : List Byte) : Dev :=
  forEach (d.warden.executing.filter (fun x => x.opcode == op && x.a == a && x.b == b)) (fun x d =>
    d.finish x.req.path x.req.tag status params) d

/-- TREE_ABORT_DONE (R369, R398): every local write of the abandoned instances is issued. Their entries complete, the
context is READY, parked entries are admitted, and the command replies. -/
def Dev.treeAbortDone (d : Dev) (r id : Nat) : Dev :=
  match d.tree r id with
  | none => d
  | some t =>
    let mine := t.postings.filter (fun p => p.admitted)
    if t.state ≠ 3 ∨ mine.any (fun p => p.writing != 0) then d else
    let d := d.modTree r id (fun t => { t with state := 1, postings := t.postings.filter (fun p => !p.admitted) })
    let d := forEach mine (fun p d => d.complete p.ep p.sq p.entry ⟨0x0B, p.written, 0, 0, 0⟩) d
    ((d.unpark r id).coopRun r id).finishAll 0x0C03 r id Ocm.ok []

def execTreeAbortDone (r : Fin 4) (tree : Nat) (s : State) : Host.Outcome State Fault Refusal :=
  actIf (fun d => d.regionRuns r.val) (fun d => d.treeAbortDone r.val tree) s

/-! ## TREE_READ -/

/-- Instance slot k (R366); the slot of no instance in progress is EMPTY. -/
def Tree.slotBytes (t : Tree) (k : Nat) : List Byte :=
  match t.insts.find? (fun i => i.number % 2 == k && i.phase != 0) with
  | none => zeros 48
  | some i =>
    let win := match i.downStart with
      | some s => s
      | none => i.upStart
    leBytes 48 (pack [(i.number, 16), (i.phase, 2), (i.collOp, 2), (i.dtype, 4), (i.redop, 4), (b2n i.exact_, 1),
      (b2n i.isPartial, 1), (0, 2), (i.elems, 32), (i.segsUp, 32), (i.segsDown, 32), (win / 1000, 32), (b2n i.upEnded, 1),
      (b2n i.downEnded, 1), (0, 30), (i.absent, 96), (i.upDone, 96)])

/-- The 512-byte context of R365 to R367. -/
def Tree.image (t : Tree) : List Byte :=
  let s := leNat t.static + 2 ^ 12 * t.state + 2 ^ 128 * t.cur + 2 ^ 160 * t.scratch
  leBytes 32 s ++ t.slotBytes 0 ++ t.slotBytes 1 ++ (List.range 96).flatMap (fun c => leBytes 4 (t.children.getD c 0))

def Dev.treeRead (d : Dev) (q : Request) : Answer :=
  match d.heldTree (treeIdOf q.params) with
  | some (_, t) => .done Ocm.ok t.image
  | none => .done Ocm.wrongState []

def execTreeRead (path : Path) (tag : Nat) (s : State) : Host.Outcome State Fault Refusal :=
  reading (Form.fixed 0x0C04 8 [(16, 63)] 512) path tag Dev.treeRead s

end Sys2Proof.Machine
end

