-- ==== Sys2Proof/Machine/Blocks.lean ====
section
/-! DEFINITION. Engine blocks (15 R481 to R483): BLOCK_RESET, BLOCK_LOAD, and how a block's migration and its load end. -/

namespace Sys2Proof.Machine

/-! ## Parameters (R482) -/

/-- STEP_LIMIT in ns. -/
def stepLimit (p : List Byte) : Nat := if field p 0 4 = 0 then 100000 else 1000 * field p 0 4

def blockForm (opcode : Nat) (zero : List (Nat × Nat)) : Form :=
  { opcode := opcode, len := fun _ => 16, zero := zero, ranged := fun p => decide (field p 0 4 ≤ 1000000), replyLen := fun _ => 16,
    down := fun d q => d.engineDown q.index }

/-- The versions that the region's runtime carve-out holds: those of its blocks that have engine code. -/
def Dev.versionsOf (d : Dev) (r : Nat) : List Nat :=
  ((blocksOf r).filter (fun b => (d.block b).state != .off)).foldl (fun vs b =>
    let x := d.block b
    let vs := insertNat x.version vs
    if x.isLoad && (x.state == .migrating || x.state == .resetting) then insertNat x.loading vs else vs) []

/-! ## BLOCK_RESET and BLOCK_LOAD -/

/-- The block cannot leave its state: it is changing already, or it is the only RUN block of its region. -/
def Dev.blockHeld (d : Dev) (b : Nat) : Bool :=
  let st := (d.block b).state
  st == .migrating || (st == .run && (d.runBlocks (b / 16)).length == 1)

/-- The block enters MIGRATING. -/
def Dev.migrate (d : Dev) (b limit version : Nat) (code : List Byte) (isLoad : Bool) : Dev :=
  let ends := d.belfryNow (b / 16) + limit
  let d := d.modBlock b (fun x => { x with limit := ends, moved := 0, redone := 0, loading := version, newCode := code, isLoad := isLoad })
  (d.setBlock b .migrating).moveItems b

def Dev.blockReset (d : Dev) (q : Request) : Dev × Answer :=
  let b := q.index
  if 1000000 < field q.params 0 4 then (d, .done Ocm.invalidParameter [])
  else if d.blockHeld b then (d, .done Ocm.wrongState [])
  else (d.migrate b (stepLimit q.params) (d.block b).version (d.block b).code false, .runs b 0 [])

def execBlockReset (path : Path) (tag : Nat) (s : State) : Host.Outcome State Fault Refusal :=
  command (blockForm 0x0F10 [(40, 63), (96, 127)]) path tag Dev.blockReset s

/-- BLOCK_LOAD of an image with a version, its engine section and the FAIL code of its verification. -/
def Dev.blockLoad (d : Dev) (q : Request) (version : Nat) (code : List Byte) (fail : Nat) : Dev × Answer :=
  let b := q.index
  let want := field q.params 8 4
  let others := (d.versionsOf (b / 16)).filter (fun v => v != version)
  if 1000000 < field q.params 0 4 then (d, .done Ocm.invalidParameter [])
  else if d.blockHeld b then (d, .done Ocm.wrongState [])
  else if fail ≠ 0 ∨ (want ≠ 0 ∧ want ≠ version) then (d, .done Ocm.invalidParameter [])
  else if 2 ≤ others.length then (d, .done Ocm.noResource [])
  else (d.migrate b (stepLimit q.params) version code true, .runs b 0 [])

def execBlockLoad (path : Path) (tag : Nat) (s : State) : Host.Outcome State Fault Refusal :=
  .next (s.startCommand (blockForm 0x0F11 [(33, 39), (40, 63), (96, 127)]) path tag (fun s q =>
    let slot := bits (byteAt q.params 4) 0 0
    let r := s.dev.blockLoad q (hdrVersion (slotHeader s.flash slot)) (slotSection s.flash slot 32) (imageFail s.flash s.fuses slot false)
    ({ s with dev := r.1 }, r.2)))

/-! ## The ends of its states (R481) -/

/-- BLOCK_MIGRATION_END: the engines are idle, or STEP_LIMIT has ended. -/
def Dev.blockMigrationEnd (d : Dev) (b : Nat) : Dev :=
  let d := d.sweepItems b
  let x := d.block b
  if x.state != .migrating || (!x.running.isEmpty && decide (d.belfryNow (b / 16) < x.limit)) then d
  else (d.abandonSteps b (fun _ => true)).setBlock b .resetting

def execBlockMigrationEnd (b : Fin 64) (s : State) : Host.Outcome State Fault Refusal :=
  actIf (fun d => d.regionRuns (b.val / 16)) (fun d => d.blockMigrationEnd b.val) s

/-- The command that resets or loads a block. -/
def Dev.blockCommand (d : Dev) (b : Nat) : Option Exec :=
  d.warden.executing.find? (fun x => (x.opcode == 0x0F10 || x.opcode == 0x0F11) && x.a == b)

/-- The 16-byte reply. -/
def Block.reply (x : Block) : List Byte := leBytes 4 x.moved ++ leBytes 4 x.redone ++ leBytes 4 x.version ++ zeros 4

/-- The command's reply as its load ends: ABORTED where CMD_ABORT named it in RESETTING, past its safe point (log entry 23). -/
def Dev.blockDone (d : Dev) (x : Exec) (b status : Nat) (params : List Byte) : Dev :=
  if x.aborting then d.finishAll x.opcode b 0 Ocm.aborted [] else d.finishAll x.opcode b 0 status params

/-- BLOCK_CODE_LOADED: the block runs the version, or the load failed. -/
def Dev.blockCodeLoaded (d : Dev) (b : Nat) (good : Bool) : Dev :=
  match d.blockCommand b with
  | none => d
  | some x =>
    if (d.block b).state != .resetting then d
    else if !good then (d.setBlock b .off).blockDone x b Ocm.hardwareFault []
    else
      let d := (d.modBlock b (fun y => { y with version := y.loading, code := y.newCode, newCode := [] })).setBlock b .run
      let d := d.count (if x.opcode = 0x0F10 then Ctr.blockResets (b / 16) else Ctr.blockLoads (b / 16))
      let d := d.blockDone x b Ocm.ok (d.block b).reply
      if d.blockBad b then d.blockOff b else d

def execBlockCodeLoaded (b : Fin 64) (good : Bool) (s : State) : Host.Outcome State Fault Refusal :=
  actIf (fun d => d.blockRuns b.val && d.regionRuns (b.val / 16)) (fun d => d.blockCodeLoaded b.val good) s

/-- A block command whose block goes OFF as its last engine is quarantined (18 R536): log entry 40. -/
def Dev.blockLost (d : Dev) (b : Nat) : Dev :=
  (d.finishAll 0x0F10 b 0 Ocm.hardwareFault []).finishAll 0x0F11 b 0 Ocm.hardwareFault []

/-- A block command of a region whose reset takes over, or that CMD_ABORT stops before RESETTING (R446, R482). -/
def Dev.blockAbort (d : Dev) (b : Nat) : Dev :=
  (d.finishAll 0x0F10 b 0 Ocm.aborted []).finishAll 0x0F11 b 0 Ocm.aborted []

end Sys2Proof.Machine
end

