-- ==== Sys2Proof/Machine/Clocks.lean ====
section
/-! DEFINITION. CLOCK_SWITCH (14 R455 to R457) and what a region's islands hold as they start. -/

namespace Sys2Proof.Machine

/-- The seed of a region's LFSR after a chip or region reset (05 R153). -/
def lfsrSeed (r : Nat) : Nat := ((ownSerial % 2 ^ 32) ^^^ r) ||| 1

/-- A region's Belfry island starts: its copies are the chip's, and its LFSR is loaded (05 R153, R168, 15 R479). -/
def Dev.startRegion (d : Dev) (r : Nat) : Dev :=
  d.modRegion r (fun x => { x with chip := d.chip, epochs := d.epochs, lfsr := lfsrSeed r })

/-! ## CLOCK_STATUS and CLOCK_ENGINES (R457) -/

/-- Bit set from a list of numbers. -/
def maskOf (ns : List Nat) : Nat := ns.foldl (fun m n => putBit m n true) 0

/-- Every island runs (R456). -/
def Warden.allRun (w : Warden) : Bool :=
  w.belfry == 15 && w.hbm == 15 && w.buttress == 63 && w.pll && w.engines == 2 ^ 64 - 1

/-- The islands of a region run. -/
def Warden.regionUp (w : Warden) (r : Nat) : Bool := bit w.belfry r && bit w.hbm r

/-! ## The switch -/

/-- The Belfry islands of step 4: those of regions whose stack runs and of which nothing failed. -/
def Warden.belfryNext (w : Warden) (failed : Nat) : List Nat :=
  allRegions.filter (fun r => bit w.belfry r || (bit w.hbm r && !bit failed r))

/-- The Buttress islands whose two regions both have Belfry running, as bits of CLOCK_STATUS. -/
def buttressOf (belfry : List Nat) : Nat :=
  maskOf ((regionPairs.zipIdx.filter (fun x => belfry.contains x.1.1 && belfry.contains x.1.2)).map (fun x => x.2))

/-- Step 1: NREF is measured, and a large offset ends the command with HARDWARE_FAULT; both kinds of end set DONE. -/
def Dev.clockMeasure (d : Dev) (c : ClockRun) : Dev × Answer :=
  if d.warden.allRun then (d, .done Ocm.wrongState [])
  else
    let d := d.modWarden (fun w => { w with nref := c.ppm })
    if 150 < c.ppm.natAbs then
      (((d.modWarden (fun w => { w with done := true })).raise Isl.warden (Src.chip 5) 0 0), .done Ocm.hardwareFault [])
    else (d, .runs 1 0 [])

/-- Step 2: the regions whose PLL does not lock, of those that do not run. -/
def Dev.clockLock (d : Dev) (c : ClockRun) : Dev × Answer :=
  (d, .runs 2 (maskOf (allRegions.filter (fun r => !d.warden.regionUp r && c.pllFails.any (fun x => x.val == r)))) [])

/-- Step 3: the HBM islands, of the regions that have not failed, and the stacks that fail. -/
def Dev.clockStacks (d : Dev) (c : ClockRun) (failed : Nat) : Dev × Answer :=
  let bad := allRegions.filter (fun r => bit failed r || (!bit d.warden.hbm r && c.hbmFails.any (fun x => x.val == r)))
  (d.modWarden (fun w => { w with hbm := maskOf (allRegions.filter (fun r => bit w.hbm r || !bad.contains r)) }), .runs 3 (maskOf bad) [])

/-- Step 4: the Belfry and Buttress islands. Bits [7:4] of what the command holds are the regions whose Belfry it started. -/
def Dev.clockBelfry (d : Dev) (failed : Nat) : Dev × Answer :=
  let was := d.warden.belfry
  let belfry := d.warden.belfryNext failed
  let fresh := belfry.filter (fun r => !bit was r)
  let d := d.modWarden (fun w => { w with belfry := maskOf belfry, buttress := buttressOf belfry })
  (forEach fresh (fun r d => d.startRegion r) d, .runs 4 (failed + 16 * maskOf fresh) [])

/-- Step 5: the engine blocks of the regions whose Belfry runs. -/
def Dev.clockEngines (d : Dev) (held : Nat) : Dev × Answer :=
  let was := d.warden.engines
  let bs := (allRegions.filter (fun r => bit d.warden.belfry r)).flatMap blocksOf
  let d := d.modWarden (fun w => { w with engines := maskOf bs })
  (forEach (bs.filter (fun b => !bit was b)) (fun b d => d.setBlock b .resetting) d, .runs 5 held [])

/-- Step 6: the Warden moves to its PLL, and the command completes: the ports of the regions it started may leave DISABLED (03 R79,
R456). -/
def Dev.clockEnd (d : Dev) (q : Request) (held : Nat) : Dev × Answer :=
  let d := (d.modWarden (fun w => { w with pll := true, done := true })).modExec q.path q.tag (fun x => { x with b := 0 })
  let d := forEach (allRegions.filter (fun r => bit held (4 + r))) (fun r d => d.startPorts r) d
  if bits held 3 0 = 0 then (d, .done Ocm.ok [])
  else (d.raise Isl.warden (Src.chip 5) 0 0, .done Ocm.hardwareFault [])

/-- The step of the switch after step `a`; `held` is what the command holds. -/
def Dev.clockStep (d : Dev) (c : ClockRun) (q : Request) (a held : Nat) : Dev × Answer :=
  match a with
  | 0 => d.clockMeasure c
  | 1 => d.clockLock c
  | 2 => d.clockStacks c held
  | 3 => d.clockBelfry held
  | 4 => d.clockEngines held
  | _ => d.clockEnd q held

/-- Of several CLOCK_SWITCH commands the one that started first moves (R444). -/
def Warden.clockTurn (w : Warden) (q : Request) : Bool := (w.executing.find? (fun x => x.opcode == 0x0E20)).any (fun x => x.req == q)

def Dev.clockSwitch (d : Dev) (c : ClockRun) (q : Request) (a held : Nat) : Dev × Answer :=
  if d.warden.clockTurn q then d.clockStep c q a held else (d, .runs a held [])

def execClockSwitch (path : Path) (tag : Nat) (run : ClockRun) (s : State) : Host.Outcome State Fault Refusal :=
  let go (s : State) (r : Dev × Answer) : State × Answer := ({ s with dev := r.1 }, r.2)
  .next (s.stepCommand (Form.fixed 0x0E20 0 [] 16) path tag (fun s q => go s (s.dev.clockSwitch run q 0 0))
    (fun s x => go s (s.dev.clockSwitch run x.req x.a x.b)))

end Sys2Proof.Machine
end

