-- ==== Sys2Proof/Machine/Fetch.lean ====
section
/-! DEFINITION. What Porter reads from the host: the entries of a ring and of a chain (08 R237, R250, R251), and the packet of
a CMD entry (14 R433). -/

namespace Sys2Proof.Machine

/-! ## Rings -/

/-- The reads of a ring from a position: two where the range crosses the ring's end. -/
def ringReads (s : Sq) (n : Nat) : List (Nat × Nat) :=
  let slot := s.ci % 2 ^ s.log
  let first := min n (2 ^ s.log - slot)
  let a := ringAddr s.base
  (a + 32 * slot, 32 * first) :: (if first < n then [(a, 32 * (n - first))] else [])

/-- The ring is read from CI: the slots that are in, as many as an entry may have (log entry 50). -/
def Dev.ringFetch (d : Dev) (e q : Nat) : Dev :=
  let s := d.sq e q
  d.startRead e .ring (.ring q) none (ringReads s (min 16 (idxDist s.ci s.pi)))

/-! ## Chains -/

/-- A CHAIN ends: its record, and its fetches (R251). -/
def Dev.endChain (d : Dev) (e q : Nat) (f : Fin8) : Dev :=
  match (d.sq e q).chain with
  | none => d
  | some c => ((d.modSq e q (fun s => { s with chain := none })).forsake e (· == .chain q)).complete e q c.entry f

/-- Bytes of a chain that an entry's fetch touches: its header alone when it runs past CHAIN_LEN. -/
def chainNeed (c : ChainOf) (b : List Byte) : Nat :=
  let n := 32 * (entSize b + 1)
  if c.len - c.off < n then 32 else n

/-- The part of the next chained entry that is read now, by its offset in the entry and its length: the header, and then the
rest. -/
def ChainOf.part (c : ChainOf) : Nat × Nat :=
  match c.head with
  | none => (0, 32)
  | some b => (32, chainNeed c b - 32)

/-- The next chained entry is fetched (R250): every page it touches permits execute. -/
def Dev.chainFetch (d : Dev) (e q : Nat) : Dev :=
  let s := d.sq e q
  match s.chain with
  | none => d
  | some c =>
    let (o, n) := c.part
    let ps := pieces 2 ((c.addr + c.off + o) % 2 ^ 64) n
    match d.needPages e (.chain q) s.pasid (!s.super) .exec (c.len - (c.off + o + n)) ps with
    | (d, .waiting) => d
    | (d, .fault k) => d.endChain e q (Fin8.status' 0x01 k)
    | (d, .ready got) =>
      (d.useGrants e (.chain q) d.nextId).startRead e .chain (.chain q) (some (s.pasid, none))
        ((got.zip ps).map (fun x => (x.1.2.1, x.2.2)))

/-! ## The packet of a CMD (14 R433) -/

/-- The opcode of a packet needs CONTROL authority (test 5). -/
def needsControl (pkt : List Byte) : Bool :=
  match Ocm.row (Ocm.opcode pkt) with
  | some r => r.auth == 1 || (r.opcode == 0x0E08 && bit (byteAt (Ocm.params pkt) 6) 0)
  | none => false

/-- A completion with SUCCESS that carries an Ocmiset status. -/
def cmdStatus (st : Nat) : Fin8 := Fin8.status' 0x00 st

/-- The accepted CMD of a queue whose packet has not been passed on. -/
def Sq.unsent (s : Sq) : Option Cmd := s.cmds.find? (fun c => !c.passed)

/-- It completes, and nothing is sent. -/
def Dev.failCmd (d : Dev) (e q entry : Nat) (f : Fin8) : Dev :=
  (d.modSq e q (fun s => { s with cmds := s.cmds.filter (fun c => c.entry != entry) })).complete e q entry f

/-- Test 4: the pages of the packet, and its read. -/
def Dev.cmdPages (d : Dev) (e q : Nat) : Dev :=
  let s := d.sq e q
  match s.unsent with
  | none => d
  | some c =>
    let b := d.cmdEntry e q c.entry
    let ps := pieces 3 (field b 16 8) (field b 32 4)
    match d.needPages e (.cmd q) s.pasid (!s.super) .read 0 ps with
    | (d, .waiting) => d
    | (d, .fault k) => d.failCmd e q c.entry (Fin8.status' 0x01 k)
    | (d, .ready got) =>
      (d.useGrants e (.cmd q) d.nextId).startRead e .command (.cmd q) (some (s.pasid, none))
        ((got.zip ps).map (fun x => (x.1.2.1, x.2.2)))

/-- The read of the packet has ended: test 5, and it is passed on. -/
def Dev.cmdRead (d : Dev) (e q : Nat) (res : HostRes) : Dev :=
  match (d.sq e q).unsent, res with
  | none, _ => d
  | some c, .ok data =>
    let b := d.cmdEntry e q c.entry
    let pkt := sliceBytes data 0 (field b 32 4)
    if needsControl pkt && !d.priv e && !Ocm.signed pkt then d.failCmd e q c.entry (cmdStatus Ocm.notAuthorised)
    else d.passCmd e q c.entry (entDest b) pkt
  | some c, _ => d.failCmd e q c.entry (Fin8.status' 0x02 0)

end Sys2Proof.Machine
end

