-- ==== Sys2Proof/Machine/Resume.lean ====
section
/-! DEFINITION. What goes on once a translation has ended (09 R270, R274 to R280), and what the owner of a waiting write does
once it is written. -/

namespace Sys2Proof.Machine

/-! ## What goes on after a walk -/

/-- What the owner of a waiting write does once its count has changed. -/
def Dev.placed (d : Dev) (e : Nat) (o : PlaceFor) : Dev :=
  match o with
  | .entry id => d.entryProgress e id
  | .member r t _ _ => d.coopRun r t
  | .reply q n => d.endCmd e q n

/-- The waiter of a walk goes on with what it found. A fault counts when it is reported (R294): now, or once the unit that
waits takes it. -/
def Dev.resume (d : Dev) (e id : Nat) (w : Walk) (f : Found) : Dev :=
  let kept (d : Dev) : Dev := d.addGrant e id w.who w.pasid w.va f
  match w.who with
  | .work k => ((d.countFault e (some f)).modEp e (fun x => x.waitAlso [id] k)).workFound (regionOf e) k f
  | .place k =>
    match (d.countFault e (some f)).placeFound e k f with
    | (d, some p) => d.placed e p.owner
    | (d, none) => d
  | .grant r k => ((kept d).pendTry r k).pendServe r
  | .contrib r t c seg => (kept d).contribFound r t c seg
  | .chain q => (kept d).chainFetch e q
  | .cmd q => (kept d).cmdPages e q
  | .source _ | .landing _ => kept d
  | .ring _ | .walk _ | .spec => d

/-- A read of a walk has ended (09 R274, R278). -/
def Dev.walkEnd (d : Dev) (e id : Nat) (res : HostRes) : Dev :=
  match d.walkRead e id res with
  | (d, some (w, f)) => d.resume e id w f
  | (d, none) => d

end Sys2Proof.Machine
end

