-- ==== Sys2Proof/Machine/Leave.lean ====
section
/-! DEFINITION. An endpoint leaves RUN (07 R213, R214, R223), its gate stops (R210, R263), and it is reset (R215 to R217,
08 R268, 09 R287, 11 R360, 13 R419). -/

namespace Sys2Proof.Machine

/-- GATE_STOP, a removal, a malformation, PowerState or Bus Master Enable moves the endpoint to a state (R210, R212). -/
def Dev.moveEp (d : Dev) (e : Nat) (st : EState) : Dev :=
  let now := d.gateNow e
  d.modEp e (fun x => { x with state := st, movedAt := some now })

/-! ## Leaving RUN -/

/-- An arrived request whose host access is barred (R223): a write not yet issued is discarded, an AtomicOp issued and
not completed leaves its outcome unknown, anything else is refused. -/
def Dev.dropWork (d : Dev) (e id : Nat) : Dev :=
  let r := regionOf e
  match d.work r id with
  | none => d
  | some w =>
    match w.stage with
    | .writing => (d.count (Ctr.lateWriteDiscards e)).refuseWorkGate r id 0x05 0
    | .atomicOut _ _ => if (d.ep e).tags.any (fun t => t.who == .work id && !t.late) then d.refuseWorkGate r id 0x08 0x0206 else d.refuseWorkGate r id 0x05 0
    | _ => d.refuseWorkGate r id 0x05 0

/-- A waiting write is dropped, and a message's packet whose bytes it held is refused. -/
def Dev.dropPlace (d : Dev) (e : Nat) (id : Nat) : Dev :=
  match tget (d.ep e).places id with
  | none => d
  | some p =>
    let d := (d.modEp e (fun x => { x with places := tdrop x.places id })).onPlace e p.va p.owner p.src .gone
    let d := match p.src with
      | some q => d.refuseGate e q 0x05 0
      | none => d
    d.placed e p.owner

/-- What an endpoint drops at the tick it leaves RUN: its arrived requests, its walks, its waiting writes and requests; the
requests it has issued are late. -/
def Dev.leaveRun (d : Dev) (e : Nat) : Dev :=
  let r := regionOf e
  let works := ((d.region r).works.filter (fun w => w.2.ep == e)).map (fun w => w.1)
  let d := forEach works (fun id d => d.dropWork e id) d
  let d := d.modEp e (fun x =>
    { x with tags := x.tags.map (fun t => { t with late := true }), wantTags := [], readings := [], walks := [], grants := [] })
  forEach ((d.ep e).places.map (fun p => p.1)) (fun id d => d.dropPlace e id) d

/-- The queue has work outstanding: an accepted entry that has not completed, or a fetch (08 R261). -/
def Endpoint.busy (x : Endpoint) (q : Nat) : Bool :=
  let s := x.sq q
  !s.work.isEmpty || s.held.isSome || s.chain.isSome || x.fetching q

/-- R213 for a clear of Bus Master Enable and for D3hot: the endpoint leaves RUN for a state, and its queues with work
outstanding halt. -/
def Dev.barIssue (d : Dev) (e : Nat) (st : EState) : Dev :=
  let d := d.moveEp e st
  let (d, n) := d.haltQueues e (d.ep e).busy
  let d := d.leaveRun e
  if n = 0 then d else d.raise (Isl.gate (e / 2)) (Src.ep e 2) 0 n

/-! ## Stops (R210, R214, R263) -/

/-- The gate enters STOPPED; a gate already STOPPED keeps its first cause, and one that is DOWN does not stop. -/
def Dev.gateStop (d : Dev) (e cause : Nat) : Dev :=
  let was := (d.ep e).state
  if was = .down ∨ was = .stopped then d else
  let d := (d.moveEp e .stopped).modEp e (fun x => { x with stopCause := cause })
  let d := (d.haltQueues e (fun _ => true)).1
  let d := if was = .run then d.leaveRun e else d
  (d.raise (Isl.gate (e / 2)) (Src.ep e 1) cause 0).syncInta e

/-! ## Quarantine (R217) -/

/-- Every outstanding tag enters quarantine. -/
def Dev.quarantineTags (d : Dev) (e : Nat) : Dev :=
  let now := d.gateNow e
  d.modEp e (fun x =>
    { x with tags := [], wantTags := [], readings := [],
             quarantine := x.quarantine ++ x.tags.map (fun t => (t.tag, now + x.cfg.timeout)) })

/-! ## Resets (R215) -/

/-- A key after a reset of its endpoint (09 R287). -/
def Key.afterReset (k : Key) : Key :=
  { k with state := .free, gen := if k.state = .valid then (k.gen + 1) % 65536 else k.gen, inflight := 0, waits := [] }

/-- The configuration space after a reset: PME_En, PME_Status and AER are sticky, and the bus numbers stay (log entry 3). -/
def PciCfg.afterReset (c : PciCfg) : PciCfg :=
  { PciCfg.reset with pmeEn := c.pmeEn, pmeStatus := c.pmeStatus, requester := c.requester, aer := c.aer }

/-- An endpoint's own record after a reset that leads to a state: tags, keys' generations and the link stay. -/
def Endpoint.afterReset (x : Endpoint) (st : EState) : Endpoint :=
  { Endpoint.reset with
    state := st, evtPending := x.evtPending, linkWidth := x.linkWidth, linkRate := x.linkRate, flit := x.flit,
    cfg := x.cfg.afterReset, d3cold := x.d3cold, training := x.training, readyAt := x.readyAt, l0pAt := x.l0pAt, freshTag := x.freshTag, freedTags := x.freedTags,
    quarantine := x.quarantine, busyAt := x.busyAt, keys := x.keys.map (fun k => (k.1, k.2.afterReset)) }

/-- Requests of an endpoint's CMDs: their replies no longer have an entry to go to (14 R447). -/
def Dev.orphanCmds (d : Dev) (e : Nat) (sq : Option Nat) (why : Nat) : Dev :=
  let mine (p : Path) : Bool := match p with
    | .gate f q => f == e && (match sq with
      | some k => k == q
      | none => true)
    | _ => false
  let mark (q : Request) : Request := if mine q.path && q.orphan == 0 then { q with orphan := why } else q
  d.modWarden (fun w =>
    { w with intake := w.intake.map mark, executing := w.executing.map (fun x => { x with req := mark x.req }),
             calls := w.calls.map (fun c =>
               if c.forward.isNone && mine (.gate c.ep c.sq) && c.orphan == 0 then { c with orphan := why } else c) })

/-- What the region's units drop of an endpoint: messages sent and arriving, connections, matches, and collectives. -/
def Dev.dropMessages (d : Dev) (e : Nat) : Dev :=
  let r := regionOf e
  let ops := ((d.region r).ops.filter (fun o => o.2.ep == e)).map (fun o => o.1)
  let d := forEach ops (fun id d => d.abandonOp r id) d
  let d := d.countBy (Ctr.entriesDiscarded e) (d.ep e).store.length
  let d := d.freeMatches e (fun _ => true)
  let fens := ((d.region r).conns.filter (fun c => c.2.ep == e)).map (fun c => c.2.localFen)
  let d := d.modRegion r (fun x =>
    { x with prior := addPrior (x.conns.filter (fun c => c.2.ep == e)) x.prior,
             abandoned := x.abandoned.filter (fun m => !(fens.contains m.1 || m.1 == d.localFen e)),
             conns := x.conns.filter (fun c => c.2.ep != e), trackers := x.trackers.filter (fun t => t.2.ep != e),
             works := x.works.filter (fun w => w.2.ep != e), pullQueue := x.pullQueue.filter (fun p => p.1 != e) })
  let d := forEach allRegions (fun q d => d.modRegion q (fun x =>
    { x with trees := x.trees.map (fun t => (t.1, { t.2 with postings := t.2.postings.filter (fun p => p.ep != e) })) })) d
  d.startOps r

/-- A reset of an endpoint that leads to a state (R215). -/
def Dev.endpointReset (d : Dev) (e : Nat) (st : EState) : Dev :=
  let was := (d.ep e).state
  let d := d.modEp e (fun x => { x with state := st })
  let d := if was = .run then (d.haltQueues e (fun _ => true)).1.leaveRun e else d
  let d := (((d.quarantineTags e).dropMessages e).abandonLocal e none).cancelPends e none
  let mine (f : Nat) : Bool := (d.ownFens e).contains f
  let d := forEach allRegions (fun r d => d.modRegion r (fun x => { x with lastPends := x.resetPends mine })) d
  let d := d.orphanCmds e none 2
  (d.modEp e (fun x => x.afterReset st)).startOps (regionOf e)

end Sys2Proof.Machine
end

