-- ==== Sys2Proof/Machine/Gates.lean ====
section
/-! DEFINITION. The gates' events (07 R199, R206, R210 to R223): PERST#, links, removals, Bus Master Enable, power states,
resets, BAR4, link power and interrupt configuration. -/

namespace Sys2Proof.Machine

/-- The subs of a gate that exist. -/
def Dev.subsOf (d : Dev) (g : Nat) : List Nat := [2 * g, 2 * g + 1].filter d.epExists

/-- A configuration request reaches the endpoint: its link is up. -/
def Dev.cfgUp (d : Dev) (e : Nat) : Bool := d.gatesRun && d.epExists e && (d.ep e).state != .down && (d.ep e).linkWidth != 0

/-- A configuration request of an endpoint whose link is up: until its configuration space is ready it is answered with Request
Retry Status and does nothing (R199, R216). Its completion is something to send (R222). -/
def config (e : Nat) (f : Dev → Dev) (s : State) : Host.Outcome State Fault Refusal :=
  actIf (fun d => d.cfgUp e) (fun d =>
    let d := d.touchEp e
    if d.gateNow e < (d.ep e).readyAt then d.emit (.cfgRetry e) else f d) s

/-- The link of an endpoint has left DL_Active. -/
def Dev.linkLost (d : Dev) (e : Nat) : Dev :=
  if (d.ep e).linkWidth = 0 then d else
  (d.modEp e (fun x => { x with linkWidth := 0, linkRate := 0, flit := false, l1 := false, l0pDiv := 1 })).raise
    (Isl.gate (e / 2)) (Src.ep e 7) 0 0

/-- An endpoint's link starts training (R199). -/
def Dev.trainGate (d : Dev) (e : Nat) : Dev :=
  (d.modEp e (fun x => { x with training := true })).emit (.pcieTrain e)

/-! ## PERST# -/

def Dev.perstEp (d : Dev) (e : Nat) : Dev :=
  let d := (d.count (Ctr.persts e)).endpointReset e .down
  let d := d.modEp e (fun x => { x with training := false, inta := false })
  (d.linkLost e).raise (Isl.gate (e / 2)) (Src.ep e 6) 3 0

def Dev.perstAsserted (d : Dev) (g : Nat) : Dev :=
  let d := d.modGate g (fun x => { x with perst := false })
  if d.gatesRun then forEach (d.subsOf g) (fun e d => d.perstEp e) d else d

def execPerstAsserted (g : Fin 8) (s : State) : Host.Outcome State Fault Refusal :=
  actIf (fun d => d.lantern.powered) (fun d => d.perstAsserted g.val) s

/-- PERST_RELEASED (R199, R221): WAKE# is released, and training starts once gate bring-up has passed. -/
def Dev.perstReleased (d : Dev) (g : Nat) : Dev :=
  let now := d.gateNow (2 * g)
  let d := d.modGate g (fun x => { x with perst := true, perstAt := now, wakeLow := false })
  if d.gatesRun then
    forEach (d.subsOf g) (fun e d =>
      if (d.ep e).state = .down then (d.modEp e (fun x => { x with d3cold := false })).trainGate e else d) d
  else d

def execPerstReleased (g : Fin 8) (s : State) : Host.Outcome State Fault Refusal :=
  actIf (fun d => d.lantern.powered) (fun d => d.perstReleased g.val) s

/-! ## The link -/

/-- A link of a width, a rate and a mode that the endpoint supports (R196, R198): 64 GT/s only in FLIT mode. -/
def Dev.linkOk (d : Dev) (e width rate : Nat) (flit : Bool) : Bool :=
  [1, 2, 4, 8, 16].contains width && decide (width ≤ if d.bifurcated (e / 2) then 8 else 16) && decide (1 ≤ rate ∧ rate ≤ 6) &&
    (flit || decide (rate ≤ 5))

/-- The configuration space becomes ready a while from now, at the latest at a time: when is open (log entry 52). -/
def Dev.readyBy (d : Dev) (e limit : Nat) : Dev :=
  let t := min limit (d.gateNow e + Config.cfgDelay d.free)
  d.draw.modEp e (fun x => { x with readyAt := t })

/-- LINK_ACTIVE (R210, R211): from DOWN after training; after a surprise removal with the actions of a hot reset, uncounted
and with no event but LINK_CHANGE. -/
def Dev.linkActive (d : Dev) (e width rate : Nat) (flit : Bool) : Dev :=
  let x := d.ep e
  let up (d : Dev) : Dev :=
    let d := d.modEp e (fun x => { x with state := .link, linkWidth := width, linkRate := rate, flit := flit, training := false })
    (d.readyBy e ((d.gate (e / 2)).perstAt + 1000000000)).raise (Isl.gate (e / 2)) (Src.ep e 7) 1 0
  if !d.linkOk e width rate flit then d
  else if x.state = .down ∧ x.training then up d
  else if x.state = .stopped ∧ x.linkWidth = 0 then up (d.endpointReset e .link)
  else d

def execLinkActive (ep : Fin 16) (width rate : Nat) (flit : Bool) (s : State) : Host.Outcome State Fault Refusal :=
  actIf (fun d => d.gatesRun && d.epExists ep.val) (fun d => d.linkActive ep.val width rate flit) s

/-- SURPRISE_REMOVAL (R211, 13 R419): unless the loss was announced, the endpoint stops with cause 3 and its tags are
quarantined. It ranks before a stop of the same gate-island tick (R212), so that its cause is the first. -/
def Dev.surpriseRemoval (d : Dev) (e : Nat) : Dev :=
  let x := d.ep e
  if x.state = .down ∨ x.linkWidth = 0 then d
  else if x.d3cold then d.linkLost e
  else
    let d := (d.count (Ctr.surpriseRemovals e)).gateStop e 3
    let d := if x.movedAt = some (d.gateNow e) then d.modEp e (fun x => { x with stopCause := 3 }) else d
    ((d.quarantineTags e).abandonLocal e none).linkLost e

def execSurpriseRemoval (ep : Fin 16) (s : State) : Host.Outcome State Fault Refusal :=
  actIf (fun d => d.gatesRun && d.epExists ep.val) (fun d => d.surpriseRemoval ep.val) s

/-! ## Bus Master Enable and PowerState (R210, R213, R221) -/

/-- The endpoint enters RUN: messages that waited are sent. -/
def Dev.enterRun (d : Dev) (e : Nat) : Dev :=
  ((d.moveEp e .run).syncInta e).flushVectors e

def Dev.bmeSet (d : Dev) (e : Nat) : Dev :=
  let d := d.modEp e (fun x => { x with cfg := { x.cfg with bme := true } })
  let st := (d.ep e).state
  if st = .link ∨ st = .halted then d.enterRun e else d

def execBusMasterEnableSet (ep : Fin 16) (s : State) : Host.Outcome State Fault Refusal :=
  config ep.val (fun d => d.bmeSet ep.val) s

def Dev.bmeClear (d : Dev) (e : Nat) : Dev :=
  let d := d.modEp e (fun x => { x with cfg := { x.cfg with bme := false } })
  if (d.ep e).state = .run then d.barIssue e .halted else d

def execBusMasterEnableClear (ep : Fin 16) (s : State) : Host.Outcome State Fault Refusal :=
  config ep.val (fun d => d.bmeClear ep.val) s

def Dev.toD3hot (d : Dev) (e : Nat) : Dev :=
  match (d.ep e).state with
  | .run => d.barIssue e .d3hot
  | .link | .halted => d.moveEp e .d3hot
  | _ => d

def execPowerStateD3hot (ep : Fin 16) (s : State) : Host.Outcome State Fault Refusal :=
  config ep.val (fun d => d.toD3hot ep.val) s

def Dev.toD0 (d : Dev) (e : Nat) : Dev :=
  if (d.ep e).state ≠ .d3hot then d
  else if (d.ep e).cfg.bme then d.enterRun e
  else d.modEp e (fun x => { x with state := .link })

def execPowerStateD0 (ep : Fin 16) (s : State) : Host.Outcome State Fault Refusal :=
  config ep.val (fun d => d.toD0 ep.val) s

/-- D3COLD_ENTRY: PME_Turn_Off announces that the link is about to go (R211, R221). -/
def execD3coldEntry (ep : Fin 16) (s : State) : Host.Outcome State Fault Refusal :=
  actIf (fun d => d.gatesRun && d.epExists ep.val && (d.ep ep.val).state != .down)
    (fun d => d.modEp ep.val (fun x => { x with d3cold := true })) s

/-! ## Resets and stops -/

/-- R212: what a removal, a stop, a write of PowerState or of Bus Master Enable, which the gate-island tick of a reset orders after
it, makes of the endpoint in LINK. `was` is the endpoint as that event had left it before the reset. -/
def Dev.afterTick (d : Dev) (e : Nat) (was : Endpoint) : Dev :=
  if was.movedAt ≠ some (d.gateNow e) then d else
  match was.state with
  | .stopped => (d.moveEp e .stopped).modEp e (fun x => { x with stopCause := was.stopCause })
  | .d3hot => d.moveEp e .d3hot
  | .run => (d.modEp e (fun x => { x with cfg := { x.cfg with bme := true } })).enterRun e
  | .down | .link | .halted => d

/-- A function-level reset (code 1) or a hot reset (code 2). A hot reset comes over the link: one that is down brings it only in the
tick of the removal, which ranks after it (R212). -/
def Dev.linkReset (d : Dev) (e code : Nat) : Dev :=
  let was := d.ep e
  if was.state = .down ∨ (was.linkWidth = 0 ∧ was.movedAt ≠ some (d.gateNow e)) then d else
  let d := d.count (if code = 1 then Ctr.flrs e else Ctr.hotResets e)
  let d := d.endpointReset e .link
  let d := if code = 1 then d.readyBy e (d.gateNow e + 10000000) else d
  (d.raise (Isl.gate (e / 2)) (Src.ep e 6) code 0).afterTick e was

def execFunctionLevelReset (ep : Fin 16) (s : State) : Host.Outcome State Fault Refusal :=
  config ep.val (fun d => d.linkReset ep.val 1) s

def execHotReset (ep : Fin 16) (s : State) : Host.Outcome State Fault Refusal :=
  actIf (fun d => d.gatesRun && d.epExists ep.val) (fun d => d.linkReset ep.val 2) s

/-- GATE_STOP: GATE_CTRL.GATE_STOP is written 1 (R207). -/
def execGateStop (ep : Fin 16) (s : State) : Host.Outcome State Fault Refusal :=
  actIf (fun d => d.gatesRun && d.epExists ep.val) (fun d => d.gateStop ep.val 1) s

/-! ## BAR4 (R206) -/

/-- The endpoint's BARs answer: its link is up, it is not in D3HOT, and Memory Space Enable is 1 (R221). -/
def Dev.barOpen (d : Dev) (e : Nat) : Bool :=
  let x := d.ep e
  x.state != .down && x.state != .d3hot && x.cfg.memEnable

/-- Bytes of HBM read by a host: what comes back from a stack that does not run is a free value (01 R34; log entry 53). -/
def Dev.stackRead (d : Dev) (r a n : Nat) : Dev × List Byte :=
  if d.hbmRuns r then (d, d.hbmRead r a n)
  else ({ d.crossingDrop r with free := d.free + n }, (List.range n).map (fun i => (Config.deadRead (d.free + i)).setWidth 8))

def accessLen : Access → Nat
  | .read n => n
  | .write data => data.length

/-- How many of the `n` bytes at an offset of BAR4 lie below the end of the host-visible remainder; an access that does not fit is
counted. -/
def Dev.bar4Fit (d : Dev) (e off n : Nat) : Dev × Nat :=
  let size := (d.region (regionOf e)).carve.remainder
  (if size < off + n then d.count (Ctr.bar4Oor e) else d, min n (size - off))

/-- Bytes below the remainder's size are HBM's, the rest read as all ones and are not written. -/
def Dev.bar4 (d : Dev) (e off : Nat) : Access → Dev
  | .read n =>
    let (d, inside) := d.bar4Fit e off n
    let (d, data) := if inside = 0 then (d, []) else d.stackRead (regionOf e) off inside
    d.sendData e (some (data ++ List.replicate (n - inside) 0xFF))
  | .write data =>
    let (d, inside) := d.bar4Fit e off data.length
    if inside = 0 then d
    else if d.hbmRuns (regionOf e) then d.hbmWrite (regionOf e) off (data.take inside)
    else d.crossingDrop (regionOf e)

def Dev.bar4Access (d : Dev) (e off : Nat) (acc : Access) : Dev :=
  if d.barOpen e then d.bar4 e off acc
  else match acc with
    | .read _ => d.sendUr e
    | .write _ => d

def execBar4Access (ep : Fin 16) (off : Nat) (acc : Access) (s : State) : Host.Outcome State Fault Refusal :=
  actIf (fun d => d.gatesRun && d.epExists ep.val) (fun d => d.bar4Access ep.val off acc) s

/-! ## Link power (R222) -/

/-- L1_IDLE of GATE_CTRL in ns. -/
def Endpoint.l1Idle (x : Endpoint) : Nat := 1000 * max 1 (rbits x.gateCtrl 47 32)

def Dev.l1Entry (d : Dev) (e : Nat) : Dev :=
  let x := d.ep e
  if !x.cfg.aspmL1 || x.state == .down || x.linkWidth == 0 || x.l1 || !x.tags.isEmpty || !x.wantTags.isEmpty ||
      decide (d.gateNow e < x.busyAt + x.l1Idle) then d
  else (d.modEp e (fun x => { x with l1 := true })).emit (.pcieL1 e)

def execL1EntryRequest (ep : Fin 16) (s : State) : Host.Outcome State Fault Refusal :=
  actIf (fun d => d.gatesRun && d.epExists ep.val) (fun d => d.l1Entry ep.val) s

/-- L0P_WINDOW: the percentages are of the current width, up and down. The full width is the one at which the link trained, and no
width lies below x1. -/
def Dev.l0pWindow (d : Dev) (e up down : Nat) : Dev :=
  let x := d.ep e
  let min_ := rbits x.gateCtrl 3 2
  if min_ = 0 || !x.cfg.l0p || x.state == .down || x.linkWidth == 0 || decide (d.gateNow e < x.l0pAt + 10000) then d else
  let now := d.gateNow e
  let d := d.modEp e (fun x => { x with l0pAt := now })
  if 75 < up ∨ 75 < down then d.modEp e (fun x => { x with l0pDiv := 1 })
  else if up ≤ 25 ∧ down ≤ 25 ∧ 2 * x.l0pDiv ≤ min (2 ^ min_) x.linkWidth then d.modEp e (fun x => { x with l0pDiv := 2 * x.l0pDiv })
  else d

def execL0pWindow (ep : Fin 16) (upPercent downPercent : Nat) (s : State) : Host.Outcome State Fault Refusal :=
  actIf (fun d => d.gatesRun && d.epExists ep.val) (fun d => d.l0pWindow ep.val upPercent downPercent) s

/-! ## Interrupt configuration (R220) -/

/-- A vector's mask bit is set or cleared; a cleared one sends a pending message that may go. -/
def Dev.maskVector (d : Dev) (e v : Nat) (masked : Bool) : Dev :=
  (d.modEp e (fun x => { x with msix := tput x.msix v { x.vector v with masked := masked } })).flushVectors e

def execMsixVectorUnmask (ep : Fin 16) (vector : Fin 2048) (s : State) : Host.Outcome State Fault Refusal :=
  actIf (fun d => d.gatesRun && d.epExists ep.val && d.barOpen ep.val) (fun d => d.maskVector ep.val vector.val false) s

end Sys2Proof.Machine
end

