-- ==== Sys2Proof/Machine/Routes.lean ====
section
/-! DEFINITION. ROUTE_WRITE, ROUTE_COPY, ROUTE_COMMIT and ROUTE_READ (05 R161 to R166, R559). -/

namespace Sys2Proof.Machine

/-- The regions that bits [3:0] of byte 0 name. -/
def maskRegions (p : List Byte) : List Nat := setBits (byteAt p 0) 4

/-- Region r can be served (R559): its Belfry island runs and it is not in reset. -/
def Dev.routesRun (d : Dev) (r : Nat) : Bool := bit d.warden.belfry r && (d.region r).state != .resetting

/-- Entries of a table: the group table's, or the destination-router table's (R145). -/
def routeEntries (group : Bool) : Nat := if group then 1024 else 16384

/-- INDEX and COUNT lie in the table (R161, R164). -/
def routeRanged (p : List Byte) : Bool :=
  decide (1 ≤ byteAt p 4 ∧ byteAt p 4 ≤ 64 ∧ field p 2 2 + byteAt p 4 ≤ routeEntries (bit (byteAt p 0) 4))

/-- One entry of a bank; an entry of 0 is not listed. -/
def putEntry (t : Tbl Nat) (i e : Nat) : Tbl Nat := if e = 0 then tdrop t i else tput t i e

/-- An entry written into a bank of a region. -/
def Banks.write (b : Banks) (staging group : Bool) (i e : Nat) : Banks :=
  match staging, group with
  | true, true => { b with groupStaging := putEntry b.groupStaging i e }
  | true, false => { b with routerStaging := putEntry b.routerStaging i e }
  | false, true => { b with group := putEntry b.group i e }
  | false, false => { b with router := putEntry b.router i e }

/-- An entry of a bank as it is read. -/
def Banks.read (b : Banks) (staging group : Bool) (i : Nat) : Nat :=
  tgetD (match staging, group with
    | true, true => b.groupStaging
    | true, false => b.routerStaging
    | false, true => b.group
    | false, false => b.router) i 0

/-! ## ROUTE_WRITE (R161, R166) -/

def routeWriteForm : Form :=
  { opcode := 0x0501, len := fun p => 8 + 32 * byteAt p 4, zero := [(5, 15), (40, 63)], ranged := routeRanged,
    replyLen := fun _ => 0, down := fun _ _ => false }

/-- COUNT entries written in one region. LIVE_WRITE is the region's own copy of PILOT_CTRL. -/
def Dev.writeEntries (d : Dev) (r : Nat) (p : List Byte) : Dev :=
  let staging := !(d.region r).chip.liveWrite
  forEach (List.range (byteAt p 4)) (fun k d =>
    let f (b : Banks) : Banks := b.write staging (bit (byteAt p 0) 4) (field p 2 2 + k) (field p (8 + 32 * k) 32)
    d.modRegion r (fun x => { x with banks := f x.banks })) d

def Dev.routeWrite (d : Dev) (q : Request) : Dev × Answer :=
  let p := q.params
  if (maskRegions p).isEmpty || !routeRanged p then (d, .done Ocm.invalidParameter [])
  else if !(maskRegions p).all d.routesRun then (d, .done Ocm.targetDown [])
  else (forEach (maskRegions p) (fun r d => d.writeEntries r p) d, .done Ocm.ok [])

def execRouteWrite (path : Path) (tag : Nat) (s : State) : Host.Outcome State Fault Refusal :=
  command routeWriteForm path tag Dev.routeWrite s

/-! ## ROUTE_COPY (R162) -/

def Banks.copy (b : Banks) : Banks := { b with routerStaging := b.router, groupStaging := b.group }

def Dev.routeCopy (d : Dev) (q : Request) : Dev × Answer :=
  let rs := maskRegions q.params
  if rs.isEmpty then (d, .done Ocm.invalidParameter [])
  else if !rs.all d.routesRun then (d, .done Ocm.targetDown [])
  else (forEach rs (fun r d => d.modRegion r (fun x => { x with banks := x.banks.copy })) d, .done Ocm.ok [])

def execRouteCopy (path : Path) (tag : Nat) (s : State) : Host.Outcome State Fault Refusal :=
  command (Form.fixed 0x0502 8 [(4, 63)] 0) path tag Dev.routeCopy s

/-! ## ROUTE_COMMIT (R163) -/

def Banks.swap (b : Banks) : Banks :=
  ⟨b.routerStaging, b.groupStaging, b.router, b.group⟩

/-- A region that swaps: its Belfry island runs and it is neither in drain nor in reset. -/
def Dev.commits (d : Dev) (r : Nat) : Bool := bit d.warden.belfry r && (d.region r).state == .run

/-- A free value within the window of 2 µs: when a region swaps. -/
def Dev.swapTick (d : Dev) : Nat := d.wardenNow + Config.swapOffset d.free % 2000

/-- The regions given are to swap for a command, each at a tick of its own. -/
def Dev.planSwaps (path : Path) (tag : Nat) : List Nat → Dev → Dev
  | [], d => d
  | r :: rs, d =>
    let t := d.swapTick
    Dev.planSwaps path tag rs (d.draw.modRegion r (fun x => { x with swaps := x.swaps ++ [(t, path, tag)] }))

/-- The command goes on until every region has swapped: what it works on is the mask of REGION_MASK and its reply so far. -/
def Dev.routeCommit (d : Dev) (q : Request) : Dev × Answer :=
  let rs := maskRegions q.params
  if rs.isEmpty then (d, .done Ocm.invalidParameter [])
  else if d.chip.liveWrite then (d, .done Ocm.wrongState [])
  else
    let go := rs.filter d.commits
    if go.isEmpty then (d, .done Ocm.wrongState (zeros 40))
    else (Dev.planSwaps q.path q.tag go d, .runs (bits (byteAt q.params 0) 3 0) 0 (zeros 40))

def execRouteCommit (path : Path) (tag : Nat) (s : State) : Host.Outcome State Fault Refusal :=
  command (Form.fixed 0x0503 8 [(4, 63)] 40) path tag Dev.routeCommit s

/-- The banks of one region swap, and the command's reply says when (R163). -/
def Dev.swapBanks (d : Dev) (r : Nat) (path : Path) (tag : Nat) : Dev :=
  let now := d.belfryNow r
  let d := (d.count (Ctr.commits r)).raise (Isl.belfry r) (Src.region r 19) 0 0
  let d := d.modRegion r (fun x => { x with banks := x.banks.swap })
  d.modExec path tag (fun x =>
    let data := putBytes x.data 0 (leBytes 1 (byteAt x.data 0 + 2 ^ r))
    { x with data := putBytes data (8 + 8 * r) (leBytes 8 now) })

/-- A command whose last region has swapped, or will not swap any more, completes: with every region of its mask, or with
WRONG_STATE. -/
def Dev.commitEnd (d : Dev) (path : Path) (tag : Nat) : Dev :=
  if allRegions.any (fun r => (d.region r).swaps.any (fun s => s.2 == (path, tag))) then d else
  match d.warden.exec path tag with
  | none => d
  | some x => d.finish path tag (if byteAt x.data 0 = x.a then Ocm.ok else Ocm.wrongState) x.data

/-- One planned swap of a region comes due, or is dropped since the region is no longer one that swaps. -/
def Dev.endSwap (d : Dev) (r : Nat) (s : Nat × Path × Nat) (swap : Bool) : Dev :=
  let d := d.modRegion r (fun x => { x with swaps := x.swaps.erase s })
  (if swap then d.swapBanks r s.2.1 s.2.2 else d).commitEnd s.2.1 s.2.2

/-- The swaps of a region whose tick has come (R163). -/
def Dev.dueSwaps (d : Dev) (r : Nat) : Dev :=
  forEach ((d.region r).swaps.filter (fun s => decide (s.1 ≤ d.belfryNow r))) (fun s d => d.endSwap r s (d.commits r)) d

/-- A region that is reset swaps no more. -/
def Dev.dropSwaps (d : Dev) (r : Nat) : Dev := forEach (d.region r).swaps (fun s d => d.endSwap r s false) d

/-! ## ROUTE_READ (R164) -/

def routeReadForm : Form :=
  { opcode := 0x0504, len := fun _ => 8, zero := [(2, 3), (6, 15), (40, 63)], ranged := routeRanged,
    replyLen := fun p => 32 * byteAt p 4, down := fun _ _ => false }

def Dev.routeRead (d : Dev) (q : Request) : Answer :=
  let p := q.params
  let r := bits (byteAt p 0) 1 0
  if !routeRanged p then .done Ocm.invalidParameter []
  else if !d.routesRun r then .done Ocm.targetDown []
  else .done Ocm.ok ((List.range (byteAt p 4)).flatMap (fun k =>
    leBytes 32 ((d.region r).banks.read (bit (byteAt p 0) 5) (bit (byteAt p 0) 4) (field p 2 2 + k))))

def execRouteRead (path : Path) (tag : Nat) (s : State) : Host.Outcome State Fault Refusal :=
  reading routeReadForm path tag Dev.routeRead s

end Sys2Proof.Machine
end

