-- ==== Sys2Proof/Machine/Repair.lean ====
section
/-! DEFINITION. Regions (15 R484 to R488): REGION_DRAIN, REGION_RESET, REGION_RESUME, and how a drain and a reset end. -/

namespace Sys2Proof.Machine

/-- A region's state changes, with its event (18 R545). -/
def Dev.setRState (d : Dev) (r : Nat) (st : RState) : Dev :=
  let code : Nat := match st with
    | .run => 0
    | .draining => 1
    | .drained => 2
    | .resetting => 3
    | .ready => 4
  (d.modRegion r (fun x => { x with state := st })).raise Isl.warden (Src.region r 17) code 0

/-- The live masks of every region brought up to date for a region's ports (05 R157). -/
def Dev.relive (d : Dev) (r : Nat) : Dev := forEach (portsOf r) (fun p d => d.setLive r p) d

/-- A command of a region: every state of a region whose Belfry runs is for the command itself to answer (R485 to R487). -/
def regionForm (opcode len : Nat) (zero : List (Nat × Nat)) (reply : Nat) : Form :=
  { Form.fixed opcode len zero reply with down := fun d q => !d.belfryRuns q.index }

/-! ## REGION_DRAIN (R485) -/

def Dev.regionDrain (d : Dev) (q : Request) : Dev × Answer :=
  let r := q.index
  let t := field q.params 0 4
  if t = 0 ∨ 1000000 < t then (d, .done Ocm.invalidParameter [])
  else if (d.region r).state != .run then (d, .done Ocm.wrongState [])
  else
    let ends := d.belfryNow r + 1000 * t
    (((d.setRState r .draining).modRegion r (fun x => { x with drainEnd := ends })).relive r, .runs r 0 [])

def execRegionDrain (path : Path) (tag : Nat) (s : State) : Host.Outcome State Fault Refusal :=
  command (regionForm 0x0F20 8 [(32, 63)] 8) path tag Dev.regionDrain s

/-- Egress cells, and units that no acknowledgement covers, over a region's ports. -/
def Dev.egressLeft (d : Dev) (r : Nat) : Nat := (portsOf r).foldl (fun n p => n + (d.port p).egressBytes / 128) 0
def Dev.unitsLeft (d : Dev) (r : Nat) : Nat :=
  (portsOf r).foldl (fun n p => let t := (d.port p).toll; n + seqDist t.peerAck t.nextSeq) 0

/-- Every egress queue is empty and every unit acknowledged. -/
def Dev.emptied (d : Dev) (r : Nat) : Bool := (portsOf r).all (fun p => (d.port p).egress.isEmpty) && d.unitsLeft r == 0

/-- REGION_DRAINED. -/
def Dev.regionDrained (d : Dev) (r : Nat) : Dev :=
  let x := d.region r
  if x.state != .draining || !(d.emptied r || decide (x.drainEnd ≤ d.belfryNow r)) then d else
  let d := (d.setRState r .drained).count (Ctr.regionDrains r)
  d.finishAll 0x0F20 r 0 Ocm.ok (leBytes 4 (d.egressLeft r) ++ leBytes 4 (d.unitsLeft r))

def execRegionDrained (r : Fin 4) (s : State) : Host.Outcome State Fault Refusal :=
  actIf (fun d => d.regionRuns r.val) (fun d => d.regionDrained r.val) s

/-- A drain that CMD_ABORT stops (R446, R484): the region returns to RUN. -/
def Dev.drainAbort (d : Dev) (r : Nat) : Dev := ((d.setRState r .run).relive r).finishAll 0x0F20 r 0 Ocm.aborted []

/-! ## REGION_RESET (R486) -/

/-- Step 1: an endpoint of the region stops, and its tags are quarantined; step 4 takes its state as R215 lists, but not
its link or its configuration space. -/
def Dev.resetEndpoint (d : Dev) (e : Nat) : Dev :=
  let d := d.gateStop e 1
  let was := d.ep e
  (d.endpointReset e was.state).modEp e (fun x =>
    { x with keys := [], stopCause := was.stopCause, cfg := was.cfg, inta := was.inta, l0pDiv := was.l0pDiv, l1 := was.l1 })

/-- Steps 2 and 3 for the Buttress: packets that were crossing into the region are discarded where they came from
(01 R34); those crossing out of it are truncated (05 R142). -/
def Dev.cutButtress (d : Dev) (r : Nat) : Dev :=
  let d := forEach (d.region r).crossing (fun c d =>
    (d.crossingDrop c.srcRegion).release r c.input c.vc c.id c.flits 0) d
  let d := forEach (allRegions.filter (fun q => q != r)) (fun q d =>
    forEach ((d.region q).crossing.filter (fun c => c.srcRegion == r)) (fun c d => d.disposeTruncated q c.id .here) d) d
  forEach (allRegions.filter (fun q => q != r && d.buttressRuns r q)) (fun q d =>
    (d.raise (Isl.belfry r) (Src.region r 18) 0 q).raise (Isl.belfry q) (Src.region q 18) 0 r) d

/-- Step 2 at a port, and its reset. -/
def Dev.resetPort (d : Dev) (p : Nat) : Dev :=
  let x := d.port p
  let d := if x.train.state = .up then d.raise (Isl.belfry (p / 32)) (Src.port p 0) causeRequest 0 else d
  let d := if x.train.state = .disabled then d else d.emit (.ckOut p 0)
  d.setPort p Port.reset

/-- The pointers that a region reset sets to 0 outside the region's own record: the injection pointers of its gates, and those of
its Buttress directions to other regions (00 R17). -/
def Dev.zeroPointers (d : Dev) (r : Nat) : Dev :=
  let d := forEach [2 * r, 2 * r + 1] (fun g d => d.modGate g (fun x => { x with injectPtr := 0 })) d
  forEach (allRegions.filter (fun q => q != r)) (fun q d =>
    d.modRegion q (fun x => { x with buttressPtr := tdrop x.buttressPtr r })) d

/-- A block of the region as its reset leaves it: a block with engine code is to load it again (step 7). -/
def Dev.resetBlock (d : Dev) (b : Nat) : Dev :=
  let x := d.block b
  let d := d.modBlock b (fun _ => { Block.reset with state := x.state, version := x.version, code := x.code })
  if x.state = .off ∧ d.boot.engineFail then d else d.setBlock b .resetting

/-- A region's own record after a reset; the copies of the chip-level registers come with its restart. -/
def Region.afterReset (x : Region) (carve : Carve) (forced : Bool) (lost : Nat) : Region :=
  { Region.reset with state := x.state, forced := forced, cellsLost := lost, carve := carve, prior := x.prior, lastPends := x.lastPends }

/-- Steps 1 to 5. -/
def Dev.regionReset (d : Dev) (r : Nat) (forced : Bool) : Dev :=
  let d := d.finishAll 0x0F20 r 0 Ocm.aborted []
  let d := forEach (blocksOf r) (fun b d => d.blockAbort b) d
  let lost := (d.region r).cellsUsed
  let d := forEach ((epsOf r).filter d.epExists) (fun e d => d.resetEndpoint e) d
  let d := d.zeroPointers r
  let d := d.dropSwaps r
  let d := d.cutButtress r
  let d := forEach (portsOf r) (fun p d => d.resetPort p) d
  let d := d.setRState r .resetting
  let carve := d.boot.carve
  let d := d.modRegion r (fun x => x.afterReset carve forced lost)
  let d := if carve.shrunk then d.raise (Isl.belfry r) (Src.region r 20) 0 0 else d
  forEach (blocksOf r) (fun b d => d.resetBlock b) d

def Dev.regionResetCmd (d : Dev) (q : Request) : Dev × Answer :=
  let r := q.index
  let force := bit (byteAt q.params 0) 0
  match (d.region r).state with
  | .draining | .drained => (d.regionReset r force, .runs r 0 [])
  | .run => if force then (d.regionReset r true, .runs r 0 []) else (d, .done Ocm.wrongState [])
  | _ => (d, .done Ocm.wrongState [])

def execRegionReset (path : Path) (tag : Nat) (s : State) : Host.Outcome State Fault Refusal :=
  command (regionForm 0x0F21 8 [(1, 63)] 8) path tag Dev.regionResetCmd s

/-! ## REGION_READY -/

/-- Bits [lo, lo + n) of a mask cleared, but for those that a test leaves set. -/
def retest (mask lo n : Nat) (bad : Nat → Bool) : Nat :=
  (List.range n).foldl (fun m i => if bit m (lo + i) && !bad (lo + i) then putBit m (lo + i) false else m) mask

/-- Cells by the numbers of 14 R428: engine e is e, lane 9p + l is 1,024 + 9p + l; the input cell of crossbar port x of
region q is 2,176 + 64q + x. Quarantines that the re-test passes are cleared, spares are free again (step 6). -/
def Quarantine.retested (z : Quarantine) (r : Nat) (stillBad : List Nat) : Quarantine :=
  { engines := retest z.engines (256 * r) 256 (fun i => stillBad.contains i),
    lanes := retest z.lanes (288 * r) 288 (fun i => stillBad.contains (1024 + i)),
    inputs := retest z.inputs (64 * r) 64 (fun i => stillBad.contains (2176 + i)),
    spares := tdropRange z.spares (65536 * r) (65536 * (r + 1)),
    copying := z.copying.filter (fun c => c.1 != r), failed := z.failed.filter (fun c => c.1 != r) }

/-- Steps 6 to 8: the islands restart, every block runs its version (those of a device whose engines have no code yet wait for ENGINE_CODE_LOAD, 17 R516), and the region enters READY. An abort that waited
takes effect now. -/
def Dev.regionReady (d : Dev) (r : Nat) (stillBad : List Nat) : Dev :=
  if (d.region r).state != .resetting then d else
  let d := { d with quarantine := d.quarantine.retested r stillBad }
  let d := d.startRegion r
  let d := forEach (blocksOf r) (fun b d =>
    if (d.block b).state = .resetting ∧ d.boot.engineLoaded then d.runLoaded b else d) d
  let d := forEach (allRegions.filter (fun q => q != r && d.buttressRuns r q)) (fun q d =>
    (d.raise (Isl.belfry r) (Src.region r 18) 0 q).raise (Isl.belfry q) (Src.region q 18) 0 r) d
  let d := (d.setRState r .ready).count (Ctr.regionResets r)
  let d := forEach (List.range 128) (fun p d => d.setLive r p) d
  let lost := leBytes 8 (d.region r).cellsLost
  forEach (d.warden.executing.filter (fun x => x.opcode == 0x0F21 && x.a == r)) (fun x d =>
    if x.aborting then d.finish x.req.path x.req.tag Ocm.aborted []
    else d.finish x.req.path x.req.tag Ocm.ok lost) d

def execRegionReady (r : Fin 4) (stillBad : List Nat) (s : State) : Host.Outcome State Fault Refusal :=
  actIf (fun d => d.belfryRuns r.val) (fun d => d.regionReady r.val stillBad) s

/-! ## REGION_RESUME (R487) -/

def Dev.regionResume (d : Dev) (q : Request) : Dev × Answer :=
  let r := q.index
  match (d.region r).state with
  | .drained | .ready => ((d.setRState r .run).relive r, .done Ocm.ok [])
  | _ => (d, .done Ocm.wrongState [])

def execRegionResume (path : Path) (tag : Nat) (s : State) : Host.Outcome State Fault Refusal :=
  command (regionForm 0x0F22 0 [] 0) path tag Dev.regionResume s

end Sys2Proof.Machine
end

