-- ==== Sys2Proof/Machine/Aborts.lean ====
section
/-! DEFINITION. INTERIM_SEND and CMD_ABORT (14 R445, R446): what an executing command says of itself, and how a detached command
is stopped at the safe point of its chapter (15 R481, R484, R486). -/

namespace Sys2Proof.Machine

/-! ## INTERIM_SEND (R445) -/

/-- The time of an executing command's next INTERIM. -/
def Warden.nextInterim (w : Warden) (x : Exec) : Nat := x.started + w.interimPeriod * (x.interims + 1)

/-- INTERIM_SEND: DONE and TOTAL are 0, since no chapter gives units of progress (R426). Bellrope carries no INTERIM (R437). -/
def Dev.interimSend (d : Dev) (path : Path) (tag : Nat) : Dev :=
  match d.warden.exec path tag with
  | none => d
  | some x =>
    if path = .bellrope ∨ d.wardenNow < d.warden.nextInterim x then d
    else
      let d := (d.count Ctr.interimsSent).modExec path tag (fun x => { x with interims := x.interims + 1 })
      d.sendReply x.req 3 Ocm.running (zeros 8)

def execInterimSend (path : Path) (tag : Nat) (s : State) : Host.Outcome State Fault Refusal :=
  actIf Dev.wardenRuns (fun d => d.interimSend path tag) s

/-! ## CMD_ABORT (R446) -/

/-- The detached command of a path that an abort names. -/
def Dev.abortable (d : Dev) (path : Path) (tag : Nat) : Option Exec :=
  (d.warden.exec path tag).filter (fun x => x.detached)

/-- The command is stopped at its safe point: a block before RESETTING, a drain at once, the reset of a
region or of a block that is RESETTING at its end (log entry 23), any other at once, between two of its steps. -/
def Dev.abortExec (d : Dev) (x : Exec) : Dev :=
  let block := x.opcode == 0x0F10 || x.opcode == 0x0F11
  if block && (d.block x.a).state == .migrating then (d.setBlock x.a .run).finish x.req.path x.req.tag Ocm.aborted []
  else if x.opcode = 0x0F20 then d.drainAbort x.a
  else if block || x.opcode == 0x0F21 then d.modExec x.req.path x.req.tag (fun x => { x with aborting := true })
  else d.finish x.req.path x.req.tag Ocm.aborted []

/-- TAG, in bytes 0–1. -/
def abortTag (p : List Byte) : Nat := field p 0 2

def Dev.cmdAbort (d : Dev) (q : Request) : Dev × Answer :=
  match d.abortable q.path (abortTag q.params) with
  | none => (d, .done Ocm.wrongState [])
  | some x => (if x.aborting then d.abortExec x else (d.abortExec x).count Ctr.cmdsAborted, .done Ocm.ok [])

def execCmdAbort (path : Path) (tag : Nat) (s : State) : Host.Outcome State Fault Refusal :=
  command (Form.fixed 0x0E06 8 [(16, 63)] 0) path tag Dev.cmdAbort s

end Sys2Proof.Machine
end

