-- ==== Sys2Proof/Machine/Bellrope.lean ====
section
/-! DEFINITION. Bellrope (16 R505 to R508): address matches, requests, answers, and long nulls. -/

namespace Sys2Proof.Machine

/-! ## Symbols (R505) -/

/-- The levels of BR_D0 and BR_D1 during a symbol's first half; both are low in the null that follows. -/
def ropeRails : RopeSym → Bool × Bool
  | .zero => (true, false)
  | .one => (false, true)
  | .dlm => (true, true)

/-- A bit as a symbol, and bytes as symbols, bit 0 first (R506). -/
def bitSym (b : Bool) : RopeSym := if b then .one else .zero
def bytesSyms (bs : List Byte) : List RopeSym := bs.flatMap (fun x => (List.range 8).map (fun i => bitSym (x.getLsbD i)))

/-- The symbols of a request, from LEN to the DLM that ends it. -/
def requestSyms (bytes : List Byte) : List RopeSym := bytesSyms (leBytes 2 bytes.length) ++ bytesSyms bytes ++ [.dlm]

/-- The number that symbols spell, the first its bit 0, and the bytes. -/
def symsNat (xs : List RopeSym) : Nat := xs.foldr (fun x n => 2 * n + (if x = .one then 1 else 0)) 0
def symsBytes : Nat → List RopeSym → List Byte
  | 0, _ => []
  | n + 1, xs => BitVec.ofNat 8 (symsNat (xs.take 8)) :: symsBytes n (xs.drop 8)

/-- BR_ACK is driven from the device's own match to the end of the frame (R505), low between acknowledgements. -/
def Dev.setRope (d : Dev) (x : Rope) : Dev :=
  d.modLantern (fun l =>
    { l with rope := x,
             brAck := match x with
               | .idle | .ignoring _ => none
               | _ => some false })

/-- A symbol's four-phase acknowledgement: BR_ACK high, then low (R506). -/
def fourPhase : List Bool := [true, false]
def fourPhases (n : Nat) : List Bool := (List.range n).flatMap (fun _ => fourPhase)

/-- A Bellrope wake would be registered now and not lost (16 R496, R497, R503, R504). -/
def Dev.ringTakes (d : Dev) : Bool :=
  let l := d.lantern
  match l.entering with
  | some e =>
    l.wakeEnabled 2 0 && (match e.window with
      | none => true
      | some w => decide (w + 320 ≤ d.lanternNow))
  | none => l.accepts 2 0

/-- The device is in P2 or P3, or on its way there: WAKE counts. -/
def Dev.wakeCounts (d : Dev) : Bool := decide (2 ≤ d.lantern.state) || d.lantern.entering.isSome

/-- The match is acknowledged. -/
def Dev.ropeAck (d : Dev) : Dev := (d.setRope .matched).emit (.brAck fourPhase)

/-- BELLROPE_ADDRESS_MATCH (R506, R511): the address phase of a frame ends. With WAKE 1 outside P0, the match is
acknowledged only when the wake is registered. A frame of another address is ignored up to its third DLM; its first came before
the address. -/
def Dev.ropeMatch (d : Dev) (addr : Nat) (wake : Bool) : Dev :=
  if d.lantern.rope ≠ .idle then d
  else if addr ≠ d.lantern.brAddr then d.setRope (.ignoring 1)
  else
    let d := d.count Ctr.brFrames
    if wake && d.wakeCounts then
      let takes := d.ringTakes
      let d := d.wake 2 0
      if takes then d.ropeAck else d
    else d.ropeAck

def execBellropeAddressMatch (addr : BitVec 7) (wake : Bool) (s : State) : Host.Outcome State Fault Refusal :=
  actIf Dev.lanternRuns (fun d => d.ropeMatch addr.toNat wake) s

/-- A device that has not matched counts the DLMs of a frame; the third ends it (R506). -/
def Dev.countDlms (d : Dev) (seen new : Nat) : Dev := d.setRope (if 3 ≤ seen + new then .idle else .ignoring (seen + new))

/-- The bytes of a request whose LEN agrees with the symbols up to the DLM, and with the packet's own length: its header, PARAM_LEN
and trailer (R508, 14 R425); none: a bad frame. -/
def requestBytes (symbols : List RopeSym) : Option (List Byte) :=
  let bits := symbols.takeWhile (fun x => x != .dlm)
  let n := symsNat (bits.take 16)
  let bytes := symsBytes n (bits.drop 16)
  if bits.length = 16 + 8 * n ∧ symbols.length = bits.length + 1 ∧ 16 ≤ n ∧
      n = 16 + Ocm.paramLen bytes + (if Ocm.signed bytes then 128 else 0) then some bytes else none

/-- A good request goes to the Warden's intake. -/
def Dev.ropeTake (d : Dev) (bytes : List Byte) : Dev :=
  let q : Request := ⟨.bellrope, d.wardenNow, bytes, none, 0, 0⟩
  let n := d.counter Ctr.cmdsReceived
  let d := (d.setRope (.waiting (some q.tag))).register q
  if d.counter Ctr.cmdsReceived = n ∧ d.lantern.rope = .waiting (some q.tag) then d.setRope (.waiting none) else d

/-- BELLROPE_REQUEST (R437, R506, R508): each symbol of the request is acknowledged as it is registered; the acknowledgement of
the DLM waits for the answer. -/
def Dev.ropeRequest (d : Dev) (symbols : List RopeSym) : Dev :=
  match d.lantern.rope with
  | .ignoring n => d.countDlms n (symbols.filter (fun x => x == .dlm)).length
  | .matched =>
    let d := d.emit (.brAck (fourPhases (symbols.takeWhile (fun x => x != .dlm)).length))
    match requestBytes symbols with
    | none => (d.count Ctr.brBadFrames).setRope (.answer (leBytes 2 0))
    | some bytes => d.ropeTake bytes
  | _ => d

def execBellropeRequest (symbols : List RopeSym) (s : State) : Host.Outcome State Fault Refusal :=
  actIf Dev.lanternRuns (fun d => d.ropeRequest symbols) s

/-- BR_ACK over an answer: the acknowledgement of the DLM that ended the request, each bit under its strobe and low after it, and
the acknowledgement of the last DLM (R506, R508). -/
def answerLevels (bytes : List Byte) : List Bool :=
  fourPhase ++ (bytesSyms bytes).flatMap (fun x => [x == .one, false]) ++ fourPhase

/-- BELLROPE_ANSWER (R508): the answer is strobed out, and the frame ends with its last DLM. -/
def Dev.ropeAnswer (d : Dev) : Dev :=
  match d.lantern.rope with
  | .answer bytes => ((d.emit (.bellrope bytes)).emit (.brAck (answerLevels bytes))).setRope .idle
  | .ignoring n => d.countDlms n 1
  | _ => d

def execBellropeAnswer (s : State) : Host.Outcome State Fault Refusal := actIf Dev.lanternRuns Dev.ropeAnswer s

/-- BELLROPE_LONG_NULL (R505): a null of 100 µs or more. -/
def execBellropeLongNull (ns : Nat) (s : State) : Host.Outcome State Fault Refusal :=
  actIf (fun d => d.lanternRuns && decide (100000 ≤ ns)) (fun d => d.setRope .idle) s

end Sys2Proof.Machine
end

