-- ==== Sys2Proof/Machine/Cages.lean ====
section
/-! DEFINITION. The cages: scan frames (02 R67, R68), CAGE_SET, CAGE_STATUS and power faults (14 R453, R454). -/

namespace Sys2Proof.Machine

def allCages : List Nat := List.range 128

/-! ## Outputs -/

/-- The output nibble of a cage (02 R67). -/
def Cage.nibble (c : Cage) : Nat := pack [(b2n c.pwrEn, 1), (c.ind, 2), (0, 1)]

/-- The 512 bits shifted out: cage 0 first, bit 0 of each cage first. -/
def Dev.frameOut (d : Dev) : BitVec 512 := BitVec.ofNat 512 (pack (allCages.map (fun c => ((d.cage c).nibble, 4))))

/-- PWR_EN set to 1: FAULT clears, and CAGE_PG_WAIT runs from the time it becomes 1. -/
def Cage.powerOn (c : Cage) (now : Nat) : Cage :=
  { c with pwrEn := true, fault := false, since := if c.pwrEn then c.since else now }

/-- A CAGE_SET (14 R453) on one cage. -/
def Cage.set (c : Cage) (p : List Byte) (now : Nat) : Cage :=
  let x := byteAt p 16
  let c := if bit x 0 then (if !bit x 1 then { c with pwrEn := false } else if c.present then c.powerOn now else c) else c
  if bit x 2 then { c with ind := bits x 4 3 } else c

/-- The cages a CAGE_SET selects, and those of them it skips. -/
def cageMask (p : List Byte) : List Nat := setBits (field p 0 16) 128
def Dev.cageSkips (d : Dev) (p : List Byte) : Nat :=
  if bit (byteAt p 16) 0 && bit (byteAt p 16) 1 then
    (cageMask p).foldl (fun m c => if (d.cage c).present then m else m + 2 ^ c) 0
  else 0

/-! ## Inputs -/

/-- A power fault (14 R454). -/
def Dev.cageFault (d : Dev) (c : Nat) : Dev :=
  (d.modCage c (fun x => { x with pwrEn := false, fault := true })).raise Isl.warden (Src.cage c 1) 0 0

/-- An input bit as registered: a value that arrives in two frames in a row (02 R68). -/
def inputBit (was : Bool) (last now i : Nat) : Bool := if bit now i == bit last i then bit now i else was

/-- The input nibble of a cage arrives (02 R68, 14 R454, 18 R545). -/
def Dev.cageInput (d : Dev) (c n : Nat) : Dev :=
  let x := d.cage c
  let present := inputBit x.present x.last n 0
  let good := inputBit x.pwrGood x.last n 1
  let attn := inputBit x.attn x.last n 2
  let d := d.modCage c (fun y => { y with present := present, pwrGood := good, attn := attn, last := n,
                                          dropPower := y.present && !present })
  let d := if present != x.present || attn != x.attn then
      d.raise Isl.warden (Src.cage c 0) (b2n present + 2 * b2n attn) 0 else d
  if x.pwrGood && !good && x.pwrEn then d.cageFault c else d

/-! ## Frames -/

/-- The CAGE_SET commands that wait for a frame. -/
def Warden.cageSets (w : Warden) : List Exec := w.executing.filter (fun x => x.opcode == 0x0E10)

/-- CAGE_SCAN_FRAME: outputs as commands and removals leave them, the inputs, and the replies of the commands. -/
def Dev.cageScanFrame (d : Dev) (din : Nat) : Dev :=
  let now := d.wardenNow
  let sets := d.warden.cageSets
  let (d, done) := sets.foldl (fun (s : Dev × List (Exec × Nat)) x =>
    let p := x.req.params
    (forEach (cageMask p) (fun c d => d.modCage c (fun y => y.set p now)) s.1, s.2 ++ [(x, s.1.cageSkips p)])) (d, [])
  let d := forEach allCages (fun c d =>
    if (d.cage c).dropPower then d.modCage c (fun y => { y with pwrEn := false, dropPower := false }) else d) d
  let d := d.emit (.cageFrame d.frameOut)
  let d := forEach allCages (fun c d => d.cageInput c (bits din (4 * c + 3) (4 * c))) d
  forEach done (fun x d => d.finish x.1.req.path x.1.req.tag Ocm.ok (leBytes 16 x.2)) d

def execCageScanFrame (din : BitVec 512) (s : State) : Host.Outcome State Fault Refusal :=
  actIf Dev.gatesRun (fun d => d.cageScanFrame din.toNat) s

/-- CAGE_PG_TIMEOUT (14 R454): CAGE_PG_WAIT has passed since PWR_EN became 1 without PWR_GOOD. -/
def Dev.cagePgTimeout (d : Dev) (c : Nat) : Dev :=
  let x := d.cage c
  if x.pwrEn && !x.pwrGood && decide (x.since + d.warden.cagePgWait ≤ d.wardenNow) then d.cageFault c else d

def execCagePgTimeout (cage : Fin 128) (s : State) : Host.Outcome State Fault Refusal :=
  actIf Dev.wardenRuns (fun d => d.cagePgTimeout cage.val) s

/-! ## Commands -/

/-- CAGE_SET executes until the next frame. -/
def Dev.cageSet (d : Dev) (_ : Request) : Dev × Answer :=
  if d.gatesRun then (d, .runs 0 0 []) else (d, .done Ocm.wrongState [])

def execCageSet (path : Path) (tag : Nat) (s : State) : Host.Outcome State Fault Refusal :=
  command (Form.fixed 0x0E10 24 [(133, 191)] 16) path tag Dev.cageSet s

/-- A cage's byte of CAGE_STATUS. -/
def Cage.status (c : Cage) : Nat :=
  pack [(b2n c.present, 1), (b2n c.pwrGood, 1), (b2n c.attn, 1), (b2n c.pwrEn, 1), (c.ind, 2), (b2n c.fault, 1)]

def Dev.cageStatus (d : Dev) (_ : Request) : Answer := .done Ocm.ok (allCages.flatMap (fun c => leBytes 1 (d.cage c).status))

def execCageStatus (path : Path) (tag : Nat) (s : State) : Host.Outcome State Fault Refusal :=
  reading (Form.fixed 0x0E11 0 [] 128) path tag Dev.cageStatus s

end Sys2Proof.Machine
end

