-- ==== Sys2Proof/Machine/Twins.lean ====
section
/-! DEFINITION. Twin pairs (15 R461 to R478): heartbeats, death, takeover, fencing, and the commands TWIN_SET,
TWIN_STATUS, TWIN_TAKEOVER and TWIN_HEARTBEAT. -/

namespace Sys2Proof.Machine

/-! ## TWIN_CFG and TWIN_INFO (R478) -/

def Twin.auto (t : Twin) : Bool := rbit t.cfg 1
def Twin.fabricHb (t : Twin) : Bool := rbit t.cfg 2
def Twin.portA (t : Twin) : Nat := rbits t.cfg 9 3
def Twin.portB (t : Twin) : Nat := rbits t.cfg 16 10
def Twin.peerRouter (t : Twin) : Nat := rbits t.cfg 30 17
/-- In ns. -/
def Twin.period (t : Twin) : Nat := 1000 * rbits t.cfg 40 31
def Twin.deadTime (t : Twin) : Nat := 1000 * rbits t.cfg 56 41

def PairState.code : PairState → Nat
  | .off => 0
  | .joining => 1
  | .paired => 2
  | .taken => 3
  | .fenced => 4

def Twin.info (t : Twin) : Nat :=
  pack [(t.state.code, 3), (b2n t.peerDead, 1), (b2n t.peerHeard, 1), (t.fenceCause, 3), (t.epochOwn, 8), (t.epochAlt, 8),
    (t.peerEpoch, 8), (t.peerState, 3), (t.peerSeq, 16)]

/-- TWIN_MAP_LO or TWIN_MAP_HI: bytes of entries `8 * k` to `8 * k + 7`. -/
def Twin.mapWord (t : Twin) (k : Nat) : Nat := pack ((List.range 8).map (fun i => (tgetD t.map (8 * k + i) 0, 8)))

/-! ## The alternate router ID -/

/-- ALT_ROUTER_ID and ALT_VALID of PILOT_CTRL, which every region applies at a tick of its own (05 R168). -/
def Dev.setAlt (d : Dev) (router : Nat) (valid : Bool) : Dev :=
  let v := putBit (putBits d.chip.pilotCtrl.toNat 27 14 router) 28 valid
  { d with chip := { d.chip with pilotCtrl := BitVec.ofNat 64 v } }

/-- Their bits in PILOT_CTRL. -/
def alternateFields : Reg := 0x000000001FFFC000#64

/-- ALT_VALID becomes 0: alias endpoints revert. -/
def Dev.dropAlt (d : Dev) : Dev := d.setAlt d.chip.altRouterId false

/-! ## Fencing (R472, R473) -/

/-- Accepted entries that have a packet still to send complete with TIMEOUT (R473). -/
def Dev.sweepOps (d : Dev) (r : Nat) : Dev :=
  forEach ((d.region r).ops.map (fun o => o.1)) (fun id d =>
    match d.op r id with
    | some o =>
      if o.kind != .pull && o.kind != .fin && !o.empty && (o.due.isSome || !o.started) then d.endOp r id (some (0x07, 0x0501)) 0 else d
    | none => d) d

/-- LOCK and UNLOCK entries whose first request has not been sent. -/
def Dev.sweepPends (d : Dev) (r : Nat) : Dev :=
  forEach ((d.region r).pends.filter (fun p => p.2.state == .waiting)) (fun p d =>
    d.endPend r p.1 (Fin8.status' 0x07 0x0501)) d

/-- A member's entry that has still to contribute to its instance. -/
def Tree.owes (t : Tree) (p : Posting) : Bool :=
  !p.admitted || (match t.inst p.number with
    | some i =>
      if i.carries then decide (p.nextSeg < i.upSegs)
      else i.collOp == 1 && t.root && p.child == t.sourceSlot && decide (p.nextSeg < i.downSegs)
    | none => false)

/-- COLL entries that have still to contribute to a tree that sends packets: they leave their contexts. -/
def Dev.sweepColls (d : Dev) (r : Nat) : Dev :=
  forEach (d.region r).trees (fun x d =>
    if x.2.root && x.2.remotes.isEmpty then d else
    let gone := x.2.postings.filter x.2.owes
    let d := d.modTree r x.1 (fun t => { t with postings := t.postings.filter (fun p => !gone.contains p) })
    forEach gone (fun p d =>
      (d.forsake p.ep (fun w => match w with
        | .contrib q id c _ => q == r && id == x.1 && c == p.child
        | _ => false)).complete p.ep p.sq p.entry (Fin8.status' 0x07 0x0501)) d) d

/-- The device enters FENCED (R472). -/
def Dev.enterFenced (d : Dev) (cause : Nat) : Dev :=
  let d := d.modTwin (fun t => { t with state := .fenced, fenceCause := cause, peerHeard := false })
  let d := ((d.dropAlt).count Ctr.fenceEntries).raise Isl.warden (Src.chip 4) cause 0
  forEach allRegions (fun r d => ((d.sweepOps r).sweepPends r).sweepColls r) d

/-- HEARTBEAT_SILENCE_FENCE (R472, cause 2). -/
def Dev.silenceFence (d : Dev) : Dev :=
  let t := d.twin
  if (t.state == .joining || t.state == .paired) && decide (t.lastIssued + t.deadTime ≤ d.wardenNow) then d.enterFenced 2 else d

def execHeartbeatSilenceFence (s : State) : Host.Outcome State Fault Refusal := actIf Dev.wardenRuns Dev.silenceFence s

/-! ## Takeover (R466, R467) -/

/-- A port outside the twin link is in OPEN with ROUTE_EN 1. -/
def Dev.notIsolated (d : Dev) : Bool :=
  (List.range 128).any (fun p =>
    p != d.twin.portA && p != d.twin.portB && (d.port p).toll.state == .opened && (d.port p).routeEn)

/-- The actions of R467, in their order. -/
def Dev.takeOver (d : Dev) : Dev :=
  let alt := (d.twin.peerEpoch + 1) % 256
  let peer := d.twin.peerRouter
  let d := d.modTwin (fun t => { t with epochAlt := alt, peerEpoch := alt })
  let d := d.setAlt peer true
  let d := { d with epochs := tput d.epochs peer (256 + alt) }
  let d := forEach (allRegions.filter d.regionRuns) (fun r d => (d.abandonAll r (fun f _ => fenRouter f == peer)).1.pendServe r) d
  let d := d.modTwin (fun t => { t with state := .taken })
  (d.raise Isl.warden (Src.chip 3) 0 0).count Ctr.takeovers

/-- The death window has ended without a heartbeat (R465). -/
def Dev.windowOver (d : Dev) : Bool :=
  d.twin.state == .paired && d.twin.windowOpen && decide (d.twin.windowStart + d.twin.deadTime ≤ d.wardenNow)

/-- TWIN_DEATH (R465, R466). A silence of its own that has lasted DEAD_TIME fences the device first (R472). -/
def Dev.twinDeath (d : Dev) : Dev :=
  let d := d.silenceFence
  if !d.windowOver then d else
  let d := d.modTwin (fun t => { t with peerDead := true, peerHeard := false, windowOpen := false })
  let d := (d.raise Isl.warden (Src.chip 2) 0 0).count Ctr.twinDeaths
  if !d.twin.auto then d
  else if d.notIsolated then d.takeOver
  else d.enterFenced 4

def execTwinDeath (s : State) : Host.Outcome State Fault Refusal := actIf Dev.wardenRuns Dev.twinDeath s

/-! ## Heartbeats (R463, R464) -/

/-- The parameters of a heartbeat. -/
def Dev.heartbeat (d : Dev) : List Byte :=
  let t := d.twin
  leBytes 6 Config.serial.toNat ++ leBytes 2 d.chip.routerId ++ leBytes 1 (pack [(t.state.code, 3), (b2n d.chip.altValid, 1)]) ++
    leBytes 1 t.epochOwn ++ leBytes 1 t.peerEpoch ++ leBytes 1 0 ++ leBytes 2 d.chip.altRouterId ++ leBytes 2 t.hbSeq

/-- HEARTBEAT_ISSUE: one heartbeat on PORT_A and PORT_B, and table-routed with FABRIC_HB. Its TAG, which the spec does not
give, is a free value. -/
def Dev.heartbeatIssue (d : Dev) : Dev :=
  let d := d.silenceFence
  let t := d.twin
  let now := d.wardenNow
  if t.state == .off || decide (now < t.lastIssued + t.period) then d else
  let tag := (Config.unstated d.free).toNat % 65536
  let pkt := Ocm.build 1 0 0x0F04 tag 0 0 d.heartbeat
  let h : Hdr := { srcFen := fenOf d.chip.routerId 0, cls := 4, unit := 3, opcode := 1 }
  let d := forEach [t.portA, t.portB] (fun p d =>
    d.send (p / 32) 63 { h with mode := 2, interGroup := 1, laSet := p } pkt) d.draw
  let d := if t.fabricHb && !d.chip.altValid then d.send (t.portA / 32) 63 { h with dstFen := t.peerRouter * 16 } pkt else d
  (d.count Ctr.hbSent).modTwin (fun t => { t with hbSeq := (t.hbSeq + 1) % 65536, lastIssued := now })

def execHeartbeatIssue (s : State) : Host.Outcome State Fault Refusal := actIf Dev.wardenRuns Dev.heartbeatIssue s

/-- A heartbeat arrived on PORT_A, PORT_B or Bellrope (R474): a DIRECTED packet that is delivered has its arrival port in its last HOP
(05 R155). -/
def Dev.twinLink (d : Dev) (q : Request) : Bool :=
  match q.path, q.hdr with
  | .bellrope, _ => true
  | .inband _ _, some h =>
    let a := h.hop (h.dirLen - 1)
    h.mode == 2 && h.dirLen != 0 && (a == d.twin.portA || a == d.twin.portB)
  | _, _ => false

/-- What a registered heartbeat does under "Fencing" (R472, R474): it claims this device's router, or it does not. -/
def Dev.heardFence (d : Dev) (q : Request) : Dev :=
  let p := q.params
  let claims := bit (byteAt p 8) 3 && bits (field p 12 2) 13 0 == d.chip.routerId
  match d.twin.state, claims with
  | .joining, true => d.enterFenced 3
  | .paired, true => d.enterFenced 3
  | .taken, true => if d.twin.peerSerial < Config.serial.toNat then d.enterFenced 3 else d
  | .joining, false => d.modTwin (fun t => { t with state := .paired })
  | .fenced, false =>
    if d.twinLink q then
      d.modTwin (fun t => { t with state := .joining, epochOwn := (byteAt p 10 + 1) % 256 })
    else d
  | _, _ => d

/-- A heartbeat is registered (R464, R465). -/
def Dev.heartbeatHeard (d : Dev) (q : Request) : Dev :=
  let p := q.params
  let d := d.twinDeath
  let now := d.wardenNow
  let d := (d.count Ctr.hbReceived).modTwin (fun t =>
    { t with peerState := bits (byteAt p 8) 2 0, peerSeq := field p 14 2, peerDead := false, peerHeard := true,
             lastHeard := some now, windowStart := now, windowOpen := true,
             peerEpoch := if t.state = .taken then t.peerEpoch else byteAt p 9 })
  d.heardFence q

def Dev.twinHeartbeat (d : Dev) (q : Request) : Dev × Answer :=
  let p := q.params
  if d.twin.state = .off then (d, .done Ocm.wrongState [])
  else if field p 0 6 ≠ d.twin.peerSerial ∨ bits (field p 6 2) 13 0 ≠ d.twin.peerRouter then
    ((d.count Ctr.hbRejects).raise Isl.warden (Src.chip 9) 0 0, .done Ocm.invalidParameter [])
  else (d.heartbeatHeard q, .done Ocm.ok [])

def execTwinHeartbeat (path : Path) (tag : Nat) (s : State) : Host.Outcome State Fault Refusal :=
  command (Form.fixed 0x0F04 16 [(62, 63), (68, 71), (88, 95), (110, 111)] 0) path tag Dev.twinHeartbeat s

/-! ## TWIN_SET (R476) -/

/-- TWIN_CFG as the parameters give it. -/
def twinCfgOf (p : List Byte) : Reg :=
  BitVec.ofNat 64 (pack [(bits (byteAt p 0) 2 0, 3), (byteAt p 10, 7), (byteAt p 11, 7), (bits (field p 2 2) 13 0, 14),
    (field p 12 2, 10), (field p 14 2, 16)])

/-- TWIN_CFG, TWIN_PEER and TWIN_MAP take the parameters' values. -/
def Twin.load (t : Twin) (p : List Byte) : Twin :=
  { t with cfg := twinCfgOf p, peerSerial := field p 4 6, map := (List.range 16).map (fun k => (k, byteAt p (16 + k))) }

/-- The valid map entries' local endpoints. -/
def mapEnds (p : List Byte) : List Nat :=
  ((List.range 16).map (fun t => byteAt p (16 + t))).filterMap (fun b => if bit b 4 then some (bits b 3 0) else none)

def noRepeats : List Nat → Bool
  | [] => true
  | x :: xs => !xs.contains x && noRepeats xs

/-- The ranges of R476. -/
def Dev.twinSetOk (d : Dev) (p : List Byte) : Bool :=
  bits (field p 2 2) 13 0 != d.chip.routerId && byteAt p 10 != byteAt p 11 &&
    decide (1 ≤ field p 12 2 ∧ field p 12 2 ≤ 1000 ∧ 2 * field p 12 2 ≤ field p 14 2) &&
    (mapEnds p).all d.epExists && noRepeats (mapEnds p)

/-- The state that a TWIN_SET leads to (R462, R474). -/
def Twin.setState (t : Twin) (p : List Byte) (now : Nat) : Twin :=
  let x := byteAt p 0
  let epoch (own : Nat) : Nat := if bit x 4 then byteAt p 1 else own
  if !bit x 0 then { t with state := .off, epochOwn := epoch t.epochOwn, peerHeard := false }
  else match t.state with
    | .fenced =>
      if bit x 3 then { t with state := .joining, epochOwn := epoch ((t.epochOwn + 1) % 256) }
      else { t with epochOwn := epoch t.epochOwn }
    | .off =>
      { t with state := .joining, epochOwn := epoch t.epochOwn, lastIssued := now, windowStart := now, windowOpen := true,
               peerHeard := false }
    | _ => { t with epochOwn := epoch t.epochOwn, windowStart := now, windowOpen := true, peerHeard := false }

def Dev.twinSet (d : Dev) (q : Request) : Dev × Answer :=
  let p := q.params
  let d := d.silenceFence
  if !d.twinSetOk p then (d, .done Ocm.invalidParameter [])
  else if !d.chip.idValid || d.twin.state == .taken then (d, .done Ocm.wrongState [])
  else
    let now := d.wardenNow
    (d.modTwin (fun t => (t.load p).setState p now), .done Ocm.ok [])

def twinSetZero : List (Nat × Nat) :=
  [(5, 7), (30, 31), (87, 87), (95, 95), (256, 319)] ++ (List.range 16).map (fun k => (128 + 8 * k + 5, 128 + 8 * k + 7))

def execTwinSet (path : Path) (tag : Nat) (s : State) : Host.Outcome State Fault Refusal :=
  command (Form.fixed 0x0F01 40 twinSetZero 0) path tag Dev.twinSet s

/-! ## TWIN_TAKEOVER and TWIN_STATUS (R477) -/

def twinForm : Form := Form.fixed 0x0F03 8 [(8, 63)] 8

def Dev.take (d : Dev) (_ : Request) : Dev × Answer :=
  let d := d.silenceFence
  if d.twin.state = .joining ∨ d.twin.state = .paired then
    let d := d.takeOver
    (d, .done Ocm.ok (leBytes 8 d.twin.info))
  else (d, .done Ocm.wrongState [])

def execTwinTakeoverTake (path : Path) (tag : Nat) (s : State) : Host.Outcome State Fault Refusal :=
  commandIf (fun q => byteAt q.params 0 == 1) twinForm path tag Dev.take s

/-- A heartbeat has been registered within the last DEAD_TIME. -/
def Dev.heardLately (d : Dev) : Bool :=
  match d.twin.lastHeard with
  | some t => decide (d.wardenNow < t + d.twin.deadTime)
  | none => false

def Dev.giveBack (d : Dev) (q : Request) : Dev × Answer :=
  if byteAt q.params 0 = 2 ∧ d.twin.state = .taken then
    let st : PairState := if d.heardLately then .paired else .joining
    let now := d.wardenNow
    let d := d.dropAlt.modTwin (fun t =>
      { t with state := st, windowStart := t.lastHeard.getD now, windowOpen := true })
    (d, .done Ocm.ok (leBytes 8 d.twin.info))
  else (d, .done Ocm.wrongState [])

/-- RELEASE; an OP that R477 does not list is refused here too. -/
def execTwinTakeoverRelease (path : Path) (tag : Nat) (s : State) : Host.Outcome State Fault Refusal :=
  commandIf (fun q => byteAt q.params 0 != 1) twinForm path tag Dev.giveBack s

def Twin.status (t : Twin) : List Byte :=
  leBytes 8 t.info ++ leBytes 8 t.cfg.toNat ++ leBytes 8 t.peerSerial ++ leBytes 8 (t.mapWord 0) ++ leBytes 8 (t.mapWord 1)

def execTwinStatus (path : Path) (tag : Nat) (s : State) : Host.Outcome State Fault Refusal :=
  reading (Form.fixed 0x0F02 0 [] 40) path tag (fun d _ => .done Ocm.ok d.twin.status) s

end Sys2Proof.Machine
end

