-- ==== Sys2Proof/Machine/Lamp.lean ====
section
/-! DEFINITION. The Lamplighter's commands and power states (16 R491 to R511): POWER_SET, entries to P2 and P3, retention,
exits, WAKE_CONFIG and POWER_STATUS. Wakes stand in Machine/Rails.lean. -/

namespace Sys2Proof.Machine

/-! ## Registers (R510) -/

/-- PWR_STATE.STATE: P1 is P0 with a lane direction asleep (R491). -/
def Dev.powerState (d : Dev) : Nat :=
  if d.lantern.state = 0 then b2n (d.ports.any (fun p => p.2.train.txAsleep || p.2.train.rxAsleep)) else d.lantern.state

def Dev.pwrState (d : Dev) : Nat :=
  let l := d.lantern
  pack [(d.powerState, 2), (b2n l.entering.isSome, 1), (b2n l.retainValid, 1), (l.lastFault, 3), (l.faultGroup, 4)]

def WakeRec.word (w : WakeRec) : Nat :=
  pack [(w.primary, 3), (w.sources, 6), (w.loc, 7), (w.source, 2), (b2n w.cancel, 1), (0, 13), (w.time, 32)]

/-- TRANSIT_QUIET in ns. -/
def Lantern.transitQuiet (l : Lantern) : Nat := 1000 * max 10 (rbits l.wakeCtrl 31 16)

/-- The writable bits of WAKE_CTRL. -/
def wakeCtrlMask : Nat := 0xFFFF003F

/-! ## POWER_SET (R493, R494) -/

/-- A port carries transit traffic. -/
def Dev.carriesTransit (d : Dev) (p : Nat) : Bool :=
  let x := d.port p
  let now := d.belfryNow (p / 32)
  x.egress.any (fun e => e.pkt.hdr.cls != 4 && (match e.net with
    | some a => a != p
    | none => false)) ||
  x.transitAt.any (fun t => decide (now ≤ t + d.lantern.transitQuiet ∧ t < now))

/-- An endpoint's state refuses an entry. -/
def EState.refuses (st : EState) (target : Nat) : Bool :=
  st == .link || st == .run || st == .halted || (st == .d3hot && target == 3)

def Dev.powerRefused (d : Dev) (target : Nat) (force : Bool) : Bool :=
  allRegions.any (fun r => (d.region r).state != .run) ||
    (List.range 16).any (fun e => d.epExists e && (d.ep e).state.refuses target) ||
    (!force && (List.range 128).any d.carriesTransit)

/-- Step 1: every transmit direction sleeps, one that comes UP during the entry too, and in far mode at a block boundary (04 R129). -/
def Dev.sleepAll (d : Dev) : Dev :=
  forEach (List.range 128) (fun p d =>
    let t := (d.port p).train
    if t.state == .up && !t.txAsleep && d.portRuns p then (d.finishBlock p 7).sleepTx p else d) d

def Dev.powerSet (d : Dev) (q : Request) : Dev × Answer :=
  let x := byteAt q.params 0
  let target := bits x 1 0
  if target < 2 then (d, .done Ocm.invalidParameter [])
  else if d.powerRefused target (bit x 2) then (d.count Ctr.powerRefusals, .done Ocm.wrongState [])
  else
    let now := d.lanternNow
    (d.sleepAll.modLantern (fun l => { l with entering := some ⟨target, now, none⟩ }), .done Ocm.ok [])

def execPowerSet (path : Path) (tag : Nat) (s : State) : Host.Outcome State Fault Refusal :=
  command (Form.fixed 0x1001 8 [(3, 63)] 0) path tag Dev.powerSet s

/-! ## The entry (R495, R501) -/

/-- Journeyman steps end and park. -/
def Dev.parkSteps (d : Dev) : Dev :=
  forEach (List.range 64) (fun b d =>
    if (d.block b).running.isEmpty then d
    else (d.sweepItems b).modBlock b (fun x => { x with queue := x.queue ++ x.running.map (fun s => s.2), running := [] })) d

/-- The registers that an entry to P3 saves (R500). -/
def Dev.retention (d : Dev) : Retained :=
  let c := d.chip
  { epochs := d.epochs,
    ports := d.ports.map (fun p => (p.1, p.2.ctrl, p.2.tkCtrl, p.2.route)),
    chip := [c.pilotCtrl, c.pilotTune, c.fcCtrl, c.fcMark, c.carterCtrl, c.carterWin, c.scrivCtrl, c.lockCtrl, d.warden.ctrl],
    trust := (List.range 16).map (fun k => tgetD d.warden.trust k 0),
    twin := [d.twin.cfg, BitVec.ofNat 64 d.twin.peerSerial, BitVec.ofNat 64 (d.twin.mapWord 0), BitVec.ofNat 64 (d.twin.mapWord 1)],
    cages := d.cages.map (fun c => (c.1, c.2.nibble)) }

/-- POWER_ENTRY_WINDOW_OPEN: step 3 ends. -/
def Dev.windowOpens (d : Dev) : Dev :=
  match d.lantern.entering with
  | none => d
  | some e =>
    if e.window.isSome then d else
    let now := d.lanternNow
    let d := d.sleepAll.parkSteps
    let kept := d.retention
    let d := if e.target = 3 then d.modLantern (fun l => { l with retained := kept, retainValid := true }) else d
    d.modLantern (fun l => { l with entering := some { e with window := some now } })

def execPowerEntryWindowOpen (s : State) : Host.Outcome State Fault Refusal := actIf Dev.lanternRuns Dev.windowOpens s

/-- POWER_ENTRY_WINDOW_END: step 5, at the window's end tick. -/
def Dev.windowEnds (d : Dev) : Dev :=
  match d.lantern.entering with
  | some ⟨target, _, some w⟩ => if d.lanternNow < w + 320 then d else d.sleepAll.entryEnd target
  | _ => d

def execPowerEntryWindowEnd (s : State) : Host.Outcome State Fault Refusal := actIf Dev.lanternRuns Dev.windowEnds s

/-! ## The link pattern (R498) -/

/-- Four bursts and three gaps, each of [800 ns, 1,200 ns). -/
def isPattern (bursts gaps : List Nat) : Bool :=
  let fits (n : Nat) : Bool := decide (800 ≤ n ∧ n < 1200)
  bursts.length == 4 && gaps.length == 3 && bursts.all fits && gaps.all fits

def execLinkPatternDetected (p : Fin 128) (bursts gaps : List Nat) (s : State) : Host.Outcome State Fault Refusal :=
  actIf (fun d => d.lanternRuns && isPattern bursts gaps) (fun d => d.wake 5 p.val) s

/-! ## The exit (R492, R503) -/

/-- POWER_EXIT_DONE: from P2 the islands run again and receive halves release what they stored; from P3 start-up has
brought up the gates. -/
def Dev.exitDone (d : Dev) : Dev :=
  match d.lantern.exiting with
  | none => d
  | some (from_, _) =>
    if from_ = 3 ∧ d.boot.stage ≠ .running then d else
    let d := d.modLantern (fun l => { l with state := 0, exiting := none })
    let d := if from_ = 2 then forEach (List.range 128) (fun p d => if d.portRuns p then d.releaseStored p else d) d else d
    d.raise Isl.lantern (Src.chip 1) d.lantern.wakeSrc.primary 0

def execPowerExitDone (s : State) : Host.Outcome State Fault Refusal := actIf Dev.lanternRuns Dev.exitDone s

/-! ## WAKE_CONFIG and POWER_STATUS (R509) -/

def sendsPattern (p : List Byte) : Bool := bit (byteAt p 24) 0
def patternPort (p : List Byte) : Nat := bits (byteAt p 25) 6 0

def wakeForm : Form :=
  { Form.fixed 0x1003 32 [(193, 199), (207, 207), (208, 255)] 0 with
    down := fun d q => sendsPattern q.params && !d.regionRuns (patternPort q.params / 32) }

def Dev.wakeConfig (d : Dev) (q : Request) : Dev × Answer :=
  let p := q.params
  (d.modLantern (fun l =>
    { l with wakeCtrl := BitVec.ofNat 64 (field p 0 8 &&& wakeCtrlMask), linkEnLo := BitVec.ofNat 64 (field p 8 8),
             linkEnHi := BitVec.ofNat 64 (field p 16 8) }), .done Ocm.ok [])

def execWakeConfig (path : Path) (tag : Nat) (s : State) : Host.Outcome State Fault Refusal :=
  commandIf (fun q => !sendsPattern q.params) wakeForm path tag Dev.wakeConfig s

/-- The pattern is sent on the CK lane, and the port goes on at DETECT or DISABLED. -/
def Dev.sendPattern (d : Dev) (q : Request) : Dev × Answer :=
  let p := patternPort q.params
  let st := (d.port p).train.state
  if 2 ≤ d.lantern.state ∨ !(st == .disabled || st == .detect || st == .backoff) then (d, .done Ocm.wrongState []) else
  let d := d.emit (.ckOut p 3)
  (if (d.port p).enable && d.mayTrain p then d.toDetect p causeRequest else d.toDisabled p (!(d.port p).enable), .done Ocm.ok [])

def execLinkPatternSend (path : Path) (tag : Nat) (s : State) : Host.Outcome State Fault Refusal :=
  commandIf (fun q => sendsPattern q.params) wakeForm path tag Dev.sendPattern s

def Dev.powerStatus (d : Dev) (_ : Request) : Answer :=
  let l := d.lantern
  .done Ocm.ok (leBytes 8 d.pwrState ++ leBytes 8 l.wakeSrc.word ++ leBytes 8 l.wakeCtrl.toNat ++ leBytes 8 l.linkEnLo.toNat ++
    leBytes 8 l.linkEnHi.toNat)

def execPowerStatus (path : Path) (tag : Nat) (s : State) : Host.Outcome State Fault Refusal :=
  reading (Form.fixed 0x1002 0 [] 40) path tag Dev.powerStatus s

end Sys2Proof.Machine
end

