-- ==== Sys2Proof/Machine/Boot.lean ====
section
/-! DEFINITION. Start-up, engine code, flash and image commands, attestation, and CHIP_RESET (17 R512 to R532). -/

namespace Sys2Proof.Machine

/-! ## Identity and status words (00 R19, R531) -/

/-- IDENT as its two 64-bit words. -/
def identLow : Nat :=
  pack [(0x4B5A, 16), (0x5809, 16), (Config.step.toNat, 8), (Config.fab.toNat, 4), (Config.assy.toNat, 4), (Config.pkgrev.toNat, 4)]
def identHigh : Nat := pack [(Config.serial.toNat, 48), (Config.romrev.toNat, 8)]
def identBytes : List Byte := leBytes 8 identLow ++ leBytes 8 identHigh

def Boot.status (b : Boot) : Nat :=
  pack [(b.slot, 1), (b2n b.fallback, 1), (b2n b.recovery, 1), (b2n b.configDefault, 1), (b2n b.engineFail, 1), (0, 3), (b.fail0, 3),
    (0, 1), (b.fail1, 3), (0, 17), (b.version, 32)]

def Fuses.status (f : Fuses) : Nat := pack [(f.floor, 7), (b2n f.ownerFused, 1)]

def Lantern.resetInfo (l : Lantern) : Nat := pack [(l.resetCause, 3), (0, 29), (l.cellsHeld, 32)]

/-- 64 bytes of a digest. -/
def digest64 (bs : List Byte) : List Byte := sliceBytes bs 0 64

/-! ## What start-up decides (R513 to R515, R519, R523) -/

/-- The record after the ROM's steps 1 to 3, with the entries it applies. -/
def State.chooseBoot (s : State) (readFails : List Bool) : Boot × List (Nat × List Byte) :=
  let bad (slot : Nat) : Bool := readFails.getD slot false
  let a := dirActive s.flash
  let fa := slotFail s.flash s.fuses a (bad a)
  let fb := if fa = 0 then 0 else slotFail s.flash s.fuses (1 - a) (bad (1 - a))
  let recovery := fa != 0 && fb != 0
  let slot := if fa = 0 then a else if fb = 0 then 1 - a else 0
  let cfg := configRecord s.flash s.fuses
  let es := match cfg with
    | some (_, es) => if recovery then [] else es
    | none => []
  let header := slotHeader s.flash slot
  ({ stage := .released, slot := slot, fallback := fa != 0, recovery := recovery, configDefault := cfg.isNone, engineFail := false,
     engineLoaded := false, firmware := if recovery then [] else slotSection s.flash slot 16,
     fail0 := if a = 0 then fa else fb, fail1 := if a = 0 then fb else fa,
     version := if recovery then 0 else hdrVersion header,
     imageDigest := if recovery then zeros 64 else Config.shake256 (header.take 434),
     configDigest := match cfg with
       | some (b, _) => if recovery then zeros 64 else Config.shake256 b
       | none => zeros 64,
     ownerKey := ownerKeyOf s.flash s.fuses,
     gateMode := match entryOf es 1 with
       | some v => byteAt v 0
       | none => 0,
     priv := match entryOf es 2 with
       | some v => field v 0 2
       | none => if recovery then 0 else 1,
     carve := carveOf es, resetAt := none }, es)

/-! ## Retained registers (16 R502) -/

/-- A twin configuration that is to be FENCED with cause 1; a TWIN_BOOT entry has fenced it already. -/
def Dev.bootFence (d : Dev) : Dev := if rbit d.twin.cfg 0 && !d.fenced then d.enterFenced 1 else d

/-- Every saved register as a REG_WRITE of its value would leave it, ALT_VALID 0: a pair state that a TWIN_BOOT entry has left
FENCED owns the alternate-router fields already (15 R462). -/
def Dev.restore (d : Dev) : Dev :=
  let k : Retained := d.lantern.retained
  let c (i : Nat) : Reg := k.chip.getD i 0
  let own : Reg := if d.twin.state ≠ .off then alternateFields else 0#64
  let alt := (BitVec.ofNat 64 (putBit (c 0).toNat 28 false) &&& ~~~own) ||| (d.chip.pilotCtrl &&& own)
  let now := d.wardenNow
  let d := { d with
    epochs := k.epochs,
    chip := { pilotCtrl := alt, pilotTune := c 1, fcCtrl := c 2, fcMark := c 3, carterCtrl := c 4, carterWin := c 5,
              scrivCtrl := c 6, lockCtrl := c 7 },
    cages := k.cages.map (fun (x : Nat × Nat) => (x.1, { Cage.reset with pwrEn := bit x.2 0, ind := bits x.2 2 1, since := now })) }
  let d := forEach k.ports (fun (x : Nat × Reg × Reg × Reg) d => d.modPort x.1 (fun y => { y with ctrl := x.2.1, tkCtrl := x.2.2.1, route := x.2.2.2 })) d
  let d := d.modWarden (fun w => { w with ctrl := c 8, trust := k.trust.zipIdx.map (fun (t : Reg × Nat) => (t.2, t.1)) })
  let mapByte (i : Nat) : Nat := byteAt (leBytes 8 (k.twin.getD (2 + i / 8) 0).toNat) (i % 8)
  let d := d.modTwin (fun t =>
    { t with cfg := k.twin.getD 0 0, peerSerial := (k.twin.getD 1 0).toNat % 2 ^ 48,
             map := (List.range 16).map (fun i => (i, mapByte i)) })
  d.bootFence.modLantern (fun l => { l with retainValid := false })

/-! ## BOOT_START (R512) -/

/-- The entries of the record that load registers: TRUST and TWIN_BOOT. -/
def Dev.loadRecord (d : Dev) (es : List (Nat × List Byte)) : Dev :=
  let trust := (es.filter (fun e => e.1 == 4)).zipIdx.map (fun e => (e.2, BitVec.ofNat 64 (field e.1.2 0 8 % 2 ^ 15)))
  let d := d.modWarden (fun w => { w with trust := trust })
  match entryOf es 5 with
  | some p => (d.modTwin (fun t => { t.load p with epochOwn := if bit (byteAt p 0) 4 then byteAt p 1 else t.epochOwn })).enterFenced 1
  | none => d

/-- Step 5: gate bring-up, with the carve-outs of every region. -/
def Dev.bringUp (d : Dev) : Dev :=
  let d := { d with boot := { d.boot with stage := .running } }
  let carve := d.boot.carve
  let d := forEach allRegions (fun r d =>
    let d := d.modRegion r (fun x => { x with carve := carve })
    if carve.shrunk then d.raise (Isl.belfry r) (Src.region r 20) 0 0 else d) d
  forEach (List.range 8) (fun g d =>
    if (d.gate g).perst then forEach (d.subsOf g) (fun e d => d.trainGate e) d else d) d

def State.bootStart (s : State) (readFails : List Bool) : State :=
  if s.dev.boot.stage ≠ .released then s else
  let (boot, es) := s.chooseBoot readFails
  let d := { s.dev with boot := boot }
  let d := d.loadRecord es
  let d := if d.lantern.retainValid && !boot.recovery then d.restore else d
  let d := if boot.recovery then d.raise Isl.warden (Src.chip 0) 1 0 else d
  let d := if boot.configDefault then d.raise Isl.warden (Src.chip 0) 3 0 else d
  { s with dev := d.bringUp }

def execBootStart (readFails : List Bool) (s : State) : Host.Outcome State Fault Refusal := .next (s.bootStart readFails)

/-! ## ENGINE_CODE_LOAD (R516) -/

/-- The blocks that wait for engine code and can take it: the others of a region that its reset holds take it at step 7 of that
reset (15 R486). -/
def Dev.unloaded (d : Dev) : List Nat :=
  (List.range 64).filter (fun b => d.blockRuns b && d.regionRuns (b / 16) && (d.block b).state == .resetting)

/-- The first engine code, once: each block's engines take it, or every block goes to OFF (R516). -/
def Dev.engineLoad (d : Dev) (code : List Byte) (good : Bool) : Dev :=
  if d.boot.recovery || d.boot.engineLoaded || d.boot.engineFail || d.unloaded.isEmpty then d
  else if good then
    let v := d.boot.version
    let d := { d with boot := { d.boot with engineLoaded := true } }
    let d := forEach (List.range 64) (fun b d => d.modBlock b (fun x => { x with version := v, code := code })) d
    forEach d.unloaded (fun b d => d.runLoaded b) d
  else
    let d := forEach (List.range 64) (fun b d => (d.setBlock b .off).moveItems b) d
    ({ d with boot := { d.boot with engineFail := true } }).raise Isl.warden (Src.chip 0) 2 0

def execEngineCodeLoad (readFail : Bool) (s : State) : Host.Outcome State Fault Refusal :=
  actIf (fun d => d.wardenRuns && d.gatesRun) (fun d =>
    d.engineLoad (slotSection s.flash d.boot.slot 32) (!readFail && engineGood s.flash d.boot.slot)) s

/-! ## Flash commands (R525, R526) -/

def flashAddr (p : List Byte) : Nat := field p 0 4
def flashLen (p : List Byte) : Nat := field p 4 4

def readForm : Form :=
  { Form.fixed 0x1101 8 [] 0 with
    ranged := fun p => decide (4 ≤ flashLen p ∧ flashLen p ≤ 4080 ∧ flashLen p % 4 = 0), replyLen := flashLen }

def State.flashReadCmd (s : State) (q : Request) : State × Answer :=
  let p := q.params
  if readForm.ranged p ∧ flashAddr p % 4 = 0 ∧ flashAddr p < 2 ^ 26 then
    (s, .done Ocm.ok (flashRead s.flash (flashAddr p) (flashLen p)))
  else (s, .done Ocm.invalidParameter [])

def execFlashRead (path : Path) (tag : Nat) (s : State) : Host.Outcome State Fault Refusal :=
  .next (s.startCommand readForm path tag (fun s q => s.flashReadCmd q))

/-- A range touches the directory or the slot now running. -/
def Boot.protects (b : Boot) (a n : Nat) : Bool :=
  decide (a < 4096 ∧ 0 < n) ||
    (!b.recovery && decide (0 < n ∧ a < slotBase b.slot + slotSize ∧ slotBase b.slot < a + n))

/-- One page, or the part of it that is written: NOR flash clears bits only (log entry 4). -/
def State.program (s : State) (a : Nat) (bs : List Byte) : State :=
  let new := (flashRead s.flash a bs.length).zip bs |>.map (fun x => x.1 &&& x.2)
  { s with dev := s.dev.emit (.spi 1 a bs), flash := flashPut s.flash a new }

/-- A page whose program the flash reports as failed: what it then holds is free. -/
def State.spoil (s : State) (a n : Nat) : State :=
  let bs := (List.range n).map (fun i => (Config.unstated (s.dev.free + i)).setWidth 8)
  { s with dev := { s.dev with free := s.dev.free + n }, flash := flashPut s.flash a bs }

/-- The next sector of an erase of `n` from `a`, of which `done` are erased; `flashError`: the flash reports an error at it, and what
the sector then holds is free. CMD_ABORT's safe point lies between two sectors (R526). -/
def State.eraseSector (s : State) (a n done : Nat) (flashError : Bool) : State × Answer :=
  let at_ := a + 4096 * done
  let s := { s with dev := s.dev.emit (.spi 0 at_ []) }
  if flashError then (s.spoil at_ 4096, .done Ocm.hardwareFault [])
  else
    let s := { s with flash := s.flash.filter (fun c => !(at_ ≤ c.1 && c.1 < at_ + 4096)) }
    (s, if n ≤ done + 1 then .done Ocm.ok [] else .runs (done + 1) 0 [])

/-- FLASH_ERASE. -/
def State.flashEraseCmd (s : State) (q : Request) (flashError : Bool) : State × Answer :=
  let a := flashAddr q.params
  let n := flashLen q.params
  if a % 4096 ≠ 0 ∨ n = 0 ∨ 16384 < n then (s, .done Ocm.invalidParameter [])
  else if s.dev.boot.protects a (4096 * n) then (s, .done Ocm.wrongState [])
  else s.eraseSector a n 0 flashError

def execFlashErase (path : Path) (tag : Nat) (flashError : Bool) (s : State) : Host.Outcome State Fault Refusal :=
  .next (s.stepCommand (Form.fixed 0x1102 8 [] 0) path tag (fun s q => s.flashEraseCmd q flashError)
    (fun s x => s.eraseSector (flashAddr x.req.params) (flashLen x.req.params) x.a flashError))

/-- The next page of a write at `a` of the bytes that are left, read back. `flashError`: the flash reports an error at it. CMD_ABORT's
safe point lies between two pages (R526). -/
def State.writePage (s : State) (a : Nat) (data : List Byte) (flashError : Bool) : State × Answer :=
  let page := data.take (256 - a % 256)
  let rest := data.drop page.length
  if flashError then (s.spoil a page.length, .done Ocm.hardwareFault [])
  else
    let s := s.program a page
    (s, if flashRead s.flash a page.length != page then .done Ocm.hardwareFault []
        else if rest.isEmpty then .done Ocm.ok []
        else .runs (a + page.length) 0 rest)

/-- FLASH_WRITE. -/
def State.flashWriteCmd (s : State) (q : Request) (flashError : Bool) : State × Answer :=
  let p := q.params
  let a := flashAddr p
  let n := flashLen p
  if a % 4 ≠ 0 ∨ n % 4 ≠ 0 ∨ 3944 < n then (s, .done Ocm.invalidParameter [])
  else if s.dev.boot.protects a n then (s, .done Ocm.wrongState [])
  else if n = 0 then (s, .done Ocm.ok [])
  else s.writePage a (sliceBytes p 8 n) flashError

def writeForm : Form := { Form.fixed 0x1103 8 [] 0 with len := fun p => 8 + flashLen p }

def execFlashWrite (path : Path) (tag : Nat) (flashError : Bool) (s : State) : Host.Outcome State Fault Refusal :=
  .next (s.stepCommand writeForm path tag (fun s q => s.flashWriteCmd q flashError) (fun s x => s.writePage x.a x.data flashError))

/-! ## IMAGE_ACTIVATE (R527) -/

/-- The directory sector erased and written. -/
def State.writeDir (s : State) (slot : Nat) : State :=
  let b := mkDir slot ((field (dirBytes s.flash) 8 4 + 1) % 2 ^ 32) (sliceBytes (dirBytes s.flash) 16 57)
  let d := (s.dev.emit (.spi 0 0 [])).emit (.spi 1 0 b)
  { s with dev := d, flash := Memory.writeN flashDefault (s.flash.filter (fun c => decide (4096 ≤ c.1))) 0 b }

/-- Steps 4 and 5: the fuses. -/
def State.burn (s : State) (raise own : Bool) : State :=
  let running := hdrRollback (slotHeader s.flash s.dev.boot.slot)
  let f := s.fuses
  let f := if raise && !s.dev.boot.recovery then { f with floor := max f.floor (min 127 running) } else f
  let f := if own then { f with ownerFused := true, ownerDigest := Config.shake256 s.dev.boot.ownerKey } else f
  { s with fuses := f }

/-- Step 1: the image is verified. -/
def State.imageVerify (s : State) (q : Request) (readFail : Bool) : State × Answer :=
  let fail := imageFail s.flash s.fuses (bits (byteAt q.params 0) 0 0) readFail
  if fail ≠ 0 then (s, .done Ocm.invalidParameter (leBytes 4 fail)) else (s, .runs 0 0 [])

/-- Steps 2 to 5. -/
def State.imageActivate (s : State) (q : Request) : State × Answer :=
  let x := byteAt q.params 0
  if bit x 2 && (s.fuses.ownerFused || s.dev.boot.ownerKey.isEmpty) then (s, .done Ocm.wrongState [])
  else
    let s := (s.writeDir (bits x 0 0)).burn (bit x 1) (bit x 2)
    (s, .done Ocm.ok (leBytes 8 s.fuses.status))

/-- The row that starts it verifies the image, and its next row does the rest. -/
def execImageActivate (path : Path) (tag : Nat) (readFail : Bool) (s : State) : Host.Outcome State Fault Refusal :=
  .next (s.stepCommand (Form.fixed 0x1104 8 [(3, 63)] 8) path tag (fun s q => s.imageVerify q readFail) (fun s x => s.imageActivate x.req))

/-! ## IDENTITY_CERT and ATTEST (R528, R529) -/

def certBytes : List Byte :=
  leBytes 6 Config.serial.toNat ++ zeros 2 ++ Config.identityKey ++ zeros 3 ++ leBytes 4 Config.mfgDate ++
    leBytes 4 Config.caIndex ++ zeros 4 ++ Config.caSignature ++ zeros 2

def execIdentityCert (path : Path) (tag : Nat) (s : State) : Host.Outcome State Fault Refusal :=
  reading (Form.fixed 0x1111 0 [] 196) path tag (fun _ _ => .done Ocm.ok certBytes) s

/-- BLOCK_VERSION of every block. -/
def Dev.blockVersions (d : Dev) : List Byte :=
  (List.range 64).flatMap (fun b => leBytes 4 (if (d.block b).state = .off then 0 else (d.block b).version))

/-- Bytes 0–527 of the report. -/
def State.report (s : State) (challenge : List Byte) : List Byte :=
  let b := s.dev.boot
  leBytes 4 0x54535441 ++ leBytes 2 1 ++ leBytes 2 644 ++ identBytes ++ leBytes 8 s.dev.wardenNow ++ sliceBytes challenge 0 32 ++
    digest64 b.imageDigest ++ digest64 b.configDigest ++
    (if b.ownerKey.isEmpty then zeros 64 else Config.shake256 b.ownerKey) ++
    leBytes 8 b.status ++ leBytes 8 s.fuses.status ++ s.dev.blockVersions

def State.attest (s : State) (q : Request) : State × Answer :=
  let b := s.report q.params
  (s, .done Ocm.ok (b ++ Config.identitySign b ++ zeros 2))

/-- The row that starts it takes the challenge, and its next row reads, signs and sends the report. -/
def execAttest (path : Path) (tag : Nat) (s : State) : Host.Outcome State Fault Refusal :=
  .next (s.stepCommand (Form.fixed 0x1110 32 [] 644) path tag (fun s _ => (s, .runs 0 0 [])) (fun s x => s.attest x.req))

/-! ## CHIP_RESET (R530) -/

def Dev.chipResetCmd (d : Dev) (q : Request) : Dev × Answer :=
  let t := field q.params 0 4
  let delay := if t = 0 then 100 else t
  if delay < 100 ∨ 1000000 < delay then (d, .done Ocm.invalidParameter [])
  else
    let due := d.wardenNow + 1000 * delay
    ({ d with boot := { d.boot with resetAt := some due } }, .done Ocm.ok [])

def execChipReset (path : Path) (tag : Nat) (s : State) : Host.Outcome State Fault Refusal :=
  command (Form.fixed 0x1120 8 [(32, 63)] 0) path tag Dev.chipResetCmd s

/-- CHIP_RESET_DELAY_END: the device acts as for RESET_N low, and restarts by itself. -/
def Dev.chipResetDelayEnd (d : Dev) : Dev :=
  match d.boot.resetAt with
  | none => d
  | some t =>
    if d.wardenNow < t then d else
    d.resetAll 2 (allRegions.foldl (fun n r => n + (d.region r).cellsUsed) 0)

def execChipResetDelayEnd (s : State) : Host.Outcome State Fault Refusal := actIf Dev.wardenRuns Dev.chipResetDelayEnd s

end Sys2Proof.Machine
end

