-- ==== Sys2Proof/Machine/Queues.lean ====
section
/-! DEFINITION. Porter's queues (08 R226 to R236, R256, R259 to R268): context writes, doorbells and pushes, queue stops,
drains and resets. -/

namespace Sys2Proof.Machine

/-! ## Stops (R230, R241, R263) -/

/-- A queue stops with a cause; SQ_ERR keeps its first one. -/
def Dev.stopQueue (d : Dev) (e q code pos : Nat) (inChain : Option Nat) : Dev :=
  let s := d.sq e q
  if s.state ≠ .active ∧ s.state ≠ .draining then d else
  let d := (d.forsake e (fun w => w == .ring q || w == .chain q)).modSq e q (fun s =>
    { s with state := .stopped, held := none, pushed := none, errCode := code, errPos := pos, errInChain := inChain.isSome,
             errChainOff := inChain.getD 0 / 32 })
  d.raise (Isl.gate (e / 2)) (Src.ep e 0) code q

/-- A malformation (R262): the queue stops, and in a supervisor queue the gate as well. In STOPPED and HALTED it is
only counted. -/
def Dev.malformed (d : Dev) (e q code pos : Nat) (inChain : Option Nat) : Dev :=
  let s := d.sq e q
  let d := d.count (Ctr.malformed e)
  if s.state ≠ .active ∧ s.state ≠ .draining then d else
  let d := d.stopQueue e q code pos inChain
  if s.super then d.gateStop e 2 else d

/-! ## Doorbells and pushes (R229 to R231, R256) -/

/-- PI rises to a value, and a fetch that waited for a doorbell waits no more (R237); the stamp is that of the doorbell that
raised the queue from empty (R240). -/
def Dev.raisePi (d : Dev) (e q pi : Nat) : Dev :=
  let now := d.gateNow e
  d.modSq e q (fun s => { s with pi := pi, short := false, stamp := if s.pi = s.ci ∧ pi ≠ s.ci then now else s.stamp })

/-- The state of a queue takes no doorbell. -/
def Sq.deaf (s : Sq) : Bool := s.state == .disabled || s.state == .resetting

/-- SQ_DOORBELL. DESIGN CHOICE: one that a DISABLED or RESETTING queue discards counts in BAD_DOORBELLS (R230) and not in DOORBELLS as
well; R269 does not say (log entry 28). -/
def Dev.sqDoorbell (d : Dev) (e q pi : Nat) : Dev :=
  let s := d.sq e q
  if s.deaf then d.count (Ctr.badDoorbells e) else
  let d := d.count (Ctr.doorbells e)
  if 2 ^ s.log < idxDist s.ci pi ∨ 2 ^ s.log < idxDist s.pi pi then d.malformed e q 0x09 s.ci none
  else d.raisePi e q pi

/-- SQ_PUSH; a discarded one is counted as SQ_DOORBELL counts it. -/
def Dev.sqPush (d : Dev) (e q : Nat) (data : List Byte) : Dev :=
  let s := d.sq e q
  if s.deaf then d.count (Ctr.badDoorbells e) else
  let d := d.count (Ctr.doorbells e)
  let n := entSize data
  if 1 < n then d.malformed e q 0x0A s.pi none
  else
    let d := d.raisePi e q ((s.pi + n + 1) % 65536)
    if s.state = .active ∧ s.pi = s.ci ∧ s.held = none ∧ s.chain = none then
      (d.count (Ctr.pushes e)).modSq e q (fun s => { s with pushed := some (s.ci, sliceBytes data 0 (32 * (n + 1))) })
    else d.count (Ctr.pushMisses e)

/-- The doorbell of a CQ or an EQ: CI, and ARM. -/
def Cq.bell (c : Cq) (v : Nat) : Cq := { c with ci := bits v 15 0, armed := c.armed || bit v 16 }
def Cq.badBell (c : Cq) (v : Nat) : Bool := decide (idxDist c.ci c.pi < idxDist c.ci (bits v 15 0))

/-- CQ_DOORBELL. DESIGN CHOICE: a queue with ENABLE 0 takes a doorbell as a DISABLED one does, counted in BAD_DOORBELLS; R230 speaks of
states that a completion queue does not have, and R256 does not say (log entry 28). -/
def Dev.cqDoorbell (d : Dev) (e c v : Nat) : Dev :=
  let q := (d.ep e).cq c
  if !q.enable then d.count (Ctr.badDoorbells e)
  else if q.badBell v then d.count (Ctr.cqBadDoorbells e)
  else (d.modCq e c (fun q => q.bell v)).fireCq e c

/-- EQ_DOORBELL. DESIGN CHOICE: with ENABLE 0 as for a completion queue (log entry 28). -/
def Dev.eqDoorbell (d : Dev) (e k v : Nat) : Dev :=
  let q := (d.ep e).eq k
  if !q.enable then d.count (Ctr.badDoorbells e)
  else if q.badBell v then d.count (Ctr.cqBadDoorbells e)
  else (d.modEq e k (fun q => q.bell v)).fireEq e k

/-- A BAR2 write (R205, R229): a doorbell word, a push area, or a write that is discarded. -/
def Dev.bar2Write (d : Dev) (e off : Nat) (data : List Byte) : Dev :=
  let k := off / 4096
  let o := off % 4096
  let v := leNat data
  if !d.barOpen e then d
  else if 4096 ≤ k then d.count (Ctr.badDoorbells e)
  else if data.length = 64 then
    if o = 0x800 then d.sqPush e (2 * k) data
    else if o = 0xC00 then d.sqPush e (2 * k + 1) data
    else d.count (Ctr.badDoorbells e)
  else if (data.length = 8 ∨ data.length = 4) ∧ o % 8 = 0 then
    if o = 0x000 then d.sqDoorbell e (2 * k) (bits v 15 0)
    else if o = 0x008 then d.sqDoorbell e (2 * k + 1) (bits v 15 0)
    else if o = 0x040 then d.cqDoorbell e (2 * k) v
    else if o = 0x048 then d.cqDoorbell e (2 * k + 1) v
    else if o = 0x080 then d.eqDoorbell e k v
    else d.count (Ctr.badDoorbells e)
  else d.count (Ctr.badDoorbells e)

def Dev.epUp (d : Dev) (e : Nat) : Bool := d.gatesRun && d.epExists e

def execSqDoorbell (ep : Fin 16) (off : Nat) (data : List Byte) (s : State) : Host.Outcome State Fault Refusal :=
  actIf (fun d => d.epUp ep.val) (fun d => d.bar2Write ep.val off data) s

def execSqPush (ep : Fin 16) (off : Nat) (data : List Byte) (s : State) : Host.Outcome State Fault Refusal :=
  actIf (fun d => d.epUp ep.val) (fun d => d.bar2Write ep.val off data) s

def execCqDoorbell (ep : Fin 16) (off : Nat) (data : List Byte) (s : State) : Host.Outcome State Fault Refusal :=
  actIf (fun d => d.epUp ep.val) (fun d => d.bar2Write ep.val off data) s

/-! ## Send-queue contexts (R233, R234, R259, R267) -/

/-- The bits of SQ_CFG other than ENABLE that hold a field, and those of CQ_CFG. -/
def sqCfgMask : Reg := 0x000001FFFFFFFFFE#64
def cqCfgMask : Reg := 0x000000000001FFFE#64
def baseMask : Reg := 0xFFFFFFFFFFFFF000#64

def Dev.sqBaseWrite (d : Dev) (e q : Nat) (v : Reg) : Dev :=
  let s := d.sq e q
  if s.state = .disabled then d.modSq e q (fun s => { s with base := v &&& baseMask })
  else if v &&& baseMask = s.base then d else d.count (Ctr.ctxWriteRejects e)

/-- ENABLE 1 in DISABLED (R234). -/
def Dev.sqTryEnable (d : Dev) (e q : Nat) : Dev :=
  let s := d.sq e q
  if 6 ≤ s.log ∧ s.log ≤ 15 ∧ ((d.ep e).cq s.cqn).enable then
    d.modSq e q (fun s => { s with cfg := s.cfg ||| 1#64, state := .active, ctxErr := false })
  else (d.modSq e q (fun s => { s with ctxErr := true })).count (Ctr.ctxErrors e)

/-- ENABLE 1 outside DISABLED: a DRAINING queue is ACTIVE again (R259), and in RESETTING it is ignored (R267). -/
def Dev.sqEnableLater (d : Dev) (e q : Nat) : Dev :=
  match (d.sq e q).state with
  | .resetting => d
  | .draining => d.modSq e q (fun s => { s with cfg := s.cfg ||| 1#64, state := .active })
  | _ => d.modSq e q (fun s => { s with cfg := s.cfg ||| 1#64 })

/-- ENABLE 0: an ACTIVE queue drains; a fetched entry that has not been accepted is not taken (R259, R261). -/
def Dev.sqDrain (d : Dev) (e q : Nat) : Dev :=
  d.modSq e q (fun s =>
    { s with cfg := s.cfg &&& ~~~1#64, state := if s.state = .active then .draining else s.state,
             held := s.held.filter (fun h => h.chained), pushed := none })

/-- A write of SQ_CFG (R234); one that is ignored counts once (R267, R269). -/
def Dev.sqCfgWrite (d : Dev) (e q : Nat) (v : Reg) : Dev :=
  let s := d.sq e q
  if s.state = .disabled then
    let d := d.modSq e q (fun s => { s with cfg := v &&& sqCfgMask })
    if v.getLsbD 0 then d.sqTryEnable e q else d
  else
    let d := if v &&& sqCfgMask = s.cfg &&& sqCfgMask ∧ ¬(v.getLsbD 0 = true ∧ s.state = .resetting) then d
      else d.count (Ctr.ctxWriteRejects e)
    if v.getLsbD 0 then d.sqEnableLater e q else d.sqDrain e q

/-- SQ_ENABLE: a write of SQ_CFG with ENABLE 1. -/
def execSqEnable (ep : Fin 16) (sq : Fin 8192) (cfg : Reg) (s : State) : Host.Outcome State Fault Refusal :=
  actIf (fun d => d.epUp ep.val && d.barOpen ep.val) (fun d => d.sqCfgWrite ep.val sq.val (cfg ||| 1#64)) s

/-- SQ_DISABLE: a write of SQ_CFG with ENABLE 0. -/
def execSqDisable (ep : Fin 16) (sq : Fin 8192) (cfg : Reg) (s : State) : Host.Outcome State Fault Refusal :=
  actIf (fun d => d.epUp ep.val && d.barOpen ep.val) (fun d => d.sqCfgWrite ep.val sq.val (cfg &&& ~~~1#64)) s

/-- SQ_DRAIN_DONE. -/
def Dev.drainDone (d : Dev) (e q : Nat) : Dev :=
  if (d.sq e q).state = .draining ∧ (d.ep e).idle q then d.modSq e q (fun s => { s with state := .disabled, short := false }) else d

def execSqDrainDone (ep : Fin 16) (sq : Fin 8192) (s : State) : Host.Outcome State Fault Refusal :=
  actIf (fun d => d.epUp ep.val) (fun d => d.drainDone ep.val sq.val) s

/-! ## Completion- and event-queue contexts (R235, R236) -/

/-- A change of ENABLE from 0 to 1. -/
def Cq.start (c : Cq) (v : Reg) : Cq := { Cq.reset with base := c.base, cfg := (v &&& cqCfgMask) ||| 1#64 }

def Dev.cqBaseWrite (d : Dev) (e c : Nat) (v : Reg) : Dev :=
  let q := (d.ep e).cq c
  if !q.enable then d.modCq e c (fun q => { q with base := v &&& baseMask })
  else if v &&& baseMask = q.base then d else d.count (Ctr.ctxWriteRejects e)

def Dev.eqBaseWrite (d : Dev) (e k : Nat) (v : Reg) : Dev :=
  let q := (d.ep e).eq k
  if !q.enable then d.modEq e k (fun q => { q with base := v &&& baseMask })
  else if v &&& baseMask = q.base then d else d.count (Ctr.ctxWriteRejects e)

/-- An SQ that names the CQ is not DISABLED. -/
def Endpoint.cqUsed (x : Endpoint) (c : Nat) : Bool := x.sqs.any (fun s => s.2.cqn == c && s.2.state != .disabled)

/-- A write of CQ_CFG. -/
def Dev.cqCfgWrite (d : Dev) (e c : Nat) (v : Reg) : Dev :=
  let q := (d.ep e).cq c
  if !q.enable then
    if v.getLsbD 0 then d.modCq e c (fun q => q.start v) else d.modCq e c (fun q => { q with cfg := v &&& cqCfgMask })
  else
    let d := if v &&& cqCfgMask = q.cfg &&& cqCfgMask then d else d.count (Ctr.ctxWriteRejects e)
    if v.getLsbD 0 then d
    else if (d.ep e).cqUsed c ∨ q.reserved ≠ 0 then d.count (Ctr.ctxErrors e)
    else d.modCq e c (fun q => { q with cfg := q.cfg &&& ~~~1#64 })

def Dev.eqCfgWrite (d : Dev) (e k : Nat) (v : Reg) : Dev :=
  let q := (d.ep e).eq k
  if !q.enable then
    if v.getLsbD 0 then d.modEq e k (fun q => q.start v) else d.modEq e k (fun q => { q with cfg := v &&& cqCfgMask })
  else
    let d := if v &&& cqCfgMask = q.cfg &&& cqCfgMask then d else d.count (Ctr.ctxWriteRejects e)
    if v.getLsbD 0 then d else d.modEq e k (fun q => { q with cfg := q.cfg &&& ~~~1#64 })

def Dev.recCfgWrite (d : Dev) (e : Nat) (q : RecQ) (v : Reg) : Dev :=
  match q with
  | .cq n => d.cqCfgWrite e n.val v
  | .eq n => d.eqCfgWrite e n.val v

/-- CQ_ENABLE: a write of CQ_CFG or EQ_CFG with ENABLE 1. -/
def execCqEnable (ep : Fin 16) (q : RecQ) (cfg : Reg) (s : State) : Host.Outcome State Fault Refusal :=
  actIf (fun d => d.epUp ep.val && d.barOpen ep.val) (fun d => d.recCfgWrite ep.val q (cfg ||| 1#64)) s

/-- CQ_DISABLE: a write with ENABLE 0. -/
def execCqDisable (ep : Fin 16) (q : RecQ) (cfg : Reg) (s : State) : Host.Outcome State Fault Refusal :=
  actIf (fun d => d.epUp ep.val && d.barOpen ep.val) (fun d => d.recCfgWrite ep.val q (cfg &&& ~~~1#64)) s

/-! ## Queue reset (R265, R266, 11 R360, 13 R413, R419) -/

/-- A queue's own fetches are dropped: their walks, what these found, and their reads. -/
def Dev.dropFetch (d : Dev) (e q : Nat) : Dev :=
  d.forsake e (fun w => w == .ring q || w == .chain q || w == .cmd q)

/-- The receives of a queue: those POSTED are withdrawn, and one that has matched goes on. -/
def Dev.withdrawRecvs (d : Dev) (e q : Nat) : Dev :=
  let d := d.freeMatches e (fun m => m.2.kind == .posted && m.2.sq == q)
  let live := ((d.ep e).store.filter (fun m => m.2.kind == .matched && m.2.sq == q)).map (fun m => m.1)
  forEach live (fun id d => d.entryProgress e id) d

/-- The operations of a queue are abandoned, but for the pulls of its matched receives and the FINs after them. -/
def Dev.abandonOps (d : Dev) (e q : Nat) : Dev :=
  let r := regionOf e
  let ops := ((d.region r).ops.filter (fun o =>
    o.2.ep == e && o.2.sq == q && o.2.kind != .pull && o.2.kind != .fin)).map (fun o => o.1)
  (forEach ops (fun id d => d.abandonOp r id) d).startOps r

/-- The children that a queue's postings stand for, by region and tree. -/
def Dev.postingsOf (d : Dev) (e q : Nat) : List (Nat × Nat × Nat) :=
  allRegions.flatMap (fun r => (d.region r).trees.flatMap (fun t =>
    (t.2.postings.filter (fun p => p.ep == e && p.sq == q)).map (fun p => (r, t.1, p.child))))

/-- The postings and commands of a queue. -/
def Dev.abandonRest (d : Dev) (e q : Nat) : Dev :=
  let gone := d.postingsOf e q
  let mine (w : Who) : Bool := match w with
    | .contrib r t c _ => gone.contains (r, t, c)
    | _ => false
  let d := d.forsake e mine
  let d := forEach allRegions (fun r d => d.modRegion r (fun x =>
    { x with trees := x.trees.map (fun t =>
        (t.1, { t.2 with postings := t.2.postings.filter (fun p => !(p.ep == e && p.sq == q)) })) })) d
  let d := d.modEp e (fun x => { x with places := x.places.filter (fun p => match p.2.owner with
    | .reply k _ => k != q
    | _ => true) })
  d.orphanCmds e (some q) 1

/-- RESET is registered (R265). -/
def Dev.sqReset (d : Dev) (e q : Nat) : Dev :=
  if (d.sq e q).state = .resetting then d else
  let d := d.modSq e q (fun s => { s with state := .resetting, held := none, pushed := none, chain := none, short := false, cmds := [] })
  let d := d.dropFetch e q
  let d := ((d.abandonOps e q).abandonRest e q).withdrawRecvs e q
  (d.cancelPends e (some q)).abandonLocal e (some (q / 2))

def execSqReset (ep : Fin 16) (sq : Fin 8192) (s : State) : Host.Outcome State Fault Refusal :=
  actIf (fun d => d.epUp ep.val && d.barOpen ep.val) (fun d => d.sqReset ep.val sq.val) s

/-- The accepted entry is a receive that has matched. -/
def Dev.liveRecv (d : Dev) (e q id : Nat) : Bool :=
  (d.ep e).store.any (fun m => m.2.kind == .matched && m.2.sq == q && m.2.entry == id)

/-- A LOCK of the queue still waits for the answer to its CANCEL, or for the page of its word (13 R413). -/
def Dev.liveLock (d : Dev) (e q id : Nat) : Bool :=
  allRegions.any (fun r => (d.region r).pends.any (fun p => p.2.ep == e && p.2.sq == q && p.2.entry == id && p.2.flushed == 1))

/-- A receive that can complete no more: its entry and its pull are given up. -/
def Dev.dropRecvs (d : Dev) (e q : Nat) : Dev :=
  let live := ((d.ep e).store.filter (fun m => m.2.kind == .matched && m.2.sq == q)).map (fun m => m.1)
  forEach live (fun id d => (d.dropPull (regionOf e) e id).freeMatch e id) d

/-- The record of an abandoned entry, in the slot it holds (R266). -/
def Dev.flush (d : Dev) (e q : Nat) (a : Accepted) : Dev :=
  let c := a.cq
  if d.epRuns e && ((d.ep e).cq c).enable then
    (d.cqWrite e c (recordOf q a.bytes (Fin8.status' 0x0C 0))).count (Ctr.flushedEntries e)
  else (d.cqRelease e c).count (Ctr.recordsDiscarded e)

/-- SQ_RESET_END (R265, R266): every matched receive has completed and every LOCK's CANCEL is answered, or the gate is not in RUN and
none can. DEDUCED: 13 R413 has a LOCK CANCELLING until its CANCEL is answered and then FLUSHED, so its record waits for that, beyond
R266's 100 µs where it must (log entry 24). -/
def Dev.sqResetEnd (d : Dev) (e q : Nat) : Dev :=
  let s := d.sq e q
  if s.state ≠ .resetting ∨ (d.epRuns e ∧ s.work.any (fun a => d.liveRecv e q a.id || d.liveLock e q a.id)) then d else
  let d := d.dropRecvs e q
  let d := forEach s.work (fun a d => d.flush e q a) d
  d.modSq e q (fun s => { Sq.reset with base := s.base, cfg := s.cfg &&& ~~~1#64, ctxErr := s.ctxErr })

def execSqResetEnd (ep : Fin 16) (sq : Fin 8192) (s : State) : Host.Outcome State Fault Refusal :=
  actIf (fun d => d.epUp ep.val) (fun d => d.sqResetEnd ep.val sq.val) s

end Sys2Proof.Machine
end

