-- ==== Sys2Proof/Machine/Porter.lean ====
section
/-! DEFINITION. Porter's fetch and acceptance (08 R237 to R251, R262): the fetch arbiter, malformations, chains, and the
entries as they are handed to the units that carry them out. -/

namespace Sys2Proof.Machine

/-! ## Malformations (R243, R249, R262) -/

/-- The listed opcodes with their least SIZE (R243). -/
def opcodes : List (Nat × Nat) :=
  [(0x00, 0), (0x01, 0), (0x10, 1), (0x11, 1), (0x12, 1), (0x13, 1), (0x20, 1), (0x21, 2), (0x30, 1), (0x31, 1), (0x32, 1),
   (0x40, 1), (0x50, 1), (0x51, 1), (0x70, 1)]

/-- The rows that an entry's header bytes decide: 0x01, 0x02, 0x03 and 0x06. -/
def headMalformed (b : List Byte) (super chained : Bool) : Option Nat :=
  match opcodes.find? (fun o => o.1 == entOp b) with
  | none => some 0x01
  | some (op, min_) =>
    if op = 0x70 ∧ !super then some 0x02
    else if entSize b < min_ then some 0x03
    else if op = 0x01 ∧ chained then some 0x06
    else none

/-- CHAIN_LEN is out of range (0x07). -/
def badChainLen (n : Nat) : Bool := n == 0 || n % 32 != 0 || decide (65536 < n)

/-- SUBOP, DTYPE or REDOP holds an encoding that is not listed, in an operation that uses it (0x05, 12 R372). -/
def badSubop (b : List Byte) : Bool :=
  let s := entSub b
  let dtype := bits (byteAt b 36) 3 0
  let redop := bits (byteAt b 36) 7 4
  match entOp b with
  | 0x20 => decide (9 < s)
  | 0x21 => s != 4 && s != 5
  | 0x40 => decide (3 < s) || (decide (1 ≤ s) && decide (6 < dtype)) || (decide (2 ≤ s) && decide (5 < redop))
  | _ => false

/-- The first row of R262 that an entry meets, in its order; `room` is what is left of its chain. -/
def malformation (b : List Byte) (super : Bool) (room : Option Nat) : Option Nat :=
  let op := entOp b
  match headMalformed b super room.isSome with
  | some c => some c
  | none =>
    if room.any (fun n => decide (n < 32 * (entSize b + 1))) then some 0x08
    else if op = 0x01 ∧ badChainLen (field b 24 4) then some 0x07
    else if (op = 0x11 ∨ op = 0x31) ∧ 32 * (entSize b + 1) - 64 < field b 40 4 then some 0x04
    else if badSubop b then some 0x05
    else none

/-! ## The fetch arbiter (R237, R238, R240) -/

/-- A slot of a CQ is free. -/
def Cq.hasSlot (c : Cq) : Bool := decide (idxDist c.ci c.pi + c.reserved < 2 ^ c.log)

/-- Porter may take the next entry of a queue. -/
def Dev.fetchable (d : Dev) (e : Nat) (q : Nat) (s : Sq) : Bool :=
  let x := d.ep e
  d.epRuns e && s.held.isNone && (x.cq s.cqn).hasSlot && s.cmds.all (fun c => c.released) &&
    !x.fetching q && !x.walks.any (fun w => w.2.who == .chain q) &&
    (match s.chain with
     | some _ => s.state == .active || s.state == .draining
     | none => s.state == .active && s.pi != s.ci && !s.short)

/-- The queue that the arbiter takes, and the pointer afterwards. -/
def Dev.nextFetch (d : Dev) (e : Nat) : Option (Nat × Nat) :=
  let qs := (d.ep e).sqs.filter (fun q => d.fetchable e q.1 q.2)
  arbitrate 8192 (d.ep e).fetchPtr (qs.map (fun q => ⟨q.1, q.2.prio, q.2.stamp⟩))

/-- An entry's bytes are in: it is held for acceptance, or it is malformed. -/
def Dev.takeEntry (d : Dev) (e q : Nat) (b : List Byte) (room : Option Nat) : Dev :=
  let s := d.sq e q
  let pos := match s.chain with
    | some c => c.pos
    | none => s.ci
  match malformation b s.super room with
  | some code => d.malformed e q code pos (s.chain.map (fun c => c.off))
  | none => d.modSq e q (fun s => { s with held := some ⟨b, room.isSome⟩ })

/-- A queue that the arbiter took fetches its next entry: the pushed copy is in at once. -/
def Dev.fetchNext (d : Dev) (e q : Nat) : Dev :=
  let s := d.sq e q
  if s.chain.isSome then d.chainFetch e q else
  match s.pushed with
  | some (pos, b) =>
    let d := d.modSq e q (fun s => { s with pushed := none })
    if pos = s.ci then d.takeEntry e q b none else d.ringFetch e q
  | none => d.ringFetch e q

/-- ENTRY_FETCH. -/
def Dev.entryFetch (d : Dev) (e : Nat) : Dev :=
  match d.nextFetch e with
  | none => d
  | some (q, ptr) => (d.modEp e (fun x => { x with fetchPtr := ptr })).fetchNext e q

def execEntryFetch (ep : Fin 16) (s : State) : Host.Outcome State Fault Refusal :=
  actIf (fun d => d.epUp ep.val) (fun d => d.entryFetch ep.val) s

/-- The read of a ring has ended (R237, R241). An entry that runs past PI waits for a doorbell; what a queue that is no longer
ACTIVE has read is not taken. -/
def Dev.ringRead (d : Dev) (e q : Nat) (res : HostRes) : Dev :=
  let s := d.sq e q
  match res with
  | .ok data =>
    let n := entSize data + 1
    if s.state ≠ .active then d
    else if idxDist s.ci s.pi < n then d.modSq e q (fun s => { s with short := true })
    else if data.length < 32 * n then d
    else d.takeEntry e q (sliceBytes data 0 (32 * n)) none
  | _ => (d.count (Ctr.ringFetchFails e)).stopQueue e q 0x0C s.ci none

/-- A read of a chain has ended (R250, R251): the entry is in, or the rest of it follows its header. -/
def Dev.chainRead (d : Dev) (e q : Nat) (res : HostRes) : Dev :=
  match (d.sq e q).chain, res with
  | none, _ => d
  | some c, .ok data =>
    let b := c.head.getD [] ++ data
    if b.length < chainNeed c b then
      (d.modSq e q (fun s => { s with chain := some { c with head := some b } })).chainFetch e q
    else
      (d.modSq e q (fun s => { s with chain := some { c with head := none } })).takeEntry e q
        (sliceBytes b 0 (32 * (entSize b + 1))) (some (c.len - c.off))
  | some _, _ => d.endChain e q (Fin8.status' 0x02 0)

/-! ## Acceptance (R238, R239, R250, R434) -/

/-- The held entry of a queue may be accepted. -/
def Dev.accepts (d : Dev) (e q op : Nat) : Bool :=
  let s := d.sq e q
  d.epRuns e && ((d.ep e).cq s.cqn).hasSlot && s.cmds.all (fun c => c.released) &&
    (match s.held with
     | some h => entOp h.bytes == op && (s.state == .active || (s.state == .draining && h.chained))
     | none => false)

/-- Past an accepted entry: CI, or the offset in the chain. -/
def Sq.past (s : Sq) (b : List Byte) (chained : Bool) : Sq :=
  let n := entSize b + 1
  if chained then { s with held := none, chain := s.chain.map (fun c => { c with off := c.off + 32 * n }) }
  else { s with held := none, ci := (s.ci + n) % 65536 }

/-- An entry is accepted under a number of its own; the CHAIN whose last entry it is completes. The entry's number and
bytes follow. -/
def Dev.accept (d : Dev) (e q : Nat) (h : Fetched) : Dev :=
  let id := d.nextId
  let s := d.sq e q
  let d := (d.takeId.count (Ctr.entriesAccepted e)).modSq e q (fun s =>
    { s.past h.bytes h.chained with work := s.work ++ [⟨id, h.bytes, s.cqn, none, false⟩] })
  let d := d.modCq e s.cqn (fun c => { c with reserved := c.reserved + 1 })
  match (d.sq e q).chain with
  | some c => if c.len ≤ c.off then d.endChain e q (Fin8.ok 0) else d
  | none => d

/-- A row that accepts an entry of one opcode: `go` carries it out, given its number and bytes. -/
def Dev.entryRow (d : Dev) (e q op : Nat) (go : Dev → Nat → List Byte → Dev) : Dev :=
  match (d.sq e q).held with
  | some h => if d.accepts e q op then go (d.accept e q h) d.nextId h.bytes else d
  | none => d

/-- An entry that would send a packet of classes 0 to 3 completes with TIMEOUT on a FENCED device (15 R473). -/
def fencedFin : Fin8 := Fin8.status' 0x07 0x0501

/-- A unit of the region takes the entry; a region that does not run takes nothing (01 R34). -/
def Dev.handTo (d : Dev) (r : Nat) (f : Dev → Dev) : Dev := if d.regionRuns r then f d else d.crossingDrop r

/-! ## NOP and CHAIN -/

def Dev.nopEntry (d : Dev) (e q : Nat) : Dev := d.entryRow e q 0x00 (fun d id _ => d.complete e q id (Fin8.ok 0))

def execNop (ep : Fin 16) (sq : Fin 8192) (s : State) : Host.Outcome State Fault Refusal :=
  actIf (fun d => d.epUp ep.val) (fun d => d.nopEntry ep.val sq.val) s

/-- CHAIN (R250): its entries are taken in its place; its own record follows its last one (R251). -/
def Dev.chainEntry (d : Dev) (e q : Nat) : Dev :=
  let pos := (d.sq e q).ci
  d.entryRow e q 0x01 (fun d id b => d.modSq e q (fun s => { s with chain := some ⟨id, pos, field b 16 8, field b 24 4, 0, none⟩ }))

def execChain (ep : Fin 16) (sq : Fin 8192) (s : State) : Host.Outcome State Fault Refusal :=
  actIf (fun d => d.epUp ep.val) (fun d => d.chainEntry ep.val sq.val) s

/-! ## Carter's entries (R244, 10 R295 to R297) -/

/-- The operation that an entry of a queue asks for, before what its opcode adds. -/
def Dev.entryOp (d : Dev) (e q id : Nat) (b : List Byte) : Op :=
  let s := d.sq e q
  { Op.blank with
    ep := e, sq := q, entry := id, addr := field b 16 8, remote := field b 24 8, key := field b 32 8, length := field b 40 4,
    localFen := d.localFen e, dstFen := bits (entDest b) 17 0, dstEpi := bits (entDest b) 29 18, srcEpi := q / 2,
    pasid := s.pasid, user := !s.super, fence := entFence b }

/-- A remote-access operation starts; one that sends no packet runs on a FENCED device too. -/
def Dev.rmaOp (d : Dev) (o : Op) : Dev :=
  if d.fenced && !o.empty then d.complete o.ep o.sq o.entry fencedFin
  else d.handTo (regionOf o.ep) (fun d => (d.count (Ctr.rmaOps o.ep)).addOp o)

def misaligned : Fin8 := Fin8.status' 0x0D 0

def Dev.putEntry (d : Dev) (e q : Nat) : Dev := d.entryRow e q 0x10 (fun d id b => d.rmaOp (d.entryOp e q id b))

def execPut (ep : Fin 16) (sq : Fin 8192) (s : State) : Host.Outcome State Fault Refusal :=
  actIf (fun d => d.epUp ep.val) (fun d => d.putEntry ep.val sq.val) s

def Dev.putInlineEntry (d : Dev) (e q : Nat) : Dev :=
  d.entryRow e q 0x11 (fun d id b => d.rmaOp { d.entryOp e q id b with inline := some (sliceBytes b 64 (field b 40 4)) })

def execPutInline (ep : Fin 16) (sq : Fin 8192) (s : State) : Host.Outcome State Fault Refusal :=
  actIf (fun d => d.epUp ep.val) (fun d => d.putInlineEntry ep.val sq.val) s

def Dev.getEntry (d : Dev) (e q : Nat) : Dev :=
  d.entryRow e q 0x12 (fun d id b => d.rmaOp { d.entryOp e q id b with kind := .get })

def execGet (ep : Fin 16) (sq : Fin 8192) (s : State) : Host.Outcome State Fault Refusal :=
  actIf (fun d => d.epUp ep.val) (fun d => d.getEntry ep.val sq.val) s

/-- A PUT_SIGNAL of no bytes sends only its signal (10 R297). -/
def signalOf (o : Op) (b : List Byte) : Op :=
  let value := field b 48 8
  let at_ := field b 56 8
  if o.length = 0 then { o with kind := .signal, remote := at_, operand := value, length := 8 }
  else { o with signal := some (at_, value, 0) }

def Dev.putSignalEntry (d : Dev) (e q : Nat) : Dev :=
  d.entryRow e q 0x13 (fun d id b =>
    if field b 56 8 % 8 ≠ 0 then d.complete e q id misaligned else d.rmaOp (signalOf (d.entryOp e q id b) b))

def execPutSignal (ep : Fin 16) (sq : Fin 8192) (s : State) : Host.Outcome State Fault Refusal :=
  actIf (fun d => d.epUp ep.val) (fun d => d.putSignalEntry ep.val sq.val) s

/-- An atomic of 8 or 16 bytes; a misaligned address completes it at once (R244). -/
def Dev.atomicEntry (d : Dev) (e q id width : Nat) (b : List Byte) : Dev :=
  let fetch := bit (entFlags b) 0
  if field b 24 8 % width ≠ 0 ∨ (fetch ∧ field b 16 8 % width ≠ 0) then d.complete e q id misaligned
  else d.rmaOp { d.entryOp e q id b with
    kind := .atomic, length := width, operand := field b 48 width, compare := field b (if width = 8 then 56 else 64) width,
    aop := entSub b, wide := width == 16, fetch := fetch }

def Dev.atomic64Entry (d : Dev) (e q : Nat) : Dev := d.entryRow e q 0x20 (fun d id b => d.atomicEntry e q id 8 b)

def execAtomic64 (ep : Fin 16) (sq : Fin 8192) (s : State) : Host.Outcome State Fault Refusal :=
  actIf (fun d => d.epUp ep.val) (fun d => d.atomic64Entry ep.val sq.val) s

def Dev.atomic128Entry (d : Dev) (e q : Nat) : Dev := d.entryRow e q 0x21 (fun d id b => d.atomicEntry e q id 16 b)

def execAtomic128 (ep : Fin 16) (sq : Fin 8192) (s : State) : Host.Outcome State Fault Refusal :=
  actIf (fun d => d.epUp ep.val) (fun d => d.atomic128Entry ep.val sq.val) s

/-! ## Scrivener's entries (R245, 11 R332, R344) -/

/-- A send, eager or by rendezvous. -/
def Dev.messageOp (d : Dev) (e q id : Nat) (b : List Byte) (inline : Bool) : Dev :=
  if d.fenced then d.complete e q id fencedFin else
  let eager := inline || decide (field b 40 4 ≤ (d.region (regionOf e)).chip.eagerLimit)
  d.handTo (regionOf e) (fun d => d.addOp { d.entryOp e q id b with
    kind := if eager then .eager else .rts, remote := 0, key := 0, tag := field b 24 8, rank := field b 32 4,
    context := field b 36 2, inline := if inline then some (sliceBytes b 64 (field b 40 4)) else none })

def Dev.sendEntry (d : Dev) (e q : Nat) : Dev := d.entryRow e q 0x30 (fun d id b => d.messageOp e q id b false)

def execSend (ep : Fin 16) (sq : Fin 8192) (s : State) : Host.Outcome State Fault Refusal :=
  actIf (fun d => d.epUp ep.val) (fun d => d.sendEntry ep.val sq.val) s

def Dev.sendInlineEntry (d : Dev) (e q : Nat) : Dev := d.entryRow e q 0x31 (fun d id b => d.messageOp e q id b true)

def execSendInline (ep : Fin 16) (sq : Fin 8192) (s : State) : Host.Outcome State Fault Refusal :=
  actIf (fun d => d.epUp ep.val) (fun d => d.sendInlineEntry ep.val sq.val) s

def Dev.recvEntry (d : Dev) (e q : Nat) : Dev :=
  d.entryRow e q 0x32 (fun d id b => d.handTo (regionOf e) (fun d => d.postRecv e q id b))

def execRecv (ep : Fin 16) (sq : Fin 8192) (s : State) : Host.Outcome State Fault Refusal :=
  actIf (fun d => d.epUp ep.val) (fun d => d.recvEntry ep.val sq.val) s

/-! ## COLL, LOCK, UNLOCK (R246, R247) -/

/-- The context of a COLL sends packets: it is not the root, or it has a child on another device. -/
def Dev.collSends (d : Dev) (id : Nat) : Bool :=
  match d.treeRegion id with
  | none => false
  | some r =>
    match d.tree r id with
    | none => false
    | some t => !t.root || !t.remotes.isEmpty

def Dev.collEntry (d : Dev) (e q : Nat) : Dev :=
  d.entryRow e q 0x40 (fun d id b =>
    if d.fenced && d.collSends (bits (field b 32 2) 11 0) then d.complete e q id fencedFin
    else d.handTo (regionOf e) (fun d => d.postColl e q id b))

def execColl (ep : Fin 16) (sq : Fin 8192) (s : State) : Host.Outcome State Fault Refusal :=
  actIf (fun d => d.epUp ep.val) (fun d => d.collEntry ep.val sq.val) s

/-- A LOCK or UNLOCK goes to the proxy slice of its LOCK_ID. -/
def Dev.lockOp (d : Dev) (e q id : Nat) (b : List Byte) (unlock : Bool) : Dev :=
  if d.fenced then d.complete e q id fencedFin
  else d.handTo (field b 24 2 / 16384) (fun d => d.postLock e q id b unlock)

def Dev.lockEntry (d : Dev) (e q : Nat) : Dev := d.entryRow e q 0x50 (fun d id b => d.lockOp e q id b false)

def execLock (ep : Fin 16) (sq : Fin 8192) (s : State) : Host.Outcome State Fault Refusal :=
  actIf (fun d => d.epUp ep.val) (fun d => d.lockEntry ep.val sq.val) s

def Dev.unlockEntry (d : Dev) (e q : Nat) : Dev := d.entryRow e q 0x51 (fun d id b => d.lockOp e q id b true)

def execUnlock (ep : Fin 16) (sq : Fin 8192) (s : State) : Host.Outcome State Fault Refusal :=
  actIf (fun d => d.epUp ep.val) (fun d => d.unlockEntry ep.val sq.val) s

/-! ## CMD (R248, 14 R433) -/

/-- Tests 1 to 3: the Ocmiset status that DETAIL takes. -/
def Dev.cmdRefused (d : Dev) (e : Nat) (b : List Byte) : Option Nat :=
  let len := field b 32 4
  if len < 16 ∨ 4096 < len then some Ocm.badFrame
  else if bits (entDest b) 29 18 ≠ 0 then some Ocm.invalidParameter
  else if !(d.chipSeen (regionOf e)).idValid && fenRouter (bits (entDest b) 17 0) != 0 then some Ocm.targetDown
  else none

/-- CMD: its tests, the last two once its packet has been read; no later entry is accepted before its first reply (R434). -/
def Dev.cmdRow (d : Dev) (e q : Nat) : Dev :=
  d.entryRow e q 0x70 (fun d id b =>
    match d.cmdRefused e b with
    | some st => d.complete e q id (cmdStatus st)
    | none =>
      (d.modSq e q (fun s =>
        { s with cmds := s.cmds ++ [{ entry := id, passed := false, tag := 0, status := none, writing := 0, written := 0,
                                      fault := none, released := false }] })).cmdPages e q)

def execCmd (ep : Fin 16) (sq : Fin 8192) (s : State) : Host.Outcome State Fault Refusal :=
  actIf (fun d => d.epUp ep.val) (fun d => d.cmdRow ep.val sq.val) s

end Sys2Proof.Machine
end

