-- ==== Sys2Proof/Machine/Complete.lean ====
section
/-! DEFINITION. How non-posted upstream requests end (07 R201, R214, R217, R218, R556): completions, timeouts and quarantine, the
rows that name the unit whose request ends, and what that unit does then. -/

namespace Sys2Proof.Machine

/-! ## The unit that waits -/

/-- All the bytes that a unit asked for, or how its read failed. A unit that has gone takes nothing. -/
def Dev.answer (d : Dev) (e : Nat) (who : Who) (res : HostRes) : Dev :=
  let r := regionOf e
  match who with
  | .walk id => d.walkEnd e id res
  | .work id =>
    match d.work r id with
    | some w => if w.stage = .reading then d.readDone r id res else d.atomicDone r id res
    | none => d
  | .contrib q t c seg => d.contribRead q t c seg res
  | .source id => d.sourceRead e id res
  | .ring q => d.ringRead e q res
  | .chain q => d.chainRead e q res
  | .cmd q => d.cmdRead e q res
  | .landing _ | .place _ | .grant _ _ | .spec => d

/-- One request of a read has ended: the next one follows, or the unit takes what all of them brought. A failed one fails the
whole read; nothing is repeated (R556). -/
def Dev.readingEnd (d : Dev) (e : Nat) (y : Reading) (res : HostRes) : Dev :=
  let gone (d : Dev) : Dev := d.modEp e (fun x => { x with readings := x.readings.filter (fun z => z.id != y.id) })
  match res, y.left with
  | .ok data, (a, n) :: rest =>
    let more (z : Reading) : Reading := { z with buf := z.buf ++ data, left := rest }
    (d.modEp e (fun x => { x with readings := modWhere (fun z => z.id == y.id) more x.readings })).request2 e
      ⟨y.use, y.who, some y.id, y.space, a, n, none⟩
  | .ok data, [] => (gone d).answer e y.who (.ok (y.buf ++ data))
  | res, _ => (gone d).answer e y.who res

/-- A request has ended, and is reported if it failed (R201, R556). A read that was dropped has nobody to answer. -/
def Dev.hostEnd (d : Dev) (e : Nat) (t : Tag) (res : HostRes) : Dev :=
  let d := if t.silent then d else d.reportRes e res
  match t.reading with
  | none => d.answer e t.who res
  | some id =>
    match (d.ep e).readings.find? (fun y => y.id == id) with
    | some y => d.readingEnd e y res
    | none => d

/-! ## Timeouts (R201, R214) -/

def Endpoint.tag (x : Endpoint) (tag : Nat) : Option Tag := x.tags.find? (fun t => t.tag == tag)

/-- The timeout of a request has been reached. -/
def Dev.expired (d : Dev) (e : Nat) (t : Tag) : Bool := decide (t.issued + (d.ep e).cfg.timeout ≤ d.gateNow e)

/-- CPL_TIMEOUT. A request that a poisoned completion has failed is only reported. -/
def Dev.cplTimeout (d : Dev) (e tag : Nat) : Dev :=
  match (d.ep e).tag tag with
  | none => d
  | some t =>
    if !d.expired e t then d
    else if t.late then (d.count (Ctr.tagsExpired e)).freeTag e tag
    else if t.failed then (if t.silent then d.freeTag e tag else (d.freeTag e tag).reportRes e .timeout)
    else (d.freeTag e tag).hostEnd e t .timeout

def execCplTimeout (ep : Fin 16) (tag : Nat) (s : State) : Host.Outcome State Fault Refusal :=
  actIf Dev.gatesRun (fun d => d.cplTimeout ep.val tag) s

/-! ## Completions (R214, R217, R218, R556) -/

/-- Bytes that a completion brings. -/
def completionSize (c : Completion) : Nat :=
  match c.res with
  | .ok data => data.length
  | .poison => c.len
  | .ur | .ca | .timeout => 0

/-- A completion agrees with the request that holds its tag (R218). -/
def Tag.agrees (t : Tag) (x : Endpoint) (c : Completion) : Bool :=
  c.requester == x.cfg.requester && c.byteCount == t.byteCount && c.lowerAddr == t.lowerAddr && decide (completionSize c ≤ t.byteCount)

/-- No completion of the request follows this one. -/
def Tag.last (t : Tag) (c : Completion) : Bool := c.res == .ur || c.res == .ca || completionSize c == t.byteCount

/-- The request after a completion that is not its last. -/
def Tag.after (t : Tag) (c : Completion) : Tag :=
  { t with byteCount := t.byteCount - completionSize c, lowerAddr := (t.lowerAddr + completionSize c) % 128 }

def Dev.unexpected (d : Dev) (e : Nat) : Dev := ((d.count (Ctr.unexpectedCpl e)).logError e 16 true false).emit (.aer e 1)

/-- A completion that belongs to a request. -/
def Dev.completed (d : Dev) (e : Nat) (t : Tag) (c : Completion) : Dev :=
  let keep (d : Dev) (f : Tag → Tag) : Dev :=
    if t.last c then d.freeTag e t.tag
    else d.modEp e (fun x => { x with tags := modWhere (fun y => y.tag == t.tag) (fun y => f (y.after c)) x.tags })
  if t.late then keep (d.count (Ctr.lateCplDiscards e)) id
  else if t.failed then keep d id
  else match c.res with
    | .ok data =>
      if t.last c then (d.freeTag e t.tag).hostEnd e t (.ok (t.got ++ data))
      else keep d (fun y => { y with got := y.got ++ data })
    | res => (keep d (fun y => { y with failed := true })).hostEnd e t res

/-- COMPLETION_RECEIVED. A request whose timeout has been reached has timed out before it. -/
def Dev.completionReceived (d : Dev) (e : Nat) (c : Completion) : Dev :=
  let d := d.cplTimeout e c.tag
  match (d.ep e).tag c.tag with
  | none => d.unexpected e
  | some t => if t.agrees (d.ep e) c then d.completed e t c else d.unexpected e

def execCompletionReceived (ep : Fin 16) (c : Completion) (s : State) : Host.Outcome State Fault Refusal :=
  actIf Dev.gatesRun (fun d => d.completionReceived ep.val c) s

/-- TAG_QUARANTINE_END (R217): the tag is free once its window has ended. -/
def Dev.quarantineEnd (d : Dev) (e tag : Nat) : Dev :=
  match (d.ep e).quarantine.find? (fun q => q.1 == tag) with
  | none => d
  | some q =>
    if d.gateNow e < q.2 then d else
    let d := d.modEp e (fun x =>
      { x with quarantine := x.quarantine.filter (fun q => q.1 != tag), freedTags := x.freedTags ++ [tag] })
    Dev.serveWants 1 d e

def execTagQuarantineEnd (ep : Fin 16) (tag : Nat) (s : State) : Host.Outcome State Fault Refusal :=
  actIf Dev.gatesRun (fun d => d.quarantineEnd ep.val tag) s

/-! ## The rows of single units -/

/-- The request that a unit waits for now: of its read, or its AtomicOp. -/
def Endpoint.outstanding (x : Endpoint) (who : Who) : Option Tag :=
  x.tags.find? (fun t => t.who == who && !t.late && !t.failed && t.reading.all (fun id => x.readings.any (fun y => y.id == id)))

/-- It ends as a row says, its last completion bringing what has not come yet; a timeout comes when it is due. -/
def Dev.endRequest (d : Dev) (e : Nat) (who : Who) (res : HostRes) : Dev :=
  match (d.ep e).outstanding who with
  | none => d
  | some t =>
    if d.expired e t then d.cplTimeout e t.tag else
    match res with
    | .timeout => d
    | .ok data => (d.freeTag e t.tag).hostEnd e t (.ok (t.got ++ sliceBytes data 0 t.byteCount))
    | res => (d.freeTag e t.tag).hostEnd e t res

/-- WALK_READ_COMPLETE: a read of the host, or of HBM, which takes no tag (09 R274, R278). -/
def Dev.walkReadComplete (d : Dev) (e id : Nat) (res : HostRes) : Dev :=
  match tget (d.ep e).walks id with
  | some w => if w.inHbm then d.walkEnd e id res else d.endRequest e (.walk id) res
  | none => d

def execWalkReadComplete (ep : Fin 16) (walk : Nat) (res : HostRes) (s : State) : Host.Outcome State Fault Refusal :=
  actIf Dev.gatesRun (fun d => d.walkReadComplete ep.val walk res) s

/-- The request of an arrived packet ends, when it stands where a row has it. -/
def Dev.workRequest (d : Dev) (r id : Nat) (here : WStage → Bool) (res : HostRes) : Dev :=
  match d.work r id with
  | some w => if here w.stage then d.endRequest w.ep (.work id) res else d
  | none => d

def execTargetReadComplete (r : Fin 4) (work : Nat) (res : HostRes) (s : State) : Host.Outcome State Fault Refusal :=
  actIf (fun d => d.regionRuns r.val) (fun d => d.workRequest r.val work (· == .reading) res) s

def execAtomicHostComplete (r : Fin 4) (work : Nat) (res : HostRes) (s : State) : Host.Outcome State Fault Refusal :=
  actIf (fun d => d.regionRuns r.val) (fun d => d.workRequest r.val work (· != .reading) res) s

/-- CONTRIB_READ_COMPLETE (12 R380). -/
def Dev.contribRequest (d : Dev) (r id c seg : Nat) (res : HostRes) : Dev :=
  match (d.tree r id).bind (fun t => t.reader c seg) with
  | some p => d.endRequest p.ep (.contrib r id c seg) res
  | none => d

def execContribReadComplete (r : Fin 4) (tree child seg : Nat) (res : HostRes) (s : State) : Host.Outcome State Fault Refusal :=
  actIf (fun d => d.regionRuns r.val) (fun d => d.contribRequest r.val tree child seg res) s

/-- RING_FETCH_FAIL (08 R241): the read of a ring ends with a failure. -/
def Dev.ringFetchFail (d : Dev) (e q : Nat) (res : HostRes) : Dev :=
  match res with
  | .ok _ => d
  | res => d.endRequest e (.ring q) res

def execRingFetchFail (ep : Fin 16) (sq : Fin 8192) (res : HostRes) (s : State) : Host.Outcome State Fault Refusal :=
  actIf (fun d => d.epUp ep.val) (fun d => d.ringFetchFail ep.val sq.val res) s

end Sys2Proof.Machine
end

