-- ==== Sys2Proof/Machine/Errors.lean ====
section
/-! DEFINITION. Errors and quarantine (18 R533 to R539): corrections, uncorrectable errors, cell quarantine, spares, error
windows, and QUARANTINE_READ. -/

namespace Sys2Proof.Machine

/-! ## Levels (R533, R543) -/

/-- The island in which an error of a scope is registered. -/
def scopeIsland : ErrScope → Nat
  | .chip => Isl.warden
  | .region r => Isl.belfry r.val
  | .block b => Isl.block b.val

/-- Something of the scope runs. -/
def Dev.scopeRuns (d : Dev) : ErrScope → Bool
  | .chip => d.wardenRuns
  | .region r => d.belfryRuns r.val || d.gatesRun
  | .block b => d.blockRuns b.val

/-- The region whose error windows an error counts in. -/
def scopeRegion : ErrScope → Option Nat
  | .chip => none
  | .region r => some r.val
  | .block b => some (b.val / 16)

def correctedCtr : ErrScope → Nat
  | .chip => Ctr.chipSecdedCorrected
  | .region r => Ctr.secdedCorrected r.val
  | .block b => Ctr.blockSecdedCorrected b.val

def dropsCtr : ErrScope → Nat
  | .chip => Ctr.chipUncorrectableDrops
  | .region r => Ctr.uncorrectableDrops r.val
  | .block b => Ctr.blockUncorrectableDrops b.val

/-! ## SECDED_CORRECTION (R533) -/

def Dev.corrLimit (d : Dev) : Nat := rbits d.errCtrl 15 0
def Dev.hbmCorrLimit (d : Dev) : Nat := rbits d.errCtrl 31 16

/-- A limit's event, in the first window whose rise exceeds it. -/
def Dev.limitEvent (d : Dev) (r k bitNo rise limit : Nat) : Dev :=
  if limit < rise && !bit d.errRaised bitNo then
    ({ d with errRaised := putBit d.errRaised bitNo true }).raise Isl.warden (Src.region r k) 0 0
  else d

/-- The 1 s windows run back to back (R537): one whose end has come is judged, and the window that the tick lies in begins (00 R14). -/
def Dev.errorWindowEnd (d : Dev) : Dev :=
  let past := (d.wardenNow - d.errStart) / 1000000000
  if past = 0 then d else
  let d := forEach allRegions (fun r d =>
    let x := tgetD d.errRise r (0, 0)
    (d.limitEvent r 4 r x.1 d.corrLimit).limitEvent r 5 (4 + r) x.2 d.hbmCorrLimit) d
  { d with errStart := d.errStart + 1000000000 * past, errRise := [] }

/-- The rises of a region in the running window: a window that has ended is judged first. -/
def Dev.rise (d : Dev) (r sram hbm : Nat) : Dev :=
  let d := if d.wardenRuns then d.errorWindowEnd else d
  let x := tgetD d.errRise r (0, 0)
  { d with errRise := tput d.errRise r (x.1 + sram, x.2 + hbm) }

def Dev.corrected (d : Dev) (scope : ErrScope) (hbm : Bool) : Dev :=
  match scope, hbm with
  | .region r, true => (d.count (Ctr.hbmCorrected r.val)).rise r.val 0 1
  | _, _ =>
    let d := d.count (correctedCtr scope)
    match scopeRegion scope with
    | some r => d.rise r 1 0
    | none => d

def execSecdedCorrection (scope : ErrScope) (hbm : Bool) (s : State) : Host.Outcome State Fault Refusal :=
  actIf (fun d => d.scopeRuns scope) (fun d => d.corrected scope hbm) s

/-! ## ERROR_WINDOW_END (R537) -/

def execErrorWindowEnd (s : State) : Host.Outcome State Fault Refusal := actIf Dev.wardenRuns Dev.errorWindowEnd s

/-! ## Disposal (R534) -/

/-- The packet whose flits a Belfry input holds on a VC, oldest first. -/
def Dev.packetAt (d : Dev) (r input vc : Nat) : Option Nat :=
  let x := d.region r
  match d.ports.find? (fun p => p.2.egress.any (fun e => e.region == r && e.input == input && e.inVc == vc && e.cutAt.isNone)) with
  | some (_, p) => (p.egress.find? (fun e => e.region == r && e.input == input && e.inVc == vc && e.cutAt.isNone)).map (fun e => e.id)
  | none => (x.waiting.find? (fun w => w.input == input && w.vc == vc)).map (fun w => w.id)

/-- Flits of a packet are lost: it is disposed of as truncated (05 R142). -/
def Dev.loseFlits (d : Dev) (r input vc : Nat) : Dev :=
  match d.packetAt r input vc with
  | some id => d.disposeTruncated r id .sent
  | none => if (tget (d.region r).arriving (cellKey input vc)).isSome then d.truncateArriving r input vc 0 0 else d

/-- HBM_UNCORRECTABLE, with its event (R543, R545). -/
def Dev.hbmBad (d : Dev) (r : Nat) : Dev :=
  (d.count (Ctr.hbmUncorrectable r)).raise (Isl.hbm r) (Src.region r 6) 0 0

/-- The entries of a region's endpoints with a number. -/
def Dev.eachEntry (d : Dev) (r id : Nat) (f : Nat → Match → Dev → Dev) : Dev :=
  forEach (epsOf r) (fun e d => match tget (d.ep e).store id with
    | some m => f e m d
    | none => d) d

/-! ## Quarantine (R535, R536) -/

/-- A cell of a region is quarantined: counted at its level, with the region's event. -/
def Dev.quarantined (d : Dev) (island r ctr kind index : Nat) : Dev :=
  (d.count ctr).raise island (Src.region r 2) kind index

def Dev.modQuarantine (d : Dev) (f : Quarantine → Quarantine) : Dev := { d with quarantine := f d.quarantine }

/-- A Journeyman engine: its running step runs again elsewhere; with all 16 of a block gone, the block is OFF. -/
def Dev.badEngine (d : Dev) (e : Nat) : Dev :=
  if bit d.quarantine.engines e then d else
  let b := e / 16
  let d := d.modQuarantine (fun z => { z with engines := putBit z.engines e true })
  let d := d.quarantined (Isl.block b) (b / 16) (Ctr.blockCellsQuarantined b) 1 e
  let d := (d.raise (Isl.block b) (Src.block b) 1 e).abandonSteps b (fun i => i == e % 16)
  if d.blockBad b then (d.blockOff b).blockLost b else d

/-- A lane: not good, and a width request follows, which retrains the port for the CK lane too. -/
def Dev.badLane (d : Dev) (p l : Nat) : Dev :=
  if bit d.quarantine.lanes (9 * p + l) then d else
  let r := p / 32
  let d := d.modQuarantine (fun z => { z with lanes := putBit z.lanes (9 * p + l) true })
  let d := d.quarantined (Isl.rx p) r (Ctr.cellsQuarantined r) 2 (9 * p + l)
  if l < 8 then d.laneFail p l else d.request p

/-- A Belfry input cell: a network port stops its CK lane and stays DISABLED; ports 56–63 are never quarantined. -/
def Dev.badInput (d : Dev) (r x : Nat) : Dev :=
  if 56 ≤ x then d.raise (Isl.belfry r) (Src.region r 7) 0 0
  else if bit d.quarantine.inputs (64 * r + x) then d
  else
    let d := d.modQuarantine (fun z => { z with inputs := putBit z.inputs (64 * r + x) true })
    let d := d.quarantined (Isl.belfry r) r (Ctr.cellsQuarantined r) 3 (64 * r + x)
    if x < 32 then d.toDisabled (32 * r + x) false else d

/-- Spares of an array in use. -/
def Quarantine.sparesUsed (z : Quarantine) (r array : Nat) : Nat := tgetD z.spares (65536 * r + array % 65536) 0

/-- An SRAM bank: a spare takes its place, or with none left the failed bank stays in use. -/
def Dev.badBank (d : Dev) (r array bank : Nat) : Dev :=
  if d.quarantine.copying.contains (r, array, bank) || d.quarantine.failed.contains (r, array, bank) then d else
  let d := d.quarantined (Isl.belfry r) r (Ctr.cellsQuarantined r) 4 bank
  if Config.spareBanks array ≤ d.quarantine.sparesUsed r array then
    (d.modQuarantine (fun z => { z with failed := z.failed ++ [(r, array, bank)] })).raise (Isl.belfry r) (Src.region r 3) 0 0
  else
    (d.count (Ctr.sparesUsed r)).modQuarantine (fun z =>
      { z with spares := tput z.spares (65536 * r + array % 65536) (z.sparesUsed r array + 1),
               copying := z.copying ++ [(r, array, bank)] })

/-! ## UNCORRECTABLE_ERROR -/

/-- A table read of a walk in HBM meets an error (09 R278); that of a speculative walk counts only in SPEC_WALK_DROPS (09 R280). -/
def Dev.badTable (d : Dev) (e id : Nat) : Dev :=
  match tget (d.ep e).walks id with
  | some w => if w.inHbm then (if w.who = .spec then d else d.hbmBad (regionOf e)).walkEnd e id .ur else d
  | none => d

/-- The error is a speculative walk's (09 R280). -/
def Dev.silentError (d : Dev) : ErrData → Bool
  | .hbmWalk ep walk => (d.ep ep.val).walks.any (fun w => w.1 == walk && w.2.inHbm && w.2.who == .spec)
  | _ => false

/-- The item that an engine reads from HBM, or the packet that it writes, is dropped (R534). -/
def Dev.dropItem (d : Dev) (r item : Nat) : Dev :=
  let d := forEach (blocksOf r) (fun b d => d.modBlock b (fun x =>
    { x with queue := x.queue.filter (fun i => i.id != item), running := x.running.filter (fun s => s.2.id != item) })) d
  forEach (epsOf r) (fun e d => d.modEp e (fun x =>
    { x with store := x.store.map (fun m => (m.1, { m.2 with toStore := m.2.toStore.filter (fun t => t.1 != item) })) })) d

/-- What becomes of the data (R534), or of the cell (R535). -/
def Dev.dispose (d : Dev) : ErrData → Dev
  | .flits r input vc => d.loseFlits r.val input vc
  | .context r key => d.modRegion r.val (fun x => { x with conns := tdrop x.conns key })
  | .tracker r key => d.modRegion r.val (fun x => { x with trackers := tdrop x.trackers key })
  | .operation r id =>
    let now := d.belfryNow r.val
    d.modOp r.val id (fun o => { o with lost := true, started := true, timer := some (o.timer.getD now) })
  | .cached e place => d.modEp e.val (fun x => { x with cache := x.cache.eraseIdx place })
  | .matchEntry r id => d.eachEntry r.val id (fun e _ d => d.freeMatch e id)
  | .lockCell id => d.modRegion (id.val / 16384) (fun x => { x with locks := tdrop x.locks id.val })
  | .treeContext r id => d.modRegion r.val (fun x => { x with trees := tdrop x.trees id })
  | .routeEntry r group idx => d.modRegion r.val (fun x =>
      { x with banks := if group then { x.banks with group := tdrop x.banks.group idx }
                        else { x.banks with router := tdrop x.banks.router idx } })
  | .engineStep e => d.abandonSteps (e.val / 16) (fun i => i == e.val % 16)
  | .hbmWalk ep walk => d.badTable ep.val walk
  | .hbmBlock r entry =>
    ((d.hbmBad r.val).eachEntry r.val entry (fun e m d => if m.blocks.isEmpty then d else d.expireEntry r.val e entry m)).startOps r.val
  | .hbmOther r item => (d.hbmBad r.val).dropItem r.val item
  | .lockPending r index => d.modPend r.val index (fun p => { p with lost := true })
  | .call id => d.modWarden (fun w => { w with calls := w.calls.map (fun c => if c.id = id then { c with lost := true } else c) })
  | .warden path tag => d.finish path tag Ocm.hardwareFault []
  | .engine e => d.badEngine e.val
  | .lane p l => d.badLane p.val l.val
  | .inputCell r x => d.badInput r.val x.val
  | .bank r array bank => d.badBank r.val array bank

def Dev.uncorrectable (d : Dev) (scope : ErrScope) (what : ErrData) : Dev :=
  if d.silentError what then d.dispose what else
  let d := d.count (dropsCtr scope)
  let d := match scope with
    | .chip => d.raise (scopeIsland scope) (Src.chip 8) 0 0
    | .region r => if cellError what then d else d.raise (scopeIsland scope) (Src.region r.val 7) 0 0
    | .block _ => d
  d.dispose what

def execUncorrectableError (scope : ErrScope) (what : ErrData) (s : State) : Host.Outcome State Fault Refusal :=
  actIf (fun d => d.scopeRuns scope) (fun d => d.uncorrectable scope what) s

/-- SPARE_COPY: the copy to the spare ends; the words that failed are dropped as R534 drops them (R536). -/
def Dev.spareCopy (d : Dev) (r : Fin 4) (array bank : Nat) (dropped : List ErrData) : Dev :=
  if !d.quarantine.copying.contains (r.val, array, bank) then d else
  (forEach dropped (fun w d => d.uncorrectable (.region r) w) d).modQuarantine (fun z =>
    { z with copying := z.copying.erase (r.val, array, bank) })

def execSpareCopy (r : Fin 4) (array bank : Nat) (dropped : List ErrData) (s : State) : Host.Outcome State Fault Refusal :=
  actIf (fun d => d.scopeRuns (.region r)) (fun d => d.spareCopy r array bank dropped) s

/-! ## QUARANTINE_READ (R539) -/

/-- Bits [lo, lo + n) of a mask, and how many are set. -/
def maskPart (mask lo n : Nat) : Nat := (mask >>> lo) % 2 ^ n

/-- The engines, lanes and input cells of a target, as first number and count. -/
def quarantineOf (level index : Nat) : (Nat × Nat) × (Nat × Nat) × (Nat × Nat) :=
  if level = 0 then ((0, 1024), (0, 1152), (0, 256))
  else if level = 1 then ((256 * index, 256), (288 * index, 288), (64 * index, 64))
  else if level = 2 then
    if index < 64 then ((16 * index, 16), (0, 0), (0, 0))
    else
      let q := index - 64
      ((0, 0), (36 * q, 36), (64 * (q / 8) + 4 * (q % 8), 4))
  else if index < 1024 then ((index, 1), (0, 0), (0, 0))
  else ((0, 0), (index - 1024, 1), (0, 0))

/-- Banks replaced in a target: none below region level. -/
def Quarantine.sparesOf (z : Quarantine) (level index : Nat) : Nat :=
  z.spares.foldl (fun n s => if level = 0 ∨ (level = 1 ∧ s.1 / 65536 = index) then n + s.2 else n) 0

/-- A mask padded to a multiple of 32 bits; an empty mask is omitted. -/
def maskBytes (mask : Nat) (part : Nat × Nat) : List Byte := leBytes (roundUp 32 part.2 / 8) (maskPart mask part.1 part.2)

def Quarantine.reply (z : Quarantine) (level index : Nat) : List Byte :=
  let (e, l, i) := quarantineOf level index
  let count (mask : Nat) (part : Nat × Nat) : List Byte := leBytes 4 (popCount (maskPart mask part.1 part.2) part.2)
  count z.engines e ++ count z.lanes l ++ count z.inputs i ++ leBytes 4 (z.sparesOf level index) ++
    (if level = 3 then [] else maskBytes z.engines e ++ maskBytes z.lanes l ++ maskBytes z.inputs i)

def Dev.quarantineRead (d : Dev) (q : Request) : Answer := .done Ocm.ok (d.quarantine.reply q.level q.index)

/-- The reply's length depends on the target: check 7 of R427 is made with it. -/
def Dev.quarantineCmd (d : Dev) (q : Request) : Answer :=
  if q.replyMax < (d.quarantine.reply q.level q.index).length then .done Ocm.replyTooLarge [] else d.quarantineRead q

def execQuarantineRead (path : Path) (tag : Nat) (s : State) : Host.Outcome State Fault Refusal :=
  reading { Form.fixed 0x1203 0 [] 16 with down := Dev.placeDown } path tag Dev.quarantineCmd s

end Sys2Proof.Machine
end

