-- ==== Sys2Proof/Machine/Events.lean ====
section
/-! DEFINITION. Events (18 R545 to R554): raises, PENDING, holdoff windows, records, and the event commands. -/

namespace Sys2Proof.Machine

/-! ## EVT_MAP (R547) -/

def mapEp (m : Nat) : Nat := bits m 3 0
def mapEq (m : Nat) : Option Nat := if bit m 5 then some (bits m 19 8) else none
def mapLog (m : Nat) : Bool := bit m 6
/-- HOLDOFF in ns. -/
def mapHoldoff (m : Nat) : Nat := 1000 * bits m 47 32

def Dev.modEvents (d : Dev) (f : Events → Events) : Dev := { d with events := f d.events }

/-! ## Records (R549 to R551) -/

/-- The 32 bytes of a SOURCE_EVENT record, PHASE 0. -/
def Record.bytes (x : Record) : List Byte :=
  let r := x.raise_
  leBytes 1 1 ++ leBytes 1 (pack [(Src.scope r.source, 3), (0, 4), (b2n r.injected, 1)]) ++ leBytes 2 r.source ++
    leBytes 2 (min x.count 65535) ++ leBytes 2 r.code ++ leBytes 8 r.time ++ leBytes 8 r.arg ++ leBytes 4 x.seq ++ zeros 4

/-- A record is built under a map entry: it takes the next SEQ, and goes to its EQ and to the log. One that covers injected raises alone
counts nowhere (R554); `hard`: it covers a raise of the hardware. -/
def Dev.buildRecord (d : Dev) (entry : Nat) (r : Raise) (count : Nat) (hard : Bool) : Dev :=
  let seq := d.events.seq
  let x : Record := ⟨r, count, seq⟩
  let d := (if hard then d.count Ctr.eventRecords else d).modEvents (fun v =>
    { v with seq := (seq + 1) % 2 ^ 32, log := if mapLog entry then tput v.log (seq % 256) x else v.log })
  match mapEq entry with
  | some k => d.eqRecord (mapEp entry) k x.bytes hard
  | none => d

/-- The raise that the record of a window carries: the first held TIME, the latest CODE and ARG. -/
def Window.raise (w : Window) : Raise := { w.last with time := w.first.time }

/-- A source's open window ends, at its end tick or before (R549). `again`: a new window opens there. -/
def Dev.endWindow (d : Dev) (src : Nat) (again : Bool) : Dev :=
  match tget d.events.windows src with
  | none => d
  | some w =>
    let entry := d.evtMap src
    let d := d.modEvents (fun v => { v with windows := tdrop v.windows src })
    if w.held = 0 then d else
    let d := d.buildRecord entry w.raise w.held w.hard
    if again && mapHoldoff entry != 0 then
      d.modEvents (fun v => { v with windows := tput v.windows src ⟨w.ends + mapHoldoff entry, 0, w.last, w.last, false⟩ })
    else d

/-- HOLDOFF_END. -/
def Dev.holdoffEnd (d : Dev) (src : Nat) : Dev :=
  match tget d.events.windows src with
  | some w => if d.wardenNow < w.ends then d else d.endWindow src true
  | none => d

def execHoldoffEnd (src : Fin 1408) (s : State) : Host.Outcome State Fault Refusal :=
  actIf Dev.wardenRuns (fun d => d.holdoffEnd src.val) s

/-- A raise inside an open window is held; any other builds a record and opens a window. -/
def Dev.recordRaise (d : Dev) (x : Raise) : Dev :=
  let d := (d.holdoffEnd x.source).holdoffEnd x.source
  match tget d.events.windows x.source with
  | some w =>
    let first := if w.held = 0 then x else w.first
    (if x.injected then d else d.count Ctr.eventsCoalesced).modEvents (fun v =>
      { v with windows := tput v.windows x.source ⟨w.ends, w.held + 1, first, x, w.hard || !x.injected⟩ })
  | none =>
    let entry := d.evtMap x.source
    let now := d.wardenNow
    let d := d.buildRecord entry x 1 (!x.injected)
    if mapHoldoff entry = 0 then d
    else d.modEvents (fun v => { v with windows := tput v.windows x.source ⟨now + mapHoldoff entry, 0, x, x, false⟩ })

/-- A source's PENDING bit is set, and which were in this tick of the Warden (00 R9). -/
def Dev.setPending (d : Dev) (src : Nat) : Dev :=
  let now := d.wardenNow
  d.modEvents (fun v =>
    { v with pending := putBit v.pending src true, setAt := now, setMask := putBit (if v.setAt = now then v.setMask else 0) src true })

/-- EVENT_RAISE (R546): the Warden registers the raise that reached it first. -/
def Dev.eventRaise (d : Dev) : Dev :=
  match d.raises with
  | [] => d
  | x :: rest =>
    let d := ({ d with raises := rest }).count Ctr.eventsRaised
    ((d.setPending x.source).recordRaise x).refreshSummaries

def execEventRaise (s : State) : Host.Outcome State Fault Refusal := actIf Dev.wardenRuns Dev.eventRaise s

/-! ## EVT_PEND (R548, R552) -/

/-- EVT_PEND word w. -/
def Dev.pendWord (d : Dev) (w : Nat) : Nat := bits d.events.pending (64 * w + 63) (64 * w)

/-- A PENDING bit was set in this tick of the Warden: a clear registered in the same tick leaves it set (00 R9). -/
def Dev.justSet (d : Dev) (src : Nat) : Bool := d.events.setAt == d.wardenNow && bit d.events.setMask src

/-- A write of 1s clears the bits of sources whose EP names the endpoint. -/
def Dev.pendClear (d : Dev) (e w value : Nat) : Dev :=
  let mine := (setBits value 64).map (64 * w + ·) |>.filter (fun s =>
    decide (s < 1408) && mapEp (d.evtMap s) == e && !d.justSet s)
  (d.modEvents (fun v => { v with pending := mine.foldl (fun m s => putBit m s false) v.pending })).refreshSummaries

/-! ## Commands (R553, R554) -/

def mapFirst (p : List Byte) : Nat := field p 0 2
def mapCount (p : List Byte) : Nat := field p 2 2

/-- Reserved bits of an entry are 0, and its EP exists. -/
def Dev.mapOk (d : Dev) (m : Nat) : Bool := !bit m 7 && bits m 31 20 == 0 && bits m 63 48 == 0 && d.epExists (mapEp m)

def mapSetForm : Form :=
  { Form.fixed 0x1201 8 [(32, 63)] 0 with
    len := fun p => 8 + 8 * mapCount p, ranged := fun p => decide (1 ≤ mapCount p ∧ mapCount p ≤ 509) }

/-- One entry: a change ends the source's window under the old one. -/
def Dev.setMap (d : Dev) (s m : Nat) : Dev :=
  let d := if d.evtMap s = m then d else d.endWindow s false
  d.modEvents (fun v => { v with map := tput v.map s m })

def Dev.eventMapSet (d : Dev) (q : Request) : Dev × Answer :=
  let p := q.params
  let n := mapCount p
  let entries := (List.range n).map (fun i => (mapFirst p + i, field p (8 + 8 * i) 8))
  if !mapSetForm.ranged p || decide (1408 < mapFirst p + n) || !entries.all (fun x => d.mapOk x.2) then
    (d, .done Ocm.invalidParameter [])
  else ((forEach entries (fun x d => d.setMap x.1 x.2) d).refreshSummaries, .done Ocm.ok [])

def execEventMapSet (path : Path) (tag : Nat) (s : State) : Host.Outcome State Fault Refusal :=
  command mapSetForm path tag Dev.eventMapSet s

def mapReadForm : Form :=
  { Form.fixed 0x1202 8 [(32, 63)] 0 with
    ranged := fun p => decide (1 ≤ mapCount p ∧ mapCount p ≤ 510), replyLen := fun p => 8 * mapCount p }

def Dev.eventMapRead (d : Dev) (q : Request) : Answer :=
  let p := q.params
  if !mapReadForm.ranged p || decide (1408 < mapFirst p + mapCount p) then .done Ocm.invalidParameter []
  else .done Ocm.ok ((List.range (mapCount p)).flatMap (fun i => leBytes 8 (d.evtMap (mapFirst p + i))))

def execEventMapRead (path : Path) (tag : Nat) (s : State) : Host.Outcome State Fault Refusal :=
  reading mapReadForm path tag Dev.eventMapRead s

/-- EVENT_INJECT. -/
def Dev.eventInject (d : Dev) (q : Request) : Dev × Answer :=
  let p := q.params
  let src := field p 0 2
  if Src.reserved src then (d, .done Ocm.invalidParameter [])
  else
    let now := d.wardenNow
    ({ d with raises := d.raises ++ [⟨Isl.warden, src, field p 2 2, field p 8 8, now, true⟩] }, .done Ocm.ok [])

def execEventInject (path : Path) (tag : Nat) (s : State) : Host.Outcome State Fault Refusal :=
  command (Form.fixed 0x1204 16 [(32, 63)] 0) path tag Dev.eventInject s

end Sys2Proof.Machine
end

