-- ==== Sys2Proof/Machine/Keys.lean ====
section
/-! DEFINITION. Invalidations (09 R282 to R284), the key operations (R287, R290 to R293), and the HBM table aperture
(R277). -/

namespace Sys2Proof.Machine

/-! ## What an invalidation covers -/

/-- An invalidation without its waits: operation, PASID, first page, pages, key slot. -/
structure Cover where
  op : Nat
  pasid : Nat
  va : Nat
  pages : Nat
  key : Nat
  deriving DecidableEq, Repr

/-- A cache entry is removed (R282). -/
def Cover.entry (c : Cover) (x : CacheEntry) : Bool :=
  match c.op, x.what with
  | 1, .leaf page size _ _ _ _ =>
    x.pasid == c.pasid && overlaps (page * 2 ^ size) (2 ^ size) c.va (4096 * c.pages)
  | 1, .table _ _ _ => x.pasid == c.pasid
  | 1, .context _ => false
  | 2, _ => x.pasid == c.pasid
  | 3, .leaf _ _ _ _ _ k => k == some c.key
  | 3, _ => false
  | 4, _ => true
  | _, _ => false

/-- A walk in progress, or work done with a translation of a PASID and key slot, is covered (R283). -/
def Cover.work (c : Cover) (pasid : Nat) (key : Option Nat) : Bool :=
  match c.op with
  | 1 | 2 => pasid == c.pasid
  | 3 => key == some c.key
  | 4 => true
  | _ => false

/-- The PASID that an arrived request translates through. -/
def Dev.workPasid (d : Dev) (r : Nat) (w : Work) : Nat := ((d.workSpace r w).map (fun s => s.1)).getD 0

/-- Lock requests of an endpoint, at every proxy slice. -/
def Dev.pendsOf (d : Dev) (e : Nat) : List Pend :=
  allRegions.flatMap (fun r => ((d.region r).pends.map (fun p => p.2)).filter (fun p => p.ep == e))

/-- The number that a host read goes by: the arrived request it serves, or its own. -/
def readerOf (who : Who) (reading : Option Nat) : Nat :=
  match who, reading with
  | .work id, _ => id
  | _, some id => id
  | _, none => 0

/-- What holds a translation of an endpoint now, by number, with its PASID and key slot (R283): walks and the pages they found,
arrived requests, operations that have reserved a landing, waiting writes, grant words, and host reads, the late ones too. -/
def Dev.holders (d : Dev) (e : Nat) : List (Nat × Nat × Option Nat) :=
  let x := d.ep e
  let r := regionOf e
  x.walks.map (fun w => (w.1, w.2.pasid, w.2.key)) ++
  (x.grants.filter (fun g => g.pages)).map (fun g => (g.walk, g.pasid, none)) ++
  ((d.region r).works.filter (fun w => w.2.ep == e)).map (fun w => (w.1, d.workPasid r w.2, w.2.key)) ++
  ((d.region r).ops.filter (fun o => o.2.ep == e && !o.2.landing.isEmpty)).map (fun o => (o.1, o.2.pasid, none)) ++
  x.places.map (fun p => (p.1, p.2.pasid, none)) ++
  ((d.pendsOf e).filter (fun p => !p.pas.isEmpty)).map (fun p => (p.entry, (d.sq e p.sq).pasid, none)) ++
  x.readings.filterMap (fun y => y.space.map (fun s => (readerOf y.who (some y.id), s))) ++
  x.tags.filterMap (fun t => t.space.map (fun s => (readerOf t.who t.reading, s)))

/-- None of the numbers holds a translation any more. -/
def Dev.released (d : Dev) (e : Nat) (ids : List Nat) : Bool :=
  let now := (d.holders e).map (fun h => h.1)
  ids.all (fun i => !now.contains i)

/-- Covered entries are removed, covered walks fill nothing, and covered pages that no access has taken are forgotten; the
numbers that the invalidation waits for. -/
def Dev.invalidate (d : Dev) (e : Nat) (c : Cover) : Dev × List Nat :=
  let d := d.modEp e (fun x => { x with grants := x.grants.filter (fun g => !(g.pages && c.work g.pasid none)) })
  let ids := ((d.holders e).filter (fun h => c.work h.2.1 h.2.2)).map (fun h => h.1)
  (d.modEp e (fun x =>
    { x with cache := x.cache.filter (fun y => !c.entry y),
             walks := x.walks.map (fun w => (w.1, if c.work w.2.pasid w.2.key then { w.2 with fills := false } else w.2)) }), ids)

/-! ## TR_OP (R284) -/

/-- A write of TR_OP. -/
def Dev.trOp (d : Dev) (e : Nat) (v : Reg) : Dev :=
  let op := rbits v 2 0
  let x := d.ep e
  let c : Cover := ⟨op, rbits v 23 4, 4096 * bits x.opAddr.toNat 63 12, rbits v 63 34, rbits v 33 24⟩
  if x.inval.isSome || decide (4 < op) || (op == 1 && c.pages == 0) then
    (d.modEp e (fun x => { x with trRejected := true })).count (Ctr.trOpRejects e)
  else if op = 0 then d
  else
    let (d, ids) := d.invalidate e c
    d.modEp e (fun x => { x with inval := some ⟨op, c.pasid, c.va, c.pages, c.key, ids⟩, trRejected := false })

/-- TR_OP with OP as a row gives it. -/
def withOp (v : Reg) (op : Nat) : Reg := BitVec.ofNat 64 (putBits v.toNat 2 0 op)

def Dev.barUp (d : Dev) (e : Nat) : Bool := d.epUp e && d.barOpen e

def execInvalRange (ep : Fin 16) (op : Reg) (s : State) : Host.Outcome State Fault Refusal :=
  actIf (fun d => d.barUp ep.val) (fun d => d.trOp ep.val (withOp op 1)) s

def execInvalPasid (ep : Fin 16) (op : Reg) (s : State) : Host.Outcome State Fault Refusal :=
  actIf (fun d => d.barUp ep.val) (fun d => d.trOp ep.val (withOp op 2)) s

def execInvalKey (ep : Fin 16) (op : Reg) (s : State) : Host.Outcome State Fault Refusal :=
  actIf (fun d => d.barUp ep.val) (fun d => d.trOp ep.val (withOp op 3)) s

def execInvalAll (ep : Fin 16) (op : Reg) (s : State) : Host.Outcome State Fault Refusal :=
  actIf (fun d => d.barUp ep.val) (fun d => d.trOp ep.val (withOp op 4)) s

/-- INVALIDATION_COMPLETE: nothing that it waits for is left. -/
def Dev.invalDone (d : Dev) (e : Nat) : Dev :=
  match (d.ep e).inval with
  | none => d
  | some i =>
    if d.released e i.waits then (d.modEp e (fun x => { x with inval := none })).count (Ctr.invalidations e) else d

def execInvalidationComplete (ep : Fin 16) (s : State) : Host.Outcome State Fault Refusal :=
  actIf (fun d => d.epUp ep.val) (fun d => d.invalDone ep.val) s

/-! ## KEY_OP (R287, R292, R293) -/

/-- A write of KEY_OP: OP 1 and 2 are captured with the staging registers until Belfry registers them. -/
def Dev.keyOpWrite (d : Dev) (e : Nat) (v : Reg) : Dev :=
  let op := rbits v 1 0
  let x := d.ep e
  if op = 0 ∨ op = 3 then d
  else if x.keyOp.isSome then (d.modEp e (fun x => { x with keyRejected := true })).count (Ctr.keyOpRejects e)
  else d.modEp e (fun x =>
    { x with keyOp := some (op, rbits v 11 2, x.stage0.toNat, x.stageBase.toNat, x.stageLimit.toNat) })

def Dev.keyReject (d : Dev) (e : Nat) : Dev :=
  (d.modEp e (fun x => { x with keyOp := none, keyRejected := true })).count (Ctr.keyOpRejects e)

/-- KEY_OP SET is registered. -/
def Dev.keySet (d : Dev) (e k s0 base limit : Nat) : Dev :=
  let old := (d.ep e).key k
  if old.state ≠ .free ∨ limit ≤ base then d.keyReject e else
  let new : Key := { state := .valid, perm := bits s0 34 32, epi := bits s0 31 20, pasid := bits s0 19 0, gen := old.gen,
                     salt := bits s0 48 35, inflight := 0, base := base, limit := limit, waits := [] }
  let key := makeKey k e new.pasid new.gen new.salt
  (d.modEp e (fun x => { x with keys := tput x.keys k new, keyOp := none, keyRejected := false,
                                keyResult := BitVec.ofNat 64 key })).count (Ctr.keySets e)

/-- KEY_OP REVOKE is registered: the generation rises, and an implicit INVAL_KEY begins. -/
def Dev.keyRevoke (d : Dev) (e k : Nat) : Dev :=
  let old := (d.ep e).key k
  if old.state ≠ .valid then d.keyReject e else
  let (d, ids) := d.invalidate e ⟨3, 0, 0, 0, k⟩
  let d := d.modKey e k (fun x => { x with state := .revoking, gen := (x.gen + 1) % 65536, waits := ids })
  (d.modEp e (fun x => { x with keyOp := none, keyRejected := false })).count (Ctr.keyRevokes e)

/-- The captured KEY_OP reaches Belfry, when it is the operation that a row names. -/
def Dev.keyOpRegistered (d : Dev) (e op : Nat) : Dev :=
  match (d.ep e).keyOp with
  | some (o, k, s0, base, limit) =>
    if o ≠ op then d else if op = 1 then d.keySet e k s0 base limit else d.keyRevoke e k
  | none => d

def execKeySet (ep : Fin 16) (s : State) : Host.Outcome State Fault Refusal :=
  actIf (fun d => d.epUp ep.val && d.belfryRuns (regionOf ep.val)) (fun d => d.keyOpRegistered ep.val 1) s

def execKeyRevoke (ep : Fin 16) (s : State) : Host.Outcome State Fault Refusal :=
  actIf (fun d => d.epUp ep.val && d.belfryRuns (regionOf ep.val)) (fun d => d.keyOpRegistered ep.val 2) s

/-- KEY_REVOKE_COMPLETE (R291). -/
def Dev.revokeDone (d : Dev) (e k : Nat) : Dev :=
  let x := (d.ep e).key k
  if x.state = .revoking ∧ x.inflight = 0 ∧ d.released e x.waits then
    d.modKey e k (fun x => { x with state := .free, waits := [] })
  else d

def execKeyRevokeComplete (ep : Fin 16) (slot : Fin 1024) (s : State) : Host.Outcome State Fault Refusal :=
  actIf (fun d => d.epUp ep.val && d.belfryRuns (regionOf ep.val)) (fun d => d.revokeDone ep.val slot.val) s

/-! ## The HBM table aperture (R277) -/

/-- Where in HBM the 8 bytes that an aperture offset reaches lie, when the access is aligned and the whole of it is in the
quarter. -/
def Dev.apertureAt (d : Dev) (e off n : Nat) : Option Nat :=
  let o := 2 ^ 19 * rbits (d.ep e).aperture 30 19 + off
  if n = 8 ∧ off % 8 = 0 ∧ off < 2 ^ 19 ∧ o + 8 ≤ (d.region (regionOf e)).carve.quarter then some (d.quarterBase e + o) else none

/-- The 8 bytes that a register command reads there, all ones beyond the quarter; it has found the stack running. -/
def Dev.apertureRead (d : Dev) (e off : Nat) : Dev × List Byte :=
  match d.apertureAt e off 8 with
  | none => (d.count (Ctr.apertureBad e), List.replicate 8 0xFF)
  | some a => (d, d.hbmRead (regionOf e) a 8)

def Dev.apertureWrite (d : Dev) (e off : Nat) (data : List Byte) : Dev :=
  let r := regionOf e
  match d.apertureAt e off 8 with
  | none => d.count (Ctr.apertureBad e)
  | some a => if d.hbmRuns r then d.hbmWrite r a data else d.crossingDrop r

/-- An access beyond the quarter, or of another size or alignment, is rejected as BAR0 rejects (07 R203, log entry 27). -/
def Dev.apertureReject (d : Dev) (e : Nat) : Dev := (d.count (Ctr.apertureBad e)).count (Ctr.badAccess e)

def Dev.apertureAccess (d : Dev) (e off : Nat) (acc : Access) : Dev :=
  let r := regionOf e
  match acc, d.apertureAt e off (accessLen acc) with
  | .read _, some a =>
    let (d, data) := d.stackRead r a 8
    d.sendData e (some data)
  | .read _, none => (d.apertureReject e).sendUr e
  | .write data, some a => if d.hbmRuns r then d.hbmWrite r a data else d.crossingDrop r
  | .write _, none => d.apertureReject e

/-- HBM_APERTURE_ACCESS: in D3hot a read completes with Unsupported Request (07 R221). -/
def Dev.aperture (d : Dev) (e off : Nat) (acc : Access) : Dev :=
  match d.barOpen e, acc with
  | true, _ => d.apertureAccess e off acc
  | false, .read _ => d.sendUr e
  | false, .write _ => d

def execHbmApertureAccess (ep : Fin 16) (off : Nat) (acc : Access) (s : State) : Host.Outcome State Fault Refusal :=
  actIf (fun d => d.epUp ep.val) (fun d => d.aperture ep.val off acc) s

end Sys2Proof.Machine
end

