-- ==== Sys2Proof/Machine/LockCommands.lean ====
section
/-! DEFINITION. The commands of Locksmith (13 R418, R420, R422): LOCK_FORCE_RELEASE, LOCK_ABANDON and LOCK_READ. -/

namespace Sys2Proof.Machine

/-- The slice of a LOCK_ID does not run. -/
def Dev.lockDown (d : Dev) (q : Request) : Bool := !d.regionRuns (field q.params 0 2 / 16384)

/-! ## LOCK_FORCE_RELEASE (R418) -/

def forceForm : Form := { Form.fixed 0x0D01 8 [(16, 31)] 4 with down := Dev.lockDown }

def Dev.lockForceRelease (d : Dev) (q : Request) : Dev × Answer :=
  let id := field q.params 0 2
  let c := d.lockCell id
  let ok := c.state == 1 && c.grantSeq == field q.params 4 4
  if !ok then (d, .done Ocm.wrongState []) else
  let d := (d.forceLock (id / 16384) id).pendServe (id / 16384)
  (d, .done Ocm.ok (leBytes 4 (d.lockCell id).grantSeq))

def execLockForceRelease (path : Path) (tag : Nat) (s : State) : Host.Outcome State Fault Refusal :=
  command forceForm path tag Dev.lockForceRelease s

/-! ## LOCK_ABANDON (R420, R421) -/

/-- Whether a holder or waiter matches: FEN or its router, and endpoint index unless ALL_EPI. -/
def abandonMatch (x fen epi : Nat) : Bool :=
  (if bit x 31 then fenRouter fen == fenRouter (bits x 17 0) else fen == bits x 17 0) &&
    (bit x 30 || epi == bits x 29 18)

def Dev.lockAbandon (d : Dev) (q : Request) : Dev × Answer :=
  let x := field q.params 0 4
  let (d, held, gone) := (allRegions.filter d.regionRuns).foldl (fun (s : Dev × Nat × Nat) r =>
    let (d, h, g) := s.1.abandonAll r (abandonMatch x)
    (d.pendServe r, s.2.1 + h, s.2.2 + g)) (d, 0, 0)
  (d, .done Ocm.ok (leBytes 4 held ++ leBytes 4 gone))

def execLockAbandon (path : Path) (tag : Nat) (s : State) : Host.Outcome State Fault Refusal :=
  command (Form.fixed 0x0D02 8 [(32, 63)] 8) path tag Dev.lockAbandon s

/-! ## LOCK_READ (R405, R422) -/

/-- The 32-byte cell; `head` is HEAD. -/
def LockCell.image (c : LockCell) (head : Nat) : List Byte :=
  leBytes 32 (pack [(c.state, 2), (c.holderPrio, 8), (c.effPrio, 8), (c.holderFen, 18), (c.holderEpi, 12), (c.holderPend, 15),
    (0, 1), (c.waiters.length, 16), (head, 15), (0, 1), (c.grantSeq, 32), (c.holderTag, 64), (c.lastFen, 18), (c.lastEpi, 12),
    (c.lastPend, 15), (c.inhSeq, 16)])

/-- A waiter of the reply. -/
def Waiter.image (w : Waiter) : List Byte := leBytes 8 (pack [(w.fen, 18), (w.epi, 12), (w.prio, 8), (w.pend, 15)])

def lockReadForm : Form := { Form.fixed 0x0D03 8 [(16, 63)] 544 with down := Dev.lockDown }

/-- HEAD of a cell that has no waiters is a free value (log entry 24). -/
def Dev.lockRead (d : Dev) (q : Request) : Dev × Answer :=
  let c := d.lockCell (field q.params 0 2)
  let head := match c.waiters with
    | w :: _ => w.slot
    | [] => (Config.unstated d.free).toNat
  (d.draw, .done Ocm.ok (c.image head ++ (c.waiters.take 64).flatMap Waiter.image))

def execLockRead (path : Path) (tag : Nat) (s : State) : Host.Outcome State Fault Refusal :=
  command lockReadForm path tag Dev.lockRead s

/-! ## CHIP_REGISTER_APPLY (05 R168, R404) -/

/-- CHIP_REGISTER_APPLY: every field of one write at one Belfry tick; a higher PEND_MAX frees PENDING entries. -/
def Dev.chipApply (d : Dev) (r : Nat) (reg : ChipReg) : Dev :=
  d.toCopy r (fun d => (d.modRegion r (fun x => { x with chip := x.chip.applyReg d.chip reg })).pendServe r)

def execChipRegisterApply (r : Fin 4) (reg : ChipReg) (s : State) : Host.Outcome State Fault Refusal :=
  act (fun d => d.chipApply r.val reg) s

end Sys2Proof.Machine
end

