-- ==== Sys2Proof/Machine/PciSpace.lean ====
section
/-! DEFINITION. An endpoint's configuration space (07 R200, R201, R220): what each field reads, and a configuration write. The
places of bits inside a register, and the capabilities' numbers, are the PCI Express 6.0 Base Specification's (log entry 3). -/

namespace Sys2Proof.Machine

/-- Interrupt Status and the command register. -/
def Endpoint.commandWord (x : Endpoint) : Nat :=
  pack [(0, 1), (b2n x.cfg.memEnable, 1), (b2n x.cfg.bme, 1), (0, 7), (b2n x.cfg.intxDisable, 1), (0, 5)]

/-- Power Management Control/Status: PowerState, No_Soft_Reset, PME_En, PME_Status. -/
def Endpoint.pmcsr (x : Endpoint) : Nat :=
  pack [(if x.state = .d3hot then 3 else 0, 2), (0, 1), (1, 1), (0, 4), (b2n x.cfg.pmeEn, 1), (0, 6), (b2n x.cfg.pmeStatus, 1)]

/-- Link Control, with ASPM Control in bits [1:0]. -/
def PciCfg.linkControlWord (c : PciCfg) : Nat := 4 * (c.linkControl.toNat / 4) + 2 * b2n c.aspmL1

/-- AER after a write: a 1 clears a bit of a status, and masks and severities take the written value. -/
def PciCfg.aerWrite (a w : Aer) : Aer :=
  { w with uncStatus := a.uncStatus &&& ~~~ w.uncStatus, corStatus := a.corStatus &&& ~~~ w.corStatus }

/-- Device Control: error reporting, Relaxed Ordering, Max Payload Size, Extended Tag, Max Read Request Size. -/
def PciCfg.deviceControl (c : PciCfg) : Nat :=
  pack [(c.errReport.toNat, 4), (b2n c.relaxed, 1), (c.maxPayload, 3), (1, 1), (0, 3), (c.maxRead, 3), (0, 1)]

/-- Device Control 2 and 3: Completion Timeout Value, AtomicOp Requester Enable, 10-bit tags; 14-bit tags and L0p. -/
def PciCfg.deviceControl2 (c : PciCfg) : Nat :=
  pack [(c.cplTimeout, 4), (0, 2), (b2n c.atomicReq, 1), (0, 5), (b2n (c.tagSize == 1), 1), (0, 3),
    (0, 2), (b2n (c.tagSize == 2), 1), (b2n c.l0p, 1), (0, 12)]

/-- Widest link of an endpoint (07 R196). -/
def Dev.fullWidth (d : Dev) (e : Nat) : Nat := if d.bifurcated (e / 2) then 8 else 16

/-- Link Capabilities: 64 GT/s, the full width, ASPM L1, L1 Exit Latency. -/
def Dev.linkCaps (d : Dev) (e : Nat) : Nat := pack [(6, 4), (d.fullWidth e, 6), (2, 2), (0, 3), (3, 3), (0, 14)]

/-- Message Control of MSI-X. -/
def PciCfg.msixControl (c : PciCfg) : Nat := pack [(2047, 11), (0, 3), (b2n c.functionMask, 1), (b2n c.msixEnable, 1)]

/-- A field of the configuration space, little-endian. -/
def Dev.cfgRead (d : Dev) (e : Nat) (f : CfgField) : List Byte :=
  let x := d.ep e
  match f with
  | .vendorId | .subsystemVendorId => leBytes 2 0x4B5A
  | .deviceId => leBytes 2 0x5809
  | .command => leBytes 2 x.commandWord
  | .interruptStatus => leBytes 1 (b2n x.evtPending)
  | .revisionId => leBytes 1 Config.step.toNat
  | .classCode => leBytes 3 0x028000
  | .subsystemId => leBytes 2 (0x5800 + e)
  | .interruptPin => leBytes 1 1
  | .headerType => leBytes 1 0
  | .bar0 => leBytes 8 (x.cfg.bar0 + 4)
  | .bar2 => leBytes 8 (x.cfg.bar2 + 12)
  | .bar4 => leBytes 8 (x.cfg.bar4 + 12)
  | .capabilities => [0x01, 0x10, 0x11]
  | .extCapabilities => [0x01, 0x03, 0x19, 0x25, 0x26, 0x2A, 0x31, 0x27, 0x32].flatMap (leBytes 2)
  | .pmeSupport => leBytes 1 0x18
  | .noSoftReset => leBytes 1 1
  | .pmcsr => leBytes 2 x.pmcsr
  | .deviceCaps => leBytes 4 (2 + 2 ^ 5 + 2 ^ 15 + 2 ^ 28)
  | .deviceControl => leBytes 2 x.cfg.deviceControl
  | .deviceStatus => leBytes 2 (pack [(x.cfg.errStatus.toNat, 4), (0, 1), (b2n (!x.tags.isEmpty), 1)])
  | .deviceCaps2 => leBytes 4 (3 + 2 ^ 17) ++ leBytes 4 (2 ^ 2)
  | .deviceControl2 => leBytes 4 x.cfg.deviceControl2
  | .linkCaps => leBytes 4 (d.linkCaps e)
  | .linkControl => leBytes 2 x.cfg.linkControlWord
  | .aerUncStatus => leBytes 4 x.cfg.aer.uncStatus.toNat
  | .aerUncMask => leBytes 4 x.cfg.aer.uncMask.toNat
  | .aerUncSeverity => leBytes 4 x.cfg.aer.uncSeverity.toNat
  | .aerCorStatus => leBytes 4 x.cfg.aer.corStatus.toNat
  | .aerCorMask => leBytes 4 x.cfg.aer.corMask.toNat
  | .extRegister id off => leBytes 4 (Config.extRegister d.free id off).toNat
  | .linkStatus => leBytes 2 (pack [(x.linkRate, 4), (x.linkWidth / x.l0pDiv, 6)])
  | .serialNumber => leBytes 8 (pack [(e % 2, 1), (e / 2, 3), (0, 12), (Config.serial.toNat, 48)])
  | .msixTableSize => leBytes 2 2047
  | .msixTableBir => leBytes 4 0x1800000
  | .msixPbaBir => leBytes 4 0x1808000
  | .msixControl => leBytes 2 x.cfg.msixControl

/-- The configuration space after a write (R200, R201): a BAR keeps its address bits above its size, and PME_Status is cleared
by a 1, as are the error bits. Bus Master Enable and PowerState have rows of their own. -/
def PciCfg.write (c : PciCfg) (w : CfgWrite) : PciCfg :=
  { c with memEnable := w.memEnable, intxDisable := w.intxDisable, cplTimeout := w.cplTimeout % 16, maxPayload := w.maxPayload % 8,
           maxRead := w.maxRead % 8, tagSize := w.tagSize, relaxed := w.relaxed,
           atomicReq := w.atomicReq, msixEnable := w.msixEnable, functionMask := w.functionMask, pmeEn := w.pmeEn,
           pmeStatus := c.pmeStatus && !w.clearPme, aspmL1 := w.aspmL1, l0p := w.l0p, bar0 := 2 ^ 25 * (w.bar0 / 2 ^ 25),
           bar2 := 2 ^ 24 * (w.bar2 / 2 ^ 24), bar4 := 2 ^ 34 * (w.bar4 / 2 ^ 34), requester := w.requester,
           errReport := w.errReport, errStatus := c.errStatus &&& ~~~ w.clearStatus, linkControl := w.linkControl, aer := PciCfg.aerWrite c.aer w.aer }

/-- The fields of a configuration write, then INTA and the messages that may go (R220). -/
def Dev.configWrite (d : Dev) (e : Nat) (w : CfgWrite) : Dev :=
  ((d.modEp e (fun x => { x with cfg := x.cfg.write w })).syncInta e).flushVectors e

def Dev.configAccess (d : Dev) (e : Nat) (acc : CfgAccess) : Dev :=
  match acc with
  | .read (.extRegister id off) => (d.sendData e (some (d.cfgRead e (.extRegister id off)))).draw
  | .read f => d.sendData e (some (d.cfgRead e f))
  | .write w => d.configWrite e w

/-- INTERRUPT_CONFIG_WRITE: a configuration request that no row of its own carries. -/
def execInterruptConfigWrite (ep : Fin 16) (acc : CfgAccess) (s : State) : Host.Outcome State Fault Refusal :=
  config ep.val (fun d => d.configAccess ep.val acc) s

end Sys2Proof.Machine
end

