-- ==== Sys2Proof/Machine/Flags.lean ====
section
/-! DEFINITION. The status words that software reads: state codes, flags and occupancies of gates, queues, ports, regions,
blocks, the Warden, Scrivener, Cooper and Locksmith, each laid out as its chapter gives it. The status words of start-up, the
Lamplighter, twins and clocks stand beside their units. -/

namespace Sys2Proof.Machine

/-! ## State codes -/

/-- Gate states (07 R210). -/
def EState.code : EState → Nat
  | .down => 0
  | .link => 1
  | .run => 2
  | .halted => 3
  | .stopped => 4
  | .d3hot => 5

/-- Send-queue states (08 R260). -/
def QState.code : QState → Nat
  | .disabled => 0
  | .active => 1
  | .draining => 2
  | .stopped => 3
  | .halted => 4
  | .resetting => 5

/-- Port states (03 R80). -/
def PState.code : PState → Nat
  | .disabled => 0
  | .detect => 1
  | .t0Align => 2
  | .t0Config => 3
  | .step => 4
  | .up => 5
  | .retrain => 6
  | .limp => 7
  | .backoff => 8

/-- Link-layer states (04 R124). -/
def LState.code : LState → Nat
  | .closed => 0
  | .held => 1
  | .resume => 2
  | .opened => 3

/-- Region states (15 R484). -/
def RState.code : RState → Nat
  | .run => 0
  | .draining => 1
  | .drained => 2
  | .resetting => 3
  | .ready => 4

/-- Block states (15 R481). -/
def BState.code : BState → Nat
  | .run => 0
  | .migrating => 1
  | .resetting => 2
  | .off => 3

/-- Key states (09 R286). -/
def KState.code : KState → Nat
  | .free => 0
  | .valid => 1
  | .revoking => 2

/-! ## Gates and queues -/

/-- GATE_STATUS (07 R208). -/
def Dev.gateStatus (d : Dev) (e : Nat) : Nat :=
  let x := d.ep e
  pack [(x.state.code, 3), (b2n (d.bifurcated (e / 2)), 1), (e % 2, 1), (e / 2, 3), (b2n (d.priv e), 1),
    (b2n x.evtPending, 1), (x.stopCause, 2), (b2n (!x.quarantine.isEmpty), 1), (x.tags.length, 14),
    (x.quarantine.length, 14), (x.linkWidth / x.l0pDiv, 5), (x.linkRate, 3), (b2n x.flit, 1)]

/-- SQ_STATE, with IDLE as R261 has it, and SQ_ERR (08 R233). -/
def Sq.stateWord (s : Sq) (idle : Bool) : Nat :=
  pack [(s.pi, 16), (s.ci, 16), (s.state.code, 3), (b2n idle, 1), (b2n s.ctxErr, 1), (s.work.length, 16)]
def Sq.errWord (s : Sq) : Nat :=
  pack [(s.errCode, 8), (s.errPos, 16), (b2n s.errInChain, 1), (0, 7), (s.errChainOff, 16)]

/-- CQ_STATE, and EQ_STATE in the same layout (08 R235). -/
def Cq.stateWord (c : Cq) : Nat := pack [(c.pi, 16), (c.ci, 16), (c.reserved, 16), (b2n c.armed, 1), (b2n c.ovf, 1)]

/-- TR_STATUS and KEY_STATUS (09 R293). -/
def Endpoint.trStatus (x : Endpoint) : Nat := pack [(b2n x.inval.isSome, 1), (b2n x.trRejected, 1)]
def Endpoint.keyStatus (x : Endpoint) : Nat :=
  pack [(b2n x.keyOp.isSome, 1), (b2n x.keyRejected, 1), ((x.keys.filter (fun k => k.2.state == .revoking)).length, 11)]

/-- Word `w` of a key descriptor (09 R286). -/
def Key.word (k : Key) (w : Nat) : Nat :=
  let v := pack [(k.state.code, 2), (k.perm, 3), (0, 3), (k.epi, 12), (k.pasid, 20), (k.gen, 16), (k.salt, 14), (k.inflight, 16),
    (0, 42), (k.base, 64), (k.limit, 64)]
  bits v (64 * w + 63) (64 * w)

/-- The 64-bit halves of an MSI-X table entry: the address; the data and the vector control (07 R220). -/
def Msix.word (m : Msix) (high : Bool) : Nat := if high then pack [(m.data, 32), (b2n m.masked, 1)] else m.addr

/-- SCRIV_STATUS and SCRIV_STORE (11 R362). -/
def Endpoint.scrivStatus (x : Endpoint) : Nat :=
  pack [(x.countKind .posted, 18), (x.countKind .unexpected, 18), (x.countKind .held, 18)]
def Dev.scrivStore (d : Dev) (e : Nat) : Nat :=
  pack [((d.ep e).blocksUsed, 21), (d.blocksTotal (regionOf e), 21), (d.share (regionOf e), 18)]

/-! ## Ports -/

/-- PORT_STATUS and PORT_PEER (03 R105). -/
def Train.statusWord (t : Train) : Nat :=
  pack [(t.state.code, 4), (t.tier, 2), (t.width, 5), (b2n t.far, 1), (b2n t.leader, 1), (b2n t.selfLoop, 1),
    (b2n t.txAsleep, 1), (b2n t.rxAsleep, 1), (t.laneGood, 8), (t.excluded, 3)]
def Train.peerWord (t : Train) : Nat := pack [(t.peerSerial, 48), (t.peerPort, 7), (b2n t.peerValid, 1)]

/-- TK_STATUS (04 R130). -/
def Toll.statusWord (t : Toll) : Nat :=
  pack [(t.state.code, 2), (t.nextSeq, 12), (t.peerAck, 12), (t.rxExpect, 12), (b2n (t.nextSeq % 4096 == t.creditLimit % 4096), 1),
    (t.peerStop, 20), (t.breakCause, 5)]

/-- FC_PORT (06 R194). -/
def Dev.fcPort (d : Dev) (p : Nat) : Nat :=
  let x := d.port p
  pack [(x.stopSent, 20), ((d.region (p / 32)).skidOf (p % 32), 12), (x.floorOnly, 20)]

/-! ## Regions and blocks -/

/-- FC_STATUS (06 R194), COOPER_STATUS (12 R400) and LOCK_STATUS (13 R423). -/
def Region.fcStatus (x : Region) : Nat := pack [(x.poolFree, 18), (b2n x.poolOpen, 1), (x.cellsUsed, 19)]
def Region.cooperStatus (x : Region) : Nat :=
  pack [(x.treesOf 0, 10), (x.treesOf 1, 10), (x.scratchUsed, 20), (x.scratchTotal, 20)]
def Region.lockStatus (x : Region) : Nat :=
  pack [(x.pendsUsed, 16), (min x.waitersUsed 65535, 16), ((x.locks.filter (fun c => c.2.state == 1)).length, 15)]

/-- REGION_REPAIR (15 R488), REGION_CARVE (18 R538) and BLOCK_REPAIR (15 R483). -/
def Region.repairWord (x : Region) : Nat := pack [(x.state.code, 3), (b2n x.forced, 1), (0, 28), (x.cellsLost, 32)]
def Carve.word (c : Carve) : Nat := pack [(c.ux, 5), (c.scratch, 4), (c.spill, 4), (c.tables, 4), (b2n c.shrunk, 1)]
def Block.repairWord (b : Block) : Nat := pack [(b.state.code, 2), (0, 14), (b.version, 32)]

/-! ## The Warden -/

/-- WARDEN_STATUS (14 R458). -/
def Dev.wardenStatus (d : Dev) : Nat :=
  pack [(d.warden.intake.length, 9), (d.warden.executing.length, 6), (d.liveNonces.length, 4), (b2n (!d.boot.ownerKey.isEmpty), 1)]

/-- Word `w` of the record at a place of the Warden log (18 R551); a place that holds none reads 0. -/
def Events.logWord (v : Events) (n w : Nat) : Nat :=
  match tget v.log n with
  | some x => field x.bytes (8 * w) 8
  | none => 0

end Sys2Proof.Machine
end

