-- ==== Sys2Proof/Machine/Registers.lean ====
section
/-! DEFINITION. The register map (07 R202 to R208, 14 R448): which register an offset of BAR0 or of the chip space names, how it
reads, what a write of it does under the access codes (00 R7), and the register and counter commands (14 R449 to R452). -/

namespace Sys2Proof.Machine

/-! ## Which register an offset names -/

/-- A register of the BAR0 map (07 R202) or of the chip space (14 R448). `word` counts 8-byte words of a group. -/
inductive RegAt where
  /-- No register: an unassigned offset behaves as an RSV field. -/
  | unassigned
  | ident (word : Nat)
  | gateCtrl
  | gateStatus
  | gatePriv
  | chip (c : ChipReg)
  | fcStatus (r : Nat)
  | live (r word : Nat)
  | port (p word : Nat)
  | counter (n : Nat)
  | sq (q word : Nat)
  | cq (c word : Nat)
  | eq (k word : Nat)
  | translation (word : Nat)
  | key (k word : Nat)
  | aperture (off : Nat)
  | evtPend (w : Nat)
  | evtMap (s : Nat)
  | msix (v : Nat) (high : Bool)
  | msixPending (word : Nat)
  | wardenCtrl
  | wardenStatus
  | clockStatus
  | clockEngines
  | trust (k : Nat)
  | cooper (r : Nat)
  | lock (r : Nat)
  | scrivStatus (e : Nat)
  | scrivStore (e : Nat)
  | twin (word : Nat)
  | epochs (k : Nat)
  | regionRepair (r : Nat)
  | blockRepair (b : Nat)
  | wake (word : Nat)
  | boot (word : Nat)
  | errCtrl
  | carve (r : Nat)
  | logHead
  | logWord (n word : Nat)
  deriving DecidableEq, Repr

/-- `off` lies in the `n` bytes from `lo`. -/
def inWindow (off lo n : Nat) : Bool := decide (lo ≤ off ∧ off < lo + n)

/-- The register that holds a byte offset of BAR0 (07 R202, 08 R232, 09 R293, 18 R544, R552). -/
def barReg (off : Nat) : RegAt :=
  let w := off % 64 / 8
  if off < 16 then .ident (off / 8)
  else if inWindow off 0x1000 8 then .gateCtrl
  else if inWindow off 0x1008 8 then .gateStatus
  else if inWindow off 0x1010 8 then .gatePriv
  else if inWindow off 0x10000 8 then .chip .pilotCtrl
  else if inWindow off 0x10008 8 then .chip .pilotTune
  else if inWindow off 0x10010 8 then .chip .fcCtrl
  else if inWindow off 0x10018 8 then .chip .fcMark
  else if inWindow off 0x20000 0x4000 then
    let r := (off - 0x20000) / 0x1000
    let o := off % 0x1000
    if o < 8 then .fcStatus r else if o < 24 then .live r (o / 8 - 1) else .unassigned
  else if inWindow off 0x100000 0x8000 then
    if off % 0x100 < 56 then .port ((off - 0x100000) / 0x100) (off % 0x100 / 8) else .unassigned
  else if inWindow off 0x400000 0x400000 then .counter ((off - 0x400000) / 8)
  else if inWindow off 0x800000 0x80000 then if w < 5 then .sq ((off - 0x800000) / 64) w else .unassigned
  else if inWindow off 0x900000 0x80000 then if w < 3 then .cq ((off - 0x900000) / 64) w else .unassigned
  else if inWindow off 0x1000000 0x70 then .translation ((off - 0x1000000) / 8)
  else if inWindow off 0x1008000 0x8000 then .key ((off - 0x1008000) / 32) (off % 32 / 8)
  else if inWindow off 0x1080000 0x80000 then .aperture (off - 0x1080000)
  else if inWindow off 0x1100000 0xB0 then .evtPend ((off - 0x1100000) / 8)
  else if inWindow off 0x1101000 0x2C00 then .evtMap ((off - 0x1101000) / 8)
  else if inWindow off 0x1108000 0x40000 then if w < 3 then .eq ((off - 0x1108000) / 64) w else .unassigned
  else if inWindow off 0x1800000 0x8000 then .msix ((off - 0x1800000) / 16) (off % 16 / 8 == 1)
  else if inWindow off 0x1808000 0x100 then .msixPending ((off - 0x1808000) / 8)
  else .unassigned

/-- The register at an offset of the chip space (14 R448 and the chapters it names). -/
def chipSpaceReg (off : Nat) : RegAt :=
  if off < 16 then .ident (off / 8)
  else if off = 0x100 then .chip .carterCtrl
  else if off = 0x108 then .chip .carterWin
  else if off = 0x110 then .chip .scrivCtrl
  else if off = 0x118 then .chip .lockCtrl
  else if off = 0x180 then .wardenCtrl
  else if off = 0x188 then .wardenStatus
  else if off = 0x190 then .clockStatus
  else if off = 0x198 then .clockEngines
  else if inWindow off 0x200 0x80 then .trust ((off - 0x200) / 8)
  else if inWindow off 0x1000 0x400 then
    if off % 0x100 = 0 then .cooper ((off - 0x1000) / 0x100) else if off % 0x100 = 8 then .lock ((off - 0x1000) / 0x100) else .unassigned
  else if inWindow off 0x10000 0x1000 then
    if off % 0x100 = 0 then .scrivStatus ((off - 0x10000) / 0x100)
    else if off % 0x100 = 8 then .scrivStore ((off - 0x10000) / 0x100) else .unassigned
  else if inWindow off 0x100000 0x28 then .twin ((off - 0x100000) / 8)
  else if inWindow off 0x110000 0x8000 then .epochs ((off - 0x110000) / 8)
  else if inWindow off 0x120000 0x400 then if off % 0x100 = 0 then .regionRepair ((off - 0x120000) / 0x100) else .unassigned
  else if inWindow off 0x130000 0x200 then .blockRepair ((off - 0x130000) / 8)
  else if inWindow off 0x200000 0x28 then .wake ((off - 0x200000) / 8)
  else if inWindow off 0x300000 0x18 then .boot ((off - 0x300000) / 8)
  else if off = 0x400000 then .errCtrl
  else if inWindow off 0x400100 0x20 then .carve ((off - 0x400100) / 8)
  else if off = 0x400200 then .logHead
  else if inWindow off 0x410000 0x2000 then .logWord ((off - 0x410000) / 32) (off % 32 / 8)
  else .unassigned

/-! ## Reads -/

def ChipRegs.get (c : ChipRegs) : ChipReg → Reg
  | .pilotCtrl => c.pilotCtrl
  | .pilotTune => c.pilotTune
  | .fcCtrl => c.fcCtrl
  | .fcMark => c.fcMark
  | .carterCtrl => c.carterCtrl
  | .carterWin => c.carterWin
  | .scrivCtrl => c.scrivCtrl
  | .lockCtrl => c.lockCtrl

def ChipRegs.set (c : ChipRegs) (v : Reg) : ChipReg → ChipRegs
  | .pilotCtrl => { c with pilotCtrl := v }
  | .pilotTune => { c with pilotTune := v }
  | .fcCtrl => { c with fcCtrl := v }
  | .fcMark => { c with fcMark := v }
  | .carterCtrl => { c with carterCtrl := v }
  | .carterWin => { c with carterWin := v }
  | .scrivCtrl => { c with scrivCtrl := v }
  | .lockCtrl => { c with lockCtrl := v }

/-- The eight registers of a port, by word (07 R202). -/
def Dev.portWord (d : Dev) (p word : Nat) : Nat :=
  let x := d.port p
  match word with
  | 0 => x.ctrl.toNat
  | 1 => x.train.statusWord
  | 2 => x.train.peerWord
  | 3 => x.tkCtrl.toNat
  | 4 => x.toll.statusWord
  | 5 => x.route.toNat
  | 6 => d.fcPort p
  | _ => 0

/-- The registers of a send-queue context (08 R233); SQ_CMD is WO. -/
def Sq.word (s : Sq) (idle : Bool) : Nat → Nat
  | 0 => s.base.toNat
  | 1 => s.cfg.toNat
  | 2 => s.stateWord idle
  | 4 => s.errWord
  | _ => 0

/-- The registers of a CQ or EQ context (08 R235). -/
def Cq.word (c : Cq) : Nat → Nat
  | 0 => c.base.toNat
  | 1 => c.cfg.toNat
  | 2 => c.stateWord
  | _ => 0

/-- The translation and key registers, by word (09 R293); TR_OP and KEY_OP are WO. -/
def Endpoint.trWord (x : Endpoint) : Nat → Nat
  | 0 => x.pasidBase.toNat
  | 1 => x.aperture.toNat
  | 3 => x.opAddr.toNat
  | 4 => x.trStatus
  | 9 => x.stage0.toNat
  | 10 => x.stageBase.toNat
  | 11 => x.stageLimit.toNat
  | 12 => x.keyStatus
  | 13 => x.keyResult.toNat
  | _ => 0

/-- The twin registers, by word (15 R478). -/
def Twin.word (t : Twin) : Nat → Nat
  | 0 => t.info
  | 1 => t.cfg.toNat
  | 2 => t.peerSerial
  | 3 => t.mapWord 0
  | 4 => t.mapWord 1
  | _ => 0

/-- The power registers, by word (16 R510). -/
def Dev.wakeWord (d : Dev) : Nat → Nat
  | 0 => d.lantern.wakeCtrl.toNat
  | 1 => d.lantern.linkEnLo.toNat
  | 2 => d.lantern.linkEnHi.toNat
  | 3 => d.pwrState
  | 4 => d.lantern.wakeSrc.word
  | _ => 0

/-- The start-up registers, by word (17 R531). -/
def Dev.bootWord (d : Dev) (f : Fuses) : Nat → Nat
  | 0 => d.boot.status
  | 1 => f.status
  | 2 => d.lantern.resetInfo
  | _ => 0

/-- Register k of EPOCH_TABLE: four routers of 9 bits each in 16 (15 R479). -/
def Dev.epochWord (d : Dev) (k : Nat) : Nat := pack ((List.range 4).map (fun j => (tgetD d.epochs (4 * k + j) 0 % 512, 16)))

/-- What a read returns, through endpoint `e` for the registers of an endpoint (00 R7). -/
def Dev.regValue (d : Dev) (f : Fuses) (e : Nat) : RegAt → Nat
  | .unassigned => 0
  | .ident w => if w = 0 then identLow else identHigh
  | .gateCtrl => (d.ep e).gateCtrl.toNat
  | .gateStatus => d.gateStatus e
  | .gatePriv => d.boot.priv % 65536
  | .chip c => (d.chip.get c).toNat
  | .fcStatus r => (d.region r).fcStatus
  | .live r w => bits (d.region r).live (64 * w + 63) (64 * w)
  | .port p w => d.portWord p w
  | .counter n => d.counterValue n
  | .sq q w => (d.sq e q).word ((d.ep e).idle q) w
  | .cq c w => ((d.ep e).cq c).word w
  | .eq k w => ((d.ep e).eq k).word w
  | .translation w => (d.ep e).trWord w
  | .key k w => ((d.ep e).key k).word w
  | .aperture o => leNat (d.apertureRead e o).2
  | .evtPend w => d.pendWord w
  | .evtMap s => d.evtMap s
  | .msix v h => ((d.ep e).vector v).word h
  | .msixPending w => bits (d.ep e).msixPending (64 * w + 63) (64 * w)
  | .wardenCtrl => d.warden.ctrl.toNat
  | .wardenStatus => d.wardenStatus
  | .clockStatus => d.warden.clockStatus
  | .clockEngines => d.warden.engines
  | .trust k => (tgetD d.warden.trust k 0#64).toNat
  | .cooper r => (d.region r).cooperStatus
  | .lock r => (d.region r).lockStatus
  | .scrivStatus e => if d.epExists e then (d.ep e).scrivStatus else 0
  | .scrivStore e => if d.epExists e then d.scrivStore e else 0
  | .twin w => d.twin.word w
  | .epochs k => d.epochWord k
  | .regionRepair r => (d.region r).repairWord
  | .blockRepair b => (d.block b).repairWord
  | .wake w => d.wakeWord w
  | .boot w => d.bootWord f w
  | .errCtrl => d.errCtrl.toNat
  | .carve r => (d.region r).carve.word
  | .logHead => d.events.seq
  | .logWord n w => d.events.logWord n w

/-- What a read changes: an aperture read beyond the quarter is counted (09 R277). -/
def Dev.afterRead (d : Dev) (e : Nat) : RegAt → Dev
  | .aperture o => (d.apertureRead e o).1
  | _ => d

/-! ## Which islands a register needs -/

/-- Counters of a range that the catalogue assigns in a window that starts at `base`. -/
def touchesCounters (first n base : Nat) (ranges : List (Nat × Nat)) : Bool :=
  ranges.any (fun x => overlaps first n (base + x.1) x.2)

/-- Some counter of a range lies in an island that does not run (14 R451, 18 R540): regions, the ports of regions, blocks. A number that
the catalogue does not assign lies in none. -/
def Dev.countersDown (d : Dev) (first n : Nat) : Bool :=
  allRegions.any (fun r => !d.regionRuns r &&
    (touchesCounters first n (0x10000 + 0x1000 * r) Ctr.regionRanges ||
      (portsOf r).any (fun p => touchesCounters first n (0x20000 + 0x100 * p) Ctr.portRanges))) ||
  (List.range 64).any (fun b => !d.blockRuns b && overlaps first n (0x40000 + 0x40 * b) 4)

/-- The island that holds a register runs (14 R438). PORT_CTRL, TK_CTRL and PORT_ROUTE of a port are written before CLOCK_SWITCH too
(03 R79, 16 R502). -/
def Dev.regRuns (d : Dev) (e : Nat) : RegAt → Bool
  | .fcStatus r | .live r _ | .cooper r | .lock r => d.regionRuns r
  | .port p word => d.regionRuns (p / 32) || ((word == 0 || word == 3 || word == 5) && !d.belfryRuns (p / 32))
  | .scrivStatus e | .scrivStore e => d.regionRuns (regionOf e % 4)
  | .counter n => !d.countersDown n 1
  | .aperture _ => d.hbmRuns (regionOf e)
  | _ => true

/-! ## Writes (00 R7, and the rule of each register) -/

/-- The RW bits of the chip-level registers. -/
def chipMask : ChipReg → Reg
  | .pilotCtrl => 0xFFFFFFFFFFFFFFFF#64
  | .pilotTune => 0x1FF#64
  | .fcCtrl => 0x003FFFFFFFFFFFFF#64
  | .fcMark => 0x0000FFFF0001FFFF#64
  | .carterCtrl => 0xFFFFFFFFFFF3FFFF#64
  | .carterWin => 0xFFFFFFFFFFFFFFFF#64
  | .scrivCtrl => 0x000FFFFFFF1FFFFF#64
  | .lockCtrl => 0x00000000FFFF7FFF#64

/-- A chip-level register is written; the regions follow by CHIP_REGISTER_APPLY (05 R168). While the pair state is not OFF the
alternate-router fields stay as they are (15 R462). -/
def Dev.writeChip (d : Dev) (c : ChipReg) (v : Reg) : Dev :=
  let own : Reg := if c = .pilotCtrl ∧ d.twin.state ≠ .off then alternateFields else 0#64
  let new := ((v &&& chipMask c) &&& ~~~own) ||| (d.chip.get c &&& own)
  { d with chip := d.chip.set new c }

/-- PORT_CTRL: the RW fields, ENABLE's change, RETRAIN (03 R105, R79, R94). -/
def Dev.writePortCtrl (d : Dev) (p : Nat) (v : Reg) : Dev :=
  let d := d.modPort p (fun x => { x with ctrl := (v &&& 0x0000FFFFFFFF02FE#64) ||| (x.ctrl &&& 1#64) })
  let d := d.portEnable p (rbit v 0)
  if rbit v 8 then d.portRetrain p else d

/-- PORT_ROUTE (05 R169): a port whose ROUTE_EN becomes 0 is pruned, and one whose ROUTE_EN becomes 1 may be live again (R157). -/
def Dev.writePortRoute (d : Dev) (p : Nat) (v : Reg) : Dev :=
  let was := (d.port p).routeEn
  let d := d.modPort p (fun x => { x with route := v &&& 7#64 })
  if was == rbit v 2 then d
  else if was then (if (d.region (p / 32)).state == .run then d.prune p else d.setLive (p / 32) p)
  else d.setLive (p / 32) p

def Dev.writePort (d : Dev) (p word : Nat) (v : Reg) : Dev :=
  match word with
  | 0 => d.writePortCtrl p v
  | 3 => d.modPort p (fun x => { x with tkCtrl := v &&& 0x0000FFFFFFFFFFFF#64 })
  | 5 => d.writePortRoute p v
  | _ => d

/-- GATE_CTRL (07 R207). -/
def Dev.writeGateCtrl (d : Dev) (e : Nat) (v : Reg) : Dev :=
  let d := d.modEp e (fun x => { x with gateCtrl := v &&& 0x0000FFFF07FF000E#64 })
  if rbit v 0 then d.gateStop e 1 else d

def Dev.writeSq (d : Dev) (e q word : Nat) (v : Reg) : Dev :=
  match word with
  | 0 => d.sqBaseWrite e q v
  | 1 => d.sqCfgWrite e q v
  | 3 => if rbit v 0 then d.sqReset e q else d
  | _ => d

def Dev.writeCq (d : Dev) (e c word : Nat) (v : Reg) : Dev :=
  match word with
  | 0 => d.cqBaseWrite e c v
  | 1 => d.cqCfgWrite e c v
  | _ => d

def Dev.writeEq (d : Dev) (e k word : Nat) (v : Reg) : Dev :=
  match word with
  | 0 => d.eqBaseWrite e k v
  | 1 => d.eqCfgWrite e k v
  | _ => d

def Dev.writeTranslation (d : Dev) (e word : Nat) (v : Reg) : Dev :=
  match word with
  | 0 => d.modEp e (fun x => { x with pasidBase := v &&& 0xFFFFFFFFFFFFF07F#64 })
  | 1 => d.modEp e (fun x => { x with aperture := v &&& 0x7FF80000#64 })
  | 2 => d.trOp e v
  | 3 => d.modEp e (fun x => { x with opAddr := v &&& baseMask })
  | 8 => d.keyOpWrite e v
  | 9 => d.modEp e (fun x => { x with stage0 := v &&& 0x0001FFFFFFFFFFFF#64 })
  | 10 => d.modEp e (fun x => { x with stageBase := v })
  | 11 => d.modEp e (fun x => { x with stageLimit := v })
  | _ => d

/-- An MSI-X table entry (07 R220): the address half, or the data with the mask bit. -/
def Dev.writeMsix (d : Dev) (e n : Nat) (high : Bool) (v : Reg) : Dev :=
  if high then
    (d.modEp e (fun x => { x with msix := tput x.msix n { x.vector n with data := rbits v 31 0 } })).maskVector e n (rbit v 32)
  else d.modEp e (fun x => { x with msix := tput x.msix n { x.vector n with addr := v.toNat } })

/-- Register k of EPOCH_TABLE; the regions follow by EPOCH_PROPAGATE (15 R479). -/
def Dev.writeEpochs (d : Dev) (k : Nat) (v : Reg) : Dev :=
  forEach (List.range 4) (fun j d => { d with epochs := tput d.epochs (4 * k + j) (rbits v (16 * j + 8) (16 * j)) }) d

def Dev.writeWake (d : Dev) (word : Nat) (v : Reg) : Dev :=
  match word with
  | 0 => d.modLantern (fun l => { l with wakeCtrl := v &&& 0xFFFF003F#64 })
  | 1 => d.modLantern (fun l => { l with linkEnLo := v })
  | 2 => d.modLantern (fun l => { l with linkEnHi := v })
  | _ => d

/-- An 8-byte write, through endpoint `e` for the registers of an endpoint. RO and RSV registers stay as they are. -/
def Dev.writeReg (d : Dev) (e : Nat) (a : RegAt) (v : Reg) : Dev :=
  match a with
  | .gateCtrl => d.writeGateCtrl e v
  | .chip c => d.writeChip c v
  | .port p w => d.writePort p w v
  | .counter n => d.clearCounter n
  | .sq q w => d.writeSq e q w v
  | .cq c w => d.writeCq e c w v
  | .eq k w => d.writeEq e k w v
  | .translation w => d.writeTranslation e w v
  | .aperture o => d.apertureWrite e o (leBytes 8 v.toNat)
  | .evtPend w => d.pendClear e w v.toNat
  | .msix n h => d.writeMsix e n h v
  | .wardenCtrl => d.modWarden (fun w => { w with ctrl := v &&& 0x000007FFFFFFFFFF#64 })
  | .trust k => d.modWarden (fun w => { w with trust := tput w.trust k (v &&& 0x7FFF#64) })
  | .epochs k => d.writeEpochs k v
  | .wake w => d.writeWake w v
  | .errCtrl => { d with errCtrl := v &&& 0xFFFFFFFF#64 }
  | _ => d

/-! ## BAR0 writes (07 R203, R204) -/

/-- A register whose write triggers an action of its low half: the high half alone triggers none (07 R203). -/
def RegAt.actsLow : RegAt → Bool
  | .translation 2 | .translation 8 | .sq _ 3 => true
  | _ => false

/-- A 4-byte write of one half: RW bits of the other half keep their value, RW1C and WO bits there are written 0. -/
def Dev.writeHalf (d : Dev) (e : Nat) (a : RegAt) (high : Bool) (v : Nat) : Dev :=
  let sh := if high then 32 else 0
  let keep := match a with
    | .evtPend _ => 0
    | _ => putBits (d.regValue ⟨0, false, []⟩ e a) (sh + 31) sh 0
  if high && a.actsLow then d else d.writeReg e a (BitVec.ofNat 64 (keep + (v % 2 ^ 32) <<< sh))

/-- The writes that need PRIV (07 R204). -/
def needsPriv (off : Nat) : Bool := decide (0x10000 ≤ off ∧ off ≤ 0x107FFF) || inWindow off 0x400000 0x400000

/-- The register lies in another island than the gate's, and that island does not run: the write is lost at the crossing
(01 R34). -/
def Dev.barReaches (d : Dev) (e : Nat) (a : RegAt) : Bool :=
  match a with
  | .chip _ | .evtPend _ => d.wardenRuns
  | a => d.regRuns e a

/-- Sizes and alignments that BAR0 accepts. -/
def barSize (off size : Nat) : Bool := (size == 4 || size == 8) && off % size == 0

/-- A BAR0 write of `size` bytes. -/
def Dev.bar0Write (d : Dev) (e off size : Nat) (v : Reg) : Dev :=
  let a := barReg off
  if !d.barOpen e then d
  else match a with
  | .aperture o => d.apertureAccess e o (.write (leBytes size v.toNat))
  | a =>
    if !barSize off size then d.count (Ctr.badAccess e)
    else if needsPriv off && !d.priv e then d.count (Ctr.unprivWrites e)
    else if !d.barReaches e a then d.crossingDrop (regionOf e)
    else if size = 8 then d.writeReg e a v
    else d.writeHalf e a (off % 8 == 4) v.toNat

/-- A BAR0 read of `size` bytes: none is Unsupported Request. What comes back from an island that does not run is a free value (log
entry 53). -/
def Dev.bar0Read (d : Dev) (f : Fuses) (e off size : Nat) : Dev :=
  let give (d : Dev) (v : Nat) : Dev := d.sendData e (some (leBytes size (v >>> (8 * (off % 8)))))
  match d.barOpen e, barReg off with
  | false, _ => d.sendUr e
  | true, .aperture o => d.apertureAccess e o (.read size)
  | true, a =>
    if !barSize off size then (d.count (Ctr.badAccess e)).sendUr e
    else if d.barReaches e a then give d (d.regValue f e a)
    else give (d.crossingDrop (regionOf e)).draw (Config.deadRead d.free).toNat

/-- A host's access of BAR0, or a read of BAR2, which returns 0 (07 R205). -/
def Dev.barAccess (d : Dev) (f : Fuses) (e : Nat) : BarAccess → Dev
  | .write off size v => d.bar0Write e off size v
  | .read off size => d.bar0Read f e off size
  | .readDoorbells _ size => if d.barOpen e then d.sendData e (some (zeros size)) else d.sendUr e

/-- REGISTER_WRITE (00 R7, 07 R203, R205). -/
def execRegisterWrite (ep : Fin 16) (acc : BarAccess) (s : State) : Host.Outcome State Fault Refusal :=
  actIf (fun d => d.epUp ep.val) (fun d => d.barAccess s.fuses ep.val acc) s

/-- EVT_PEND_CLEAR (18 R548): an 8-byte write of an EVT_PEND word. -/
def execEvtPendClear (ep : Fin 16) (word : Fin 22) (value : Reg) (s : State) : Host.Outcome State Fault Refusal :=
  actIf (fun d => d.epUp ep.val) (fun d => d.bar0Write ep.val (0x1100000 + 8 * word.val) 8 value) s

/-- COUNTER_WRITE_CLEAR (18 R544): a write of any value at an offset of the counter window. -/
def execCounterWriteClear (ep : Fin 16) (off : Nat) (size : Nat) (s : State) : Host.Outcome State Fault Refusal :=
  actIf (fun d => d.epUp ep.val) (fun d => d.bar0Write ep.val (0x400000 + off) size 0#64) s

/-! ## Register commands (14 R448 to R450) -/

/-- Endpoint of an address, for SPACE 0. -/
def addrEp (addr : Nat) : Nat := bits addr 39 36

/-- An address is one that R448 admits. -/
def Dev.addrOk (d : Dev) (addr : Nat) : Bool :=
  addr % 8 == 0 && decide (bits addr 35 32 ≤ 1) && bits addr 63 40 == 0 &&
    (bits addr 35 32 == 1 || d.epExists (addrEp addr))

/-- The register `i` words above an address. -/
def regOf (addr i : Nat) : RegAt :=
  let off := bits addr 31 0 + 8 * i
  if bits addr 35 32 = 0 then barReg off else chipSpaceReg off

/-- Some register of a range lies in an island that does not run. -/
def Dev.rangeDown (d : Dev) (addr n : Nat) : Bool :=
  d.addrOk addr && decide (n ≤ 256) && (List.range n).any (fun i => !d.regRuns (addrEp addr) (regOf addr i))

/-- COUNT of REG_READ and REG_WRITE, 1 to 256. -/
def regCount (p : List Byte) : Nat := field p 8 2
def countOk (n : Nat) : Bool := decide (1 ≤ n ∧ n ≤ 256)

def regReadForm : Form :=
  { opcode := 0x0E01, len := fun _ => 16, zero := [(80, 127)], ranged := fun p => countOk (regCount p),
    replyLen := fun p => 8 * regCount p, down := fun d q => d.rangeDown (field q.params 0 8) (regCount q.params) }

/-- The values of a range, ascending. -/
def State.readRange (s : State) (addr : Nat) (n : Nat) : State × List Byte :=
  let e := addrEp addr
  let vals := (List.range n).flatMap (fun i => leBytes 8 (s.dev.regValue s.fuses e (regOf addr i)))
  ({ s with dev := forEach (List.range n) (fun i d => d.afterRead e (regOf addr i)) s.dev }, vals)

/-- REG_READ (14 R449). -/
def State.regRead (s : State) (q : Request) : State × Answer :=
  let addr := field q.params 0 8
  if !(s.dev.addrOk addr && countOk (regCount q.params)) then (s, .done Ocm.invalidParameter [])
  else let r := s.readRange addr (regCount q.params); (r.1, .done Ocm.ok r.2)

def execRegRead (path : Path) (tag : Nat) (s : State) : Host.Outcome State Fault Refusal :=
  .next (s.startCommand regReadForm path tag State.regRead)

def regWriteForm : Form :=
  { opcode := 0x0E02, len := fun p => 16 + 8 * regCount p, zero := [(80, 127)], ranged := fun p => countOk (regCount p),
    replyLen := fun _ => 0, down := fun d q => d.rangeDown (field q.params 0 8) (regCount q.params) }

/-- REG_WRITE (14 R450). -/
def Dev.regWrite (d : Dev) (q : Request) : Dev × Answer :=
  let p := q.params
  let addr := field p 0 8
  let n := regCount p
  if !(d.addrOk addr && countOk n) then (d, .done Ocm.invalidParameter [])
  else
    (forEach (List.range n) (fun i d =>
      d.writeReg (addrEp addr) (regOf addr i) (BitVec.ofNat 64 (field p (16 + 8 * i) 8))) d, .done Ocm.ok [])

def execRegWrite (path : Path) (tag : Nat) (s : State) : Host.Outcome State Fault Refusal :=
  command regWriteForm path tag Dev.regWrite s

def regModifyForm : Form :=
  { Form.fixed 0x0E03 24 [] 16 with down := fun d q => d.rangeDown (field q.params 0 8) 1 }

/-- REG_MODIFY (14 R450). -/
def State.regModify (s : State) (q : Request) : State × Answer :=
  let p := q.params
  let addr := field p 0 8
  if !s.dev.addrOk addr then (s, .done Ocm.invalidParameter [])
  else
    let e := addrEp addr
    let a := regOf addr 0
    let old : Reg := BitVec.ofNat 64 (s.dev.regValue s.fuses e a)
    let mask : Reg := BitVec.ofNat 64 (field p 8 8)
    let new := (old &&& ~~~mask) ||| (BitVec.ofNat 64 (field p 16 8) &&& mask)
    ({ s with dev := (s.dev.afterRead e a).writeReg e a new }, .done Ocm.ok (leBytes 8 old.toNat ++ leBytes 8 new.toNat))

def execRegModify (path : Path) (tag : Nat) (s : State) : Host.Outcome State Fault Refusal :=
  .next (s.startCommand regModifyForm path tag State.regModify)

/-! ## Counter commands (14 R451, R452) -/

def counterFirst (p : List Byte) : Nat := field p 0 4
def counterCount (p : List Byte) : Nat := field p 4 2

def counterReadForm : Form :=
  { opcode := 0x0E08, len := fun _ => 8, zero := [(49, 63)], ranged := fun p => countOk (counterCount p),
    replyLen := fun p => 8 * counterCount p,
    down := fun d q => countOk (counterCount q.params) && d.countersDown (counterFirst q.params) (counterCount q.params) }

/-- Counters of a range set to 0. -/
def Dev.clearCounters (d : Dev) (first n : Nat) : Dev := { d with counters := tdropRange d.counters first (first + n) }

/-- COUNTER_READ (14 R451). -/
def Dev.counterRead (d : Dev) (q : Request) : Dev × Answer :=
  let p := q.params
  let first := counterFirst p
  let n := counterCount p
  if !countOk n then (d, .done Ocm.invalidParameter [])
  else
    let vals := (List.range n).flatMap (fun i => leBytes 8 (d.counterValue (first + i)))
    (if bit (byteAt p 6) 0 then d.clearCounters first n else d, .done Ocm.ok vals)

def execCounterRead (path : Path) (tag : Nat) (s : State) : Host.Outcome State Fault Refusal :=
  command counterReadForm path tag Dev.counterRead s

/-- COUNT of COUNTER_CLEAR, 1 to 1,048,576. -/
def clearCount (p : List Byte) : Nat := field p 4 4
def clearCountOk (n : Nat) : Bool := decide (1 ≤ n ∧ n ≤ 1048576)

def counterClearForm : Form :=
  { Form.fixed 0x0E09 8 [] 0 with
    ranged := fun p => clearCountOk (clearCount p)
    down := fun d q => clearCountOk (clearCount q.params) && d.countersDown (counterFirst q.params) (clearCount q.params) }

/-- COUNTER_CLEAR (14 R452). -/
def Dev.counterClear (d : Dev) (q : Request) : Dev × Answer :=
  let n := clearCount q.params
  if !clearCountOk n then (d, .done Ocm.invalidParameter [])
  else (d.clearCounters (counterFirst q.params) n, .done Ocm.ok [])

def execCounterClear (path : Path) (tag : Nat) (s : State) : Host.Outcome State Fault Refusal :=
  command counterClearForm path tag Dev.counterClear s

end Sys2Proof.Machine
end

