-- ==== Sys2Proof/Machine/Slips.lean ====
section
/-! DEFINITION. LANE_BITSLIP (03 R88 to R91, R93, R94, R96), from a command path or from the Warden firmware. -/

namespace Sys2Proof.Machine

/-! ## Parameters (R90) -/

def slipPort (p : List Byte) : Nat := bits (byteAt p 0) 6 0
def slipOp (p : List Byte) : Nat := byteAt p 1
def slipLanes (p : List Byte) : List Nat := setBits (byteAt p 2) 8
def slipWindow (p : List Byte) : Nat := bits (byteAt p 7) 3 0

/-- Reply bytes of each selected lane. -/
def slipEntry (op : Nat) : Nat := if op = 0 then 72 else if op = 1 then 0 else 4

def slipForm : Form :=
  { opcode := 0x0311, len := fun _ => 16, zero := [(7, 7), (24, 31), (60, 63), (64, 127)],
    ranged := fun p => decide (slipOp p ≤ 3), replyLen := fun p => slipEntry (slipOp p) * (slipLanes p).length,
    down := fun d q => !d.regionRuns (slipPort q.params / 32) }

/-- The states in which SLIP and CHECK are accepted (R91). -/
def PState.aligning (s : PState) : Bool := s == .t0Align || s == .step || s == .retrain

/-- The Warden firmware works on a port: MANUAL_ALIGN is 0 (R89). -/
def Dev.firmwareAligns (d : Dev) (p : Nat) : Bool := d.wardenRuns && !(d.port p).manualAlign

/-- A request of a path, when its OP is one of those that the row holds. -/
def slipCommand (own : Nat → Bool) (path : Path) (tag : Nat) (body : Dev → Request → Dev × Answer) (s : State) :
    Host.Outcome State Fault Refusal :=
  commandIf (fun q => own (slipOp q.params)) slipForm path tag body s

/-! ## CAPTURE -/

/-- K28.5 of either disparity, the first-received bit at bit 0 (R83, R89). -/
def commaAt (raw pos : Nat) : Bool := bits raw (pos + 9) pos == 0x17C || bits raw (pos + 9) pos == 0x283

/-- A MARKER with a valid CRC16 (R86, R89). -/
def markerAt (raw pos : Nat) : Bool :=
  let w := leBytes 36 (raw >>> pos)
  field w 0 4 == 0x9B3E61C5 && crc16 ((w.drop 4).take 30) == field w 34 2

/-- The offset that the search finds in a capture, as BIT_SLIP counts it: the first K28.5 within a symbol at T0, the first MARKER
with a valid CRC16 at T1 to T3, at PAM4 on a symbol boundary (R76, R88, R89). -/
def firstOffset (tier raw : Nat) : Option Nat :=
  if tier = 0 then ((List.range 567).find? (commaAt raw)).map (· % 10)
  else if tier = 1 then (List.range 288).find? (markerAt raw)
  else (List.range 144).find? (fun k => markerAt raw (2 * k))

/-- The 72 bytes of each selected lane. -/
def captureReply (p : List Byte) (raw : List (List Byte)) : List Byte :=
  ((List.range (slipLanes p).length).flatMap (fun k => sliceBytes (raw.getD k []) 0 72))

/-- The firmware searches: in T0_ALIGN, in STEP once phase is acquired, and in RETRAIN once a CHECK has failed (R89, R93, R94). -/
def Train.searches (t : Train) : Bool :=
  t.state == .t0Align || (t.state == .step && t.phased) || (t.state == .retrain && t.phased && decide (0 < t.checkFails))

/-- The firmware's capture: the offset found on a good lane is the lane's next SLIP; a lane with none is marked not good (R89). -/
def Dev.firmwareCapture (d : Dev) (p : List Byte) (raw : List (List Byte)) : Dev :=
  let port := slipPort p
  if !(d.port port).train.searches then d else
  forEach ((slipLanes p).zip raw) (fun x d =>
    let t := (d.port port).train
    if !(t.lane x.1).good then d else
    match firstOffset t.tier (leNat (sliceBytes x.2 0 72)) with
    | some off => d.modTrain port (fun t => t.modLane x.1 (fun y => { y with found := some (off, 0) }))
    | none => d.laneFail port x.1) d

def execLaneBitslipCapture (who : SlipBy) (raw : List (List Byte)) (s : State) : Host.Outcome State Fault Refusal :=
  match who with
  | .request path tag =>
    slipCommand (fun op => op == 0) path tag (fun d q => (d, .done Ocm.ok (captureReply q.params raw))) s
  | .firmware p => actIf (fun d => d.firmwareAligns (slipPort p) && slipOp p == 0) (fun d => d.firmwareCapture p raw) s

/-! ## SLIP -/

/-- The ranges of R88. -/
def slipInRange (tier slip delay : Nat) : Bool :=
  if tier = 0 then decide (slip ≤ 9 ∧ delay ≤ 15)
  else if tier = 1 then decide (slip ≤ 287 ∧ delay ≤ 7)
  else decide (slip ≤ 143 ∧ delay ≤ 7)

/-- SLIP sets both settings of every selected lane (R90, R91). -/
def Dev.slip (d : Dev) (p : List Byte) : Dev :=
  d.modTrain (slipPort p) (fun t =>
    (slipLanes p).foldl (fun t l => t.modLane l (fun x => { x with bitSlip := field p 4 2, wordDelay := byteAt p 6, found := none })) t)

/-- A SLIP of the firmware sets what its search has found on every lane it selects (R89). -/
def Dev.slipFound (d : Dev) (p : List Byte) : Bool :=
  let t := (d.port (slipPort p)).train
  !(slipLanes p).isEmpty && (slipLanes p).all (fun l => (t.lane l).found == some (field p 4 2, byteAt p 6))

/-- The status of a SLIP (R91): the port's state, the ranges, and, for a command path, MANUAL_ALIGN. -/
def Dev.slipStatus (d : Dev) (p : List Byte) (firmware : Bool) : Nat :=
  let x := d.port (slipPort p)
  if !x.train.state.aligning then Ocm.wrongState
  else if !slipInRange x.train.tier (field p 4 2) (byteAt p 6) then Ocm.invalidParameter
  else if !firmware && !x.manualAlign then Ocm.wrongState
  else Ocm.ok

def Dev.slipBody (d : Dev) (q : Request) : Dev × Answer :=
  let st := d.slipStatus q.params false
  (if st = Ocm.ok then d.slip q.params else d, .done st [])

def execLaneBitslipSlip (who : SlipBy) (s : State) : Host.Outcome State Fault Refusal :=
  match who with
  | .request path tag => slipCommand (fun op => op == 1) path tag Dev.slipBody s
  | .firmware p =>
    actIf (fun d => d.firmwareAligns (slipPort p) && slipOp p == 1 && d.slipFound p && d.slipStatus p true == Ocm.ok)
      (fun d => d.slip p) s

/-! ## CHECK -/

/-- How far a lane's POS lies ahead of another's: the delay that lines it up (R89). -/
def posLag (tier pos base : Nat) : Nat :=
  if tier = 0 then (base + 16 - pos % 16) % 16 else (pos + 256 - base % 256) % 256

/-- The largest delay that WORD_DELAY can make (R88). -/
def slipMax (tier : Nat) : Nat := if tier = 0 then 15 else 7

/-- POS of the lane that receives last: the one that leaves the others the least delay. -/
def latestPos (tier : Nat) (seen : List (Nat × Nat × Nat)) : Nat :=
  match minBy (fun b => seen.foldl (fun m x => max m (posLag tier x.2.2 b.2.2)) 0) seen with
  | some b => b.2.2
  | none => 0

/-- The firmware's first CHECK finds the WORD_DELAY that lines each good lane up with the latest, and marks the lanes that none
lines up (R89). -/
def Dev.findDelays (d : Dev) (port : Nat) (seen : List (Nat × Nat × Nat)) : Dev :=
  let t := (d.port port).train
  if !t.searches then d else
  let seen := seen.filter (fun x => (t.lane x.1).good)
  let base := latestPos t.tier seen
  forEach seen (fun x d =>
    let lag := posLag t.tier x.2.2 base
    if lag ≤ slipMax t.tier then
      d.modTrain port (fun t => t.modLane x.1 (fun y => { y with found := some (y.bitSlip, lag) }))
    else d.laneFail port x.1) d

/-- A CHECK that aligns: every good lane of the training is selected, every word of a window of 256 or more is accepted, and all
lanes show one POS (R89). -/
def Train.checkPasses (t : Train) (window : Nat) (seen : List (Nat × Nat × Nat)) : Bool :=
  let of (l : Nat) := seen.find? (fun x => x.1 == l)
  match t.goodTrained with
  | [] => false
  | f :: ls =>
    match of f with
    | none => false
    | some a => (f :: ls).all (fun l => match of l with
      | some b => b.2.1 == 2 ^ (window + 4) && b.2.2 == a.2.2
      | none => false)

/-- This end is aligned (R80, R93, R94). -/
def Dev.becomeAligned (d : Dev) (port : Nat) : Dev :=
  let t := (d.port port).train
  match t.state with
  | .t0Align => d.toConfig port
  | .step | .retrain =>
    if t.phased then (d.modTrain port (fun t => { t with aligned := true })).agreeWord port else d
  | _ => d

/-- A CHECK of every good lane that the training runs on, as the firmware makes it (R89, R94). -/
def Train.checksAll (t : Train) (lanes : List Nat) : Bool := t.goodTrained.all (fun l => lanes.contains l)

/-- A CHECK that fails in RETRAIN; after the second the device acquires phase again (R94). -/
def Dev.checkFails (d : Dev) (port : Nat) : Dev :=
  d.modTrain port (fun t =>
    if t.state = .retrain then { t with checkFails := t.checkFails + 1, phased := t.phased && decide (t.checkFails = 0) } else t)

/-- What a CHECK does: `seen` holds MATCHES and POS of each selected lane. -/
def Dev.check (d : Dev) (p : List Byte) (seen : List (Nat × Nat)) (firmware : Bool) : Dev :=
  let port := slipPort p
  let seen := (slipLanes p).zip seen
  if slipWindow p < 4 then (if firmware then d.findDelays port seen else d)
  else if (d.port port).train.checkPasses (slipWindow p) seen then d.becomeAligned port
  else if (d.port port).train.checksAll (slipLanes p) then d.checkFails port
  else d

/-- The status of a CHECK (R90, R91). -/
def Dev.checkStatus (d : Dev) (p : List Byte) : Nat :=
  if 8 < slipWindow p then Ocm.invalidParameter
  else if !(d.port (slipPort p)).train.state.aligning then Ocm.wrongState
  else Ocm.ok

/-- The reply of a CHECK: MATCHES saturates at 65,535. -/
def checkReply (p : List Byte) (seen : List (Nat × Nat)) : List Byte :=
  ((slipLanes p).zip seen).flatMap (fun x => leBytes 4 (pack [(min 65535 x.2.1, 16), (x.2.2, 8), (0, 8)]))

def Dev.checkBody (d : Dev) (q : Request) (seen : List (Nat × Nat)) : Dev × Answer :=
  let st := d.checkStatus q.params
  if st = Ocm.ok then (d.check q.params seen false, .done st (checkReply q.params seen)) else (d, .done st [])

def execLaneBitslipCheck (who : SlipBy) (seen : List (Nat × Nat)) (s : State) : Host.Outcome State Fault Refusal :=
  match who with
  | .request path tag => slipCommand (fun op => op == 2) path tag (fun d q => d.checkBody q seen) s
  | .firmware p =>
    actIf (fun d => d.firmwareAligns (slipPort p) && slipOp p == 2 && d.checkStatus p == Ocm.ok)
      (fun d => d.check p seen true) s

/-! ## READ -/

/-- BIT_SLIP, WORD_DELAY and GOOD of each selected lane (R90). -/
def Dev.slipRead (d : Dev) (p : List Byte) : List Byte :=
  let t := (d.port (slipPort p)).train
  (slipLanes p).flatMap (fun l =>
    let x := t.lane l
    leBytes 4 (pack [(x.bitSlip, 16), (x.wordDelay, 8), (b2n x.good, 1)]))

def Dev.readBody (d : Dev) (q : Request) : Dev × Answer :=
  if slipOp q.params = 3 then (d, .done Ocm.ok (d.slipRead q.params)) else (d, .done Ocm.invalidParameter [])

/-- READ; an OP that R90 does not list is refused here too. -/
def execLaneBitslipRead (who : SlipBy) (s : State) : Host.Outcome State Fault Refusal :=
  match who with
  | .request path tag => slipCommand (fun op => decide (3 ≤ op)) path tag Dev.readBody s
  | .firmware _ => .next s

end Sys2Proof.Machine
end

