-- ==== Sys2Proof/Machine/Dispatch.lean ====
section
/-! DEFINITION. The meaning of every command: one arm per constructor of Instr. -/

namespace Sys2Proof.Machine

def exec (i : Instr) (s : State) : Host.Outcome State Fault Refusal :=
  match i with
  | .resetNRelease straps => Sys2Proof.Machine.execResetNRelease straps s
  | .powerGoodHigh g => Sys2Proof.Machine.execPowerGoodHigh g s
  | .railSettleEnd => Sys2Proof.Machine.execRailSettleEnd s
  | .railStartFault => Sys2Proof.Machine.execRailStartFault s
  | .railRemoveNext pgLow => Sys2Proof.Machine.execRailRemoveNext pgLow s
  | .brownOut g => Sys2Proof.Machine.execBrownOut g s
  | .resetNAsserted => Sys2Proof.Machine.execResetNAsserted s
  | .lanternClockFault stoppedNs => Sys2Proof.Machine.execLanternClockFault stoppedNs s
  | .cageScanFrame din => Sys2Proof.Machine.execCageScanFrame din s
  | .thermalSample readings => Sys2Proof.Machine.execThermalSample readings s
  | .tjSecond => Sys2Proof.Machine.execTjSecond s
  | .portEnableChange p enable => Sys2Proof.Machine.execPortEnableChange p enable s
  | .portRetrain p => Sys2Proof.Machine.execPortRetrain p s
  | .ckDetected p => Sys2Proof.Machine.execCkDetected p s
  | .trainingTimeout p => Sys2Proof.Machine.execTrainingTimeout p s
  | .backoffEnd p => Sys2Proof.Machine.execBackoffEnd p s
  | .ckLoss p last => Sys2Proof.Machine.execCkLoss p last s
  | .ts1Received p lane groups => Sys2Proof.Machine.execTs1Received p lane groups s
  | .ts2Received p lane groups => Sys2Proof.Machine.execTs2Received p lane groups s
  | .countdownEnd p => Sys2Proof.Machine.execCountdownEnd p s
  | .phaseAcquired p => Sys2Proof.Machine.execPhaseAcquired p s
  | .trainingWordReceived p lane word => Sys2Proof.Machine.execTrainingWordReceived p lane word s
  | .laneBitslipCapture who raw => Sys2Proof.Machine.execLaneBitslipCapture who raw s
  | .laneBitslipSlip who => Sys2Proof.Machine.execLaneBitslipSlip who s
  | .laneBitslipCheck who seen => Sys2Proof.Machine.execLaneBitslipCheck who seen s
  | .laneBitslipRead who => Sys2Proof.Machine.execLaneBitslipRead who s
  | .lanePhaseFail p lane => Sys2Proof.Machine.execLanePhaseFail p lane s
  | .laneErrorWindow p => Sys2Proof.Machine.execLaneErrorWindow p s
  | .txSleepEntry p => Sys2Proof.Machine.execTxSleepEntry p s
  | .txWake p => Sys2Proof.Machine.execTxWake p s
  | .wakeFail p => Sys2Proof.Machine.execWakeFail p s
  | .sleepRefresh p => Sys2Proof.Machine.execSleepRefresh p s
  | .limpFrameReceived p lanes => Sys2Proof.Machine.execLimpFrameReceived p lanes s
  | .fcReceived p lane groups => Sys2Proof.Machine.execFcReceived p lane groups s
  | .limpFcSend p => Sys2Proof.Machine.execLimpFcSend p s
  | .limpRetry p => Sys2Proof.Machine.execLimpRetry p s
  | .linkUnitReceived p slot => Sys2Proof.Machine.execLinkUnitReceived p slot s
  | .linkUnitSend p => Sys2Proof.Machine.execLinkUnitSend p s
  | .resendTimeout p => Sys2Proof.Machine.execResendTimeout p s
  | .nakRepeat p => Sys2Proof.Machine.execNakRepeat p s
  | .creditTimeout p => Sys2Proof.Machine.execCreditTimeout p s
  | .replayHoldEnd p => Sys2Proof.Machine.execReplayHoldEnd p s
  | .packetHeaderRegistered r input pkt => Sys2Proof.Machine.execPacketHeaderRegistered r input pkt s
  | .epochPropagate r => Sys2Proof.Machine.execEpochPropagate r s
  | .liveMaskUpdate r p => Sys2Proof.Machine.execLiveMaskUpdate r p s
  | .buttressSidebandReport r => Sys2Proof.Machine.execButtressSidebandReport r s
  | .routeWrite path tag => Sys2Proof.Machine.execRouteWrite path tag s
  | .routeCopy path tag => Sys2Proof.Machine.execRouteCopy path tag s
  | .routeCommit path tag => Sys2Proof.Machine.execRouteCommit path tag s
  | .routeRead path tag => Sys2Proof.Machine.execRouteRead path tag s
  | .chipRegisterApply r reg => Sys2Proof.Machine.execChipRegisterApply r reg s
  | .flitStore p vc flit => Sys2Proof.Machine.execFlitStore p vc flit s
  | .internalFlitAccept r input vc => Sys2Proof.Machine.execInternalFlitAccept r input vc s
  | .goStatusUpdate r => Sys2Proof.Machine.execGoStatusUpdate r s
  | .switchAllocation r output => Sys2Proof.Machine.execSwitchAllocation r output s
  | .egressSelect p => Sys2Proof.Machine.execEgressSelect p s
  | .mgmtHoldExpiry r id => Sys2Proof.Machine.execMgmtHoldExpiry r id s
  | .perstAsserted g => Sys2Proof.Machine.execPerstAsserted g s
  | .perstReleased g => Sys2Proof.Machine.execPerstReleased g s
  | .linkActive ep width rate flit => Sys2Proof.Machine.execLinkActive ep width rate flit s
  | .surpriseRemoval ep => Sys2Proof.Machine.execSurpriseRemoval ep s
  | .busMasterEnableSet ep => Sys2Proof.Machine.execBusMasterEnableSet ep s
  | .busMasterEnableClear ep => Sys2Proof.Machine.execBusMasterEnableClear ep s
  | .powerStateD3hot ep => Sys2Proof.Machine.execPowerStateD3hot ep s
  | .powerStateD0 ep => Sys2Proof.Machine.execPowerStateD0 ep s
  | .functionLevelReset ep => Sys2Proof.Machine.execFunctionLevelReset ep s
  | .hotReset ep => Sys2Proof.Machine.execHotReset ep s
  | .gateStop ep => Sys2Proof.Machine.execGateStop ep s
  | .completionReceived ep c => Sys2Proof.Machine.execCompletionReceived ep c s
  | .cplTimeout ep tag => Sys2Proof.Machine.execCplTimeout ep tag s
  | .tagQuarantineEnd ep tag => Sys2Proof.Machine.execTagQuarantineEnd ep tag s
  | .bar4Access ep off acc => Sys2Proof.Machine.execBar4Access ep off acc s
  | .l1EntryRequest ep => Sys2Proof.Machine.execL1EntryRequest ep s
  | .l0pWindow ep upPercent downPercent => Sys2Proof.Machine.execL0pWindow ep upPercent downPercent s
  | .sqDoorbell ep off data => Sys2Proof.Machine.execSqDoorbell ep off data s
  | .sqPush ep off data => Sys2Proof.Machine.execSqPush ep off data s
  | .cqDoorbell ep off data => Sys2Proof.Machine.execCqDoorbell ep off data s
  | .sqEnable ep sq cfg => Sys2Proof.Machine.execSqEnable ep sq cfg s
  | .sqDisable ep sq cfg => Sys2Proof.Machine.execSqDisable ep sq cfg s
  | .sqDrainDone ep sq => Sys2Proof.Machine.execSqDrainDone ep sq s
  | .sqReset ep sq => Sys2Proof.Machine.execSqReset ep sq s
  | .sqResetEnd ep sq => Sys2Proof.Machine.execSqResetEnd ep sq s
  | .cqEnable ep q cfg => Sys2Proof.Machine.execCqEnable ep q cfg s
  | .cqDisable ep q cfg => Sys2Proof.Machine.execCqDisable ep q cfg s
  | .entryFetch ep => Sys2Proof.Machine.execEntryFetch ep s
  | .ringFetchFail ep sq res => Sys2Proof.Machine.execRingFetchFail ep sq res s
  | .nop ep sq => Sys2Proof.Machine.execNop ep sq s
  | .chain ep sq => Sys2Proof.Machine.execChain ep sq s
  | .put ep sq => Sys2Proof.Machine.execPut ep sq s
  | .putInline ep sq => Sys2Proof.Machine.execPutInline ep sq s
  | .get ep sq => Sys2Proof.Machine.execGet ep sq s
  | .putSignal ep sq => Sys2Proof.Machine.execPutSignal ep sq s
  | .atomic64 ep sq => Sys2Proof.Machine.execAtomic64 ep sq s
  | .atomic128 ep sq => Sys2Proof.Machine.execAtomic128 ep sq s
  | .send ep sq => Sys2Proof.Machine.execSend ep sq s
  | .sendInline ep sq => Sys2Proof.Machine.execSendInline ep sq s
  | .recv ep sq => Sys2Proof.Machine.execRecv ep sq s
  | .coll ep sq => Sys2Proof.Machine.execColl ep sq s
  | .lock ep sq => Sys2Proof.Machine.execLock ep sq s
  | .unlock ep sq => Sys2Proof.Machine.execUnlock ep sq s
  | .cmd ep sq => Sys2Proof.Machine.execCmd ep sq s
  | .walkReadComplete ep walk res => Sys2Proof.Machine.execWalkReadComplete ep walk res s
  | .invalRange ep op => Sys2Proof.Machine.execInvalRange ep op s
  | .invalPasid ep op => Sys2Proof.Machine.execInvalPasid ep op s
  | .invalKey ep op => Sys2Proof.Machine.execInvalKey ep op s
  | .invalAll ep op => Sys2Proof.Machine.execInvalAll ep op s
  | .invalidationComplete ep => Sys2Proof.Machine.execInvalidationComplete ep s
  | .keySet ep => Sys2Proof.Machine.execKeySet ep s
  | .keyRevoke ep => Sys2Proof.Machine.execKeyRevoke ep s
  | .keyRevokeComplete ep slot => Sys2Proof.Machine.execKeyRevokeComplete ep slot s
  | .hbmApertureAccess ep off acc => Sys2Proof.Machine.execHbmApertureAccess ep off acc s
  | .putDataReceived r pkt => Sys2Proof.Machine.execPutDataReceived r pkt s
  | .getReqReceived r pkt => Sys2Proof.Machine.execGetReqReceived r pkt s
  | .atomicReceived r pkt => Sys2Proof.Machine.execAtomicReceived r pkt s
  | .signalReceived r pkt => Sys2Proof.Machine.execSignalReceived r pkt s
  | .targetReadComplete r work res => Sys2Proof.Machine.execTargetReadComplete r work res s
  | .atomicHostComplete r work res => Sys2Proof.Machine.execAtomicHostComplete r work res s
  | .placementDone r work => Sys2Proof.Machine.execPlacementDone r work s
  | .ackDelayExpiry r tracker => Sys2Proof.Machine.execAckDelayExpiry r tracker s
  | .ackMapExpiry r conn => Sys2Proof.Machine.execAckMapExpiry r conn s
  | .ackReceived r pkt => Sys2Proof.Machine.execAckReceived r pkt s
  | .ackMapReceived r pkt => Sys2Proof.Machine.execAckMapReceived r pkt s
  | .getDataReceived r pkt => Sys2Proof.Machine.execGetDataReceived r pkt s
  | .atomicRespReceived r pkt => Sys2Proof.Machine.execAtomicRespReceived r pkt s
  | .refuseReceived r pkt => Sys2Proof.Machine.execRefuseReceived r pkt s
  | .packetInject g => Sys2Proof.Machine.execPacketInject g s
  | .retryLaterResend r op off => Sys2Proof.Machine.execRetryLaterResend r op off s
  | .msgTimeout r op => Sys2Proof.Machine.execMsgTimeout r op s
  | .atomicTimeout r op => Sys2Proof.Machine.execAtomicTimeout r op s
  | .trackerExpiry r tracker => Sys2Proof.Machine.execTrackerExpiry r tracker s
  | .sendDataReceived r pkt => Sys2Proof.Machine.execSendDataReceived r pkt s
  | .rtsReceived r pkt => Sys2Proof.Machine.execRtsReceived r pkt s
  | .rtsAckReceived r pkt => Sys2Proof.Machine.execRtsAckReceived r pkt s
  | .rndvGetReceived r pkt => Sys2Proof.Machine.execRndvGetReceived r pkt s
  | .rndvDataReceived r pkt => Sys2Proof.Machine.execRndvDataReceived r pkt s
  | .rndvFinReceived r pkt => Sys2Proof.Machine.execRndvFinReceived r pkt s
  | .rndvPullStart r => Sys2Proof.Machine.execRndvPullStart r s
  | .uxCopy r entry => Sys2Proof.Machine.execUxCopy r entry s
  | .gapTimerExpiry r conn => Sys2Proof.Machine.execGapTimerExpiry r conn s
  | .matchEntryExpiry r entry => Sys2Proof.Machine.execMatchEntryExpiry r entry s
  | .lentIdleExpiry r op => Sys2Proof.Machine.execLentIdleExpiry r op s
  | .lendTimeout r op => Sys2Proof.Machine.execLendTimeout r op s
  | .ageSweep r => Sys2Proof.Machine.execAgeSweep r s
  | .collUpReceived r pkt => Sys2Proof.Machine.execCollUpReceived r pkt s
  | .collDownReceived r pkt => Sys2Proof.Machine.execCollDownReceived r pkt s
  | .collCreditReceived r pkt => Sys2Proof.Machine.execCollCreditReceived r pkt s
  | .contribReadComplete r tree child seg res => Sys2Proof.Machine.execContribReadComplete r tree child seg res s
  | .upWindowExpiry r tree => Sys2Proof.Machine.execUpWindowExpiry r tree s
  | .downWindowExpiry r tree => Sys2Proof.Machine.execDownWindowExpiry r tree s
  | .treeSet path tag => Sys2Proof.Machine.execTreeSet path tag s
  | .treeClear path tag => Sys2Proof.Machine.execTreeClear path tag s
  | .treeAbort path tag => Sys2Proof.Machine.execTreeAbort path tag s
  | .treeAbortDone r tree => Sys2Proof.Machine.execTreeAbortDone r tree s
  | .treeRead path tag => Sys2Proof.Machine.execTreeRead path tag s
  | .lockAtCell r pkt => Sys2Proof.Machine.execLockAtCell r pkt s
  | .unlockAtCell r pkt => Sys2Proof.Machine.execUnlockAtCell r pkt s
  | .cancel r pkt => Sys2Proof.Machine.execCancel r pkt s
  | .grantReceived r pkt => Sys2Proof.Machine.execGrantReceived r pkt s
  | .queuedReceived r pkt => Sys2Proof.Machine.execQueuedReceived r pkt s
  | .busyReceived r pkt => Sys2Proof.Machine.execBusyReceived r pkt s
  | .unlockDoneReceived r pkt => Sys2Proof.Machine.execUnlockDoneReceived r pkt s
  | .inheritReceived r pkt => Sys2Proof.Machine.execInheritReceived r pkt s
  | .disinheritReceived r pkt => Sys2Proof.Machine.execDisinheritReceived r pkt s
  | .lockRepeatTimeout r pend => Sys2Proof.Machine.execLockRepeatTimeout r pend s
  | .lockProbe r pend => Sys2Proof.Machine.execLockProbe r pend s
  | .lockForceRelease path tag => Sys2Proof.Machine.execLockForceRelease path tag s
  | .lockAbandon path tag => Sys2Proof.Machine.execLockAbandon path tag s
  | .lockRead path tag => Sys2Proof.Machine.execLockRead path tag s
  | .commandIntake r pkt => Sys2Proof.Machine.execCommandIntake r pkt s
  | .commandReplyReceived r pkt => Sys2Proof.Machine.execCommandReplyReceived r pkt s
  | .interimSend path tag => Sys2Proof.Machine.execInterimSend path tag s
  | .cmdTimeout call => Sys2Proof.Machine.execCmdTimeout call s
  | .nopCommand path tag => Sys2Proof.Machine.execNopCommand path tag s
  | .regRead path tag => Sys2Proof.Machine.execRegRead path tag s
  | .regWrite path tag => Sys2Proof.Machine.execRegWrite path tag s
  | .regModify path tag => Sys2Proof.Machine.execRegModify path tag s
  | .authNonce path tag => Sys2Proof.Machine.execAuthNonce path tag s
  | .mgmtForward path tag => Sys2Proof.Machine.execMgmtForward path tag s
  | .cmdAbort path tag => Sys2Proof.Machine.execCmdAbort path tag s
  | .counterRead path tag => Sys2Proof.Machine.execCounterRead path tag s
  | .counterClear path tag => Sys2Proof.Machine.execCounterClear path tag s
  | .cageSet path tag => Sys2Proof.Machine.execCageSet path tag s
  | .cageStatus path tag => Sys2Proof.Machine.execCageStatus path tag s
  | .cagePgTimeout cage => Sys2Proof.Machine.execCagePgTimeout cage s
  | .clockSwitch path tag run => Sys2Proof.Machine.execClockSwitch path tag run s
  | .bellropeAddressMatch addr wake => Sys2Proof.Machine.execBellropeAddressMatch addr wake s
  | .bellropeRequest symbols => Sys2Proof.Machine.execBellropeRequest symbols s
  | .bellropeAnswer => Sys2Proof.Machine.execBellropeAnswer s
  | .twinSet path tag => Sys2Proof.Machine.execTwinSet path tag s
  | .twinStatus path tag => Sys2Proof.Machine.execTwinStatus path tag s
  | .twinTakeoverTake path tag => Sys2Proof.Machine.execTwinTakeoverTake path tag s
  | .twinTakeoverRelease path tag => Sys2Proof.Machine.execTwinTakeoverRelease path tag s
  | .twinHeartbeat path tag => Sys2Proof.Machine.execTwinHeartbeat path tag s
  | .heartbeatIssue => Sys2Proof.Machine.execHeartbeatIssue s
  | .twinDeath => Sys2Proof.Machine.execTwinDeath s
  | .heartbeatSilenceFence => Sys2Proof.Machine.execHeartbeatSilenceFence s
  | .engineDispatch b => Sys2Proof.Machine.execEngineDispatch b s
  | .blockReset path tag => Sys2Proof.Machine.execBlockReset path tag s
  | .blockLoad path tag => Sys2Proof.Machine.execBlockLoad path tag s
  | .blockMigrationEnd b => Sys2Proof.Machine.execBlockMigrationEnd b s
  | .blockCodeLoaded b good => Sys2Proof.Machine.execBlockCodeLoaded b good s
  | .regionDrain path tag => Sys2Proof.Machine.execRegionDrain path tag s
  | .regionDrained r => Sys2Proof.Machine.execRegionDrained r s
  | .regionReset path tag => Sys2Proof.Machine.execRegionReset path tag s
  | .regionReady r stillBad => Sys2Proof.Machine.execRegionReady r stillBad s
  | .regionResume path tag => Sys2Proof.Machine.execRegionResume path tag s
  | .powerSet path tag => Sys2Proof.Machine.execPowerSet path tag s
  | .powerEntryWindowOpen => Sys2Proof.Machine.execPowerEntryWindowOpen s
  | .powerEntryWindowEnd => Sys2Proof.Machine.execPowerEntryWindowEnd s
  | .wakeRegistered src => Sys2Proof.Machine.execWakeRegistered src s
  | .linkPatternDetected p bursts gaps => Sys2Proof.Machine.execLinkPatternDetected p bursts gaps s
  | .powerExitDone => Sys2Proof.Machine.execPowerExitDone s
  | .wakeConfig path tag => Sys2Proof.Machine.execWakeConfig path tag s
  | .linkPatternSend path tag => Sys2Proof.Machine.execLinkPatternSend path tag s
  | .powerStatus path tag => Sys2Proof.Machine.execPowerStatus path tag s
  | .bootStart readFails => Sys2Proof.Machine.execBootStart readFails s
  | .engineCodeLoad readFail => Sys2Proof.Machine.execEngineCodeLoad readFail s
  | .flashRead path tag => Sys2Proof.Machine.execFlashRead path tag s
  | .flashErase path tag flashError => Sys2Proof.Machine.execFlashErase path tag flashError s
  | .flashWrite path tag flashError => Sys2Proof.Machine.execFlashWrite path tag flashError s
  | .imageActivate path tag readFail => Sys2Proof.Machine.execImageActivate path tag readFail s
  | .attest path tag => Sys2Proof.Machine.execAttest path tag s
  | .identityCert path tag => Sys2Proof.Machine.execIdentityCert path tag s
  | .chipReset path tag => Sys2Proof.Machine.execChipReset path tag s
  | .chipResetDelayEnd => Sys2Proof.Machine.execChipResetDelayEnd s
  | .secdedCorrection scope hbm => Sys2Proof.Machine.execSecdedCorrection scope hbm s
  | .uncorrectableError scope what => Sys2Proof.Machine.execUncorrectableError scope what s
  | .spareCopy r array bank dropped => Sys2Proof.Machine.execSpareCopy r array bank dropped s
  | .errorWindowEnd => Sys2Proof.Machine.execErrorWindowEnd s
  | .eventRaise => Sys2Proof.Machine.execEventRaise s
  | .holdoffEnd src => Sys2Proof.Machine.execHoldoffEnd src s
  | .evtPendClear ep word value => Sys2Proof.Machine.execEvtPendClear ep word value s
  | .counterWriteClear ep off size => Sys2Proof.Machine.execCounterWriteClear ep off size s
  | .eventMapSet path tag => Sys2Proof.Machine.execEventMapSet path tag s
  | .eventMapRead path tag => Sys2Proof.Machine.execEventMapRead path tag s
  | .quarantineRead path tag => Sys2Proof.Machine.execQuarantineRead path tag s
  | .eventInject path tag => Sys2Proof.Machine.execEventInject path tag s
  | .registerWrite ep acc => Sys2Proof.Machine.execRegisterWrite ep acc s
  | .vlanternApplied => Sys2Proof.Machine.execVlanternApplied s
  | .vlanternRemoved => Sys2Proof.Machine.execVlanternRemoved s
  | .ckBeaconEnd p => Sys2Proof.Machine.execCkBeaconEnd p s
  | .interruptConfigWrite ep acc => Sys2Proof.Machine.execInterruptConfigWrite ep acc s
  | .msixVectorUnmask ep vector => Sys2Proof.Machine.execMsixVectorUnmask ep vector s
  | .d3coldEntry ep => Sys2Proof.Machine.execD3coldEntry ep s
  | .connIdleExpiry r conn => Sys2Proof.Machine.execConnIdleExpiry r conn s
  | .bellropeLongNull ns => Sys2Proof.Machine.execBellropeLongNull ns s

end Sys2Proof.Machine
end

