-- ==== Sys2Proof/Machine/Tick.lean ====
section
/-! DEFINITION. What passes when no command waits: one nanosecond of the time base (00 R13; log entry 9). -/

namespace Sys2Proof.Machine

/-- The nanosecond of the Belfry island of a region: the pool allocator serves the internal flits that wait (06 R177), swaps of
the route tables come due (05 R163), its ports' transmitters send what they send by themselves (03 R80), its two Belfry ticks step
the LFSR twice (05 R153), and each VC that an enabled network input stops counts one more nanosecond of STOP_NS (06 R195). -/
def Dev.tickRegion (d : Dev) (r : Nat) : Dev :=
  if !d.belfryRuns r then d else
  let d := d.poolServe r (d.region r).poolWaits.length
  let d := d.dueSwaps r
  let d := forEach (portsOf r) (fun p d => d.tickPort p) d
  let d := d.modRegion r (fun x => { x with lfsr := lfsrStep (lfsrStep x.lfsr) })
  forEach (portsOf r) (fun p d =>
    forEach (setBits (d.port p).stopSent 20) (fun v d => d.count (Ctr.stopNs p v)) d) d

/-- One nanosecond passes; the time base has 64 bits (00 R13). -/
def Dev.tick (d : Dev) : Dev :=
  let d := { d with now := (d.now + 1) % 2 ^ 64 }
  forEach allRegions (fun r d => d.tickRegion r) d

/-- What an empty queue does: time passes while the Lantern domain is powered (00 R13). -/
def tick (s : State) : Host.Outcome State Fault Refusal :=
  actIf (fun d => d.lantern.powered) Dev.tick s

end Sys2Proof.Machine
end

