-- ==== Sys2Proof/Safety.lean ====
section
/-! DEFINITION. What counts as a safe state and a safe step, in the terms that claims use. -/

namespace Sys2Proof.Machine

/-- The flash is in its canonical form: addresses rise and no cell lists 0xFF. -/
def State.flashWf (s : State) : Bool := Memory.wf 0xFF s.flash

/-- The fuses that only grow (17 R517, R524): the floor has not fallen, and a blown owner digest stands. -/
def Fuses.grown (a b : Fuses) : Prop :=
  a.floor ≤ b.floor ∧ (a.ownerFused = true → b.ownerFused = true ∧ b.ownerDigest = a.ownerDigest)

/-- The rails once their removal has begun and no restart is due (02 R55 to R58): a removal that runs goes on; else the highest asserted
enable is deasserted, and with none asserted the rails are off. -/
def Lantern.railsGoing (l : Lantern) (now : Nat) : Lantern :=
  match l.phase with
  | .removing _ _ => l
  | _ =>
    match topRail l.enables with
    | none => { l with phase := .off }
    | some g => { l with enables := putBit l.enables (railBit g) false, phase := .removing g now }

/-- A step that stopped nowhere: it answered a next state. -/
def Completes (o : Host.Outcome State Fault Refusal) : Prop := ∃ t, o = .next t

/-- A command answers a next state in which the flash, the fuses and the queue are as before, and the device has a property. -/
def Answers (c : Instr) (s : State) (P : Dev → Prop) : Prop := ∃ d, exec c s = .next { s with dev := d } ∧ P d

/-- The Warden starts next the request `q` of a path and tag, it has the form's opcode, and it passes checks 1 to 8 of 14 R427
up to those of its own chapter. -/
abbrev Starts (s : State) (f : Form) (path : Path) (tag : Nat) (q : Request) (ptr : Nat) : Prop :=
  s.dev.startable f path tag = some (q, ptr) ∧ s.dev.judge f q = none

/-- The device in which a command's own effect takes place: its request has left the intake, it holds a place of the execution
list, and the nonce that its signature names is used up (14 R441, R443). -/
def Dev.started (d : Dev) (q : Request) (ptr : Nat) : Dev := (d.begin q ptr).consumeNonce q.bytes

/-- An accumulator state that holds a special value holds no finite part (12 R382). -/
def Acc.plain (a : Acc) : Prop := a.kind ≠ .finite → a.v = 0 ∧ a.negZero = false

/-- An accumulator state of 12 R382: a special value has no finite part, NEGZERO marks a sum of zeros, and V has 2,176 bits. -/
def Acc.wf (a : Acc) : Prop := a.plain ∧ (a.negZero = true → a.v = 0) ∧ -(2 ^ 2175 : Int) ≤ a.v ∧ a.v < (2 ^ 2175 : Int)

end Sys2Proof.Machine
end

