-- ==== Sys2Proof/Certificates/Slice0/Obligations.lean ====
section
/-! DEFINITION. The statements about the model. First those of whole-machine rules, invariants, frames and registers, then for
each family of commands the next state that each of its commands answers under conditions on the state and the operands. -/

open Sys2Proof Sys2Proof.Machine

/-! ## Steps, invariants, frames and registers -/

/-- The command at the front of the queue runs on the state with the queue's rest, and its outcome is the step's. -/
def Obligations.StepRunsTheFrontCommand : Prop :=
  ∀ (s : State) (c : Instr) (cs : List Instr), step { s with pending := c :: cs } = exec c { s with pending := cs }

/-- Every command answers a next state from every state: none faults and none is refused. -/
def Obligations.EveryCommandAnswersANextState : Prop :=
  ∀ (c : Instr) (s : State), Completes (exec c s)

/-- Only FLASH_ERASE, FLASH_WRITE and IMAGE_ACTIVATE change the flash, only IMAGE_ACTIVATE the fuses, and no command the
queue of waiting commands. -/
def Obligations.OnlyFlashCommandsChangeFlashAndFuses : Prop :=
  ∀ (c : Instr) (s t : State), exec c s = .next t →
    t.pending = s.pending ∧
    ((∀ path tag readFail, c ≠ .imageActivate path tag readFail) → t.fuses = s.fuses ∧
      ((∀ path tag e, c ≠ .flashErase path tag e) → (∀ path tag e, c ≠ .flashWrite path tag e) → t.flash = s.flash))

/-- From every state whose flash is in its canonical form, a step leaves it so, lets the rollback floor only rise and a blown
owner digest stand (17 R524, R527), and takes exactly the front command from the queue. -/
def Obligations.EveryStepKeepsTheFlashFormAndTheFuses : Prop :=
  ∀ s t : State, s.flashWf = true → step s = .next t →
    t.flashWf = true ∧ Fuses.grown s.fuses t.fuses ∧ t.pending = s.pending.tail

/-- The state after reset has the flash in its canonical form and no command waiting. -/
def Obligations.ResetMeetsTheStepInvariant : Prop := State.reset.flashWf = true ∧ State.reset.pending = []

/-- What the flash commands leave of the flash (17 R526, R527): FLASH_ERASE changes no byte outside its sectors, FLASH_WRITE none
outside its data, and IMAGE_ACTIVATE none outside the directory's sector. The row that starts an erase or a write does its first
sector or page and each further row the next (the model's reading, log entry 48): such a row changes no byte outside that sector, or
outside the data that is left. -/
def Obligations.FlashCommandsKeepOtherBytes : Prop :=
  (∀ (s t : State) (path : Path) (tag : Nat) (e : Bool) (q : Request) (ptr a : Nat),
    s.dev.warden.exec path tag = none → s.dev.startable (Form.fixed 0x1102 8 [] 0) path tag = some (q, ptr) →
    exec (.flashErase path tag e) s = .next t → (a < flashAddr q.params ∨ flashAddr q.params + 4096 * flashLen q.params ≤ a) →
    Memory.read flashDefault t.flash a = Memory.read flashDefault s.flash a) ∧
  (∀ (s t : State) (path : Path) (tag : Nat) (e : Bool) (x : Exec) (a : Nat),
    s.dev.warden.exec path tag = some x → exec (.flashErase path tag e) s = .next t →
    (a < flashAddr x.req.params + 4096 * x.a ∨ flashAddr x.req.params + 4096 * x.a + 4096 ≤ a) →
    Memory.read flashDefault t.flash a = Memory.read flashDefault s.flash a) ∧
  (∀ (s t : State) (path : Path) (tag : Nat) (e : Bool) (q : Request) (ptr a : Nat),
    s.dev.warden.exec path tag = none → s.dev.startable writeForm path tag = some (q, ptr) →
    exec (.flashWrite path tag e) s = .next t → (a < flashAddr q.params ∨ flashAddr q.params + flashLen q.params ≤ a) →
    Memory.read flashDefault t.flash a = Memory.read flashDefault s.flash a) ∧
  (∀ (s t : State) (path : Path) (tag : Nat) (e : Bool) (x : Exec) (a : Nat),
    s.dev.warden.exec path tag = some x → exec (.flashWrite path tag e) s = .next t → (a < x.a ∨ x.a + x.data.length ≤ a) →
    Memory.read flashDefault t.flash a = Memory.read flashDefault s.flash a) ∧
  (∀ (s t : State) (path : Path) (tag : Nat) (f : Bool) (a : Nat),
    exec (.imageActivate path tag f) s = .next t →
    4096 ≤ a → Memory.read flashDefault t.flash a = Memory.read flashDefault s.flash a)

/-- A partial sum travels without loss (12 R383 to R385): the compact form, of 24 bytes, of a sum that travels in it and the
full form, of 272 bytes, of every other are read back as the sum, for every accumulator state. Which sums travel in the compact form
rests on log entry 35 (the model's reading: POS is at most 2,048 where the lowest set bit of V lies higher). -/
def Obligations.ExactSumsTravelWithoutLoss : Prop :=
  ∀ a : Acc, a.wf →
    (a.compact = true → a.toCompact.length = 24 ∧ accOfCompact a.toCompact = a) ∧
    (a.compact = false → a.toFull.length = 272 ∧ accOfFull a.toFull = a)

/-- Exact mode does not depend on the order of its contributions (12 R382, R388): from every starting state, contributions in any
two orders that hold the same ones combine to the same state, and their one rounding is the same. -/
def Obligations.ExactReductionIsOrderFree : Prop :=
  ∀ (dtype : Nat) (z : Acc) (xs ys : List Nat), z.plain → xs.Perm ys →
    (xs.map (fun x => toAcc x dtype)).foldl Acc.combine z = (ys.map (fun y => toAcc y dtype)).foldl Acc.combine z ∧
    roundAcc ((xs.map (fun x => toAcc x dtype)).foldl Acc.combine z) dtype =
      roundAcc ((ys.map (fun y => toAcc y dtype)).foldl Acc.combine z) dtype

/-- With no command waiting, one nanosecond passes while the Lantern domain is powered (00 R13; the model's choice, log entry 9).
Where in the regions whose Belfry island runs no port trains or is in LIMP, no internal flit waits for the pool and no bank swap is
planned, the 64-bit time base advances by one, the LFSR of each of these regions steps twice (05 R153), each VC that an enabled
input of theirs stops counts one nanosecond more (06 R195), and nothing else changes. -/
def Obligations.EmptyQueueLetsOneNanosecondPass : Prop :=
  ∀ s : State, s.pending = [] →
    (s.dev.lantern.powered = false → step s = .next s) ∧
    (s.dev.lantern.powered = true → ∃ d, step s = .next { s with dev := d } ∧
      ((∀ r : Nat, s.dev.belfryRuns r = true → (s.dev.region r).poolWaits = [] ∧ (s.dev.region r).swaps = [] ∧
          ∀ p ∈ portsOf r, (s.dev.port p).train.state.training = false ∧ (s.dev.port p).train.state ≠ .limp) →
        d = { s.dev with now := (s.dev.now + 1) % 2 ^ 64, regions := d.regions, counters := d.counters } ∧
        (∀ r, d.region r = if decide (r < 4) && s.dev.belfryRuns r then
          { s.dev.region r with lfsr := lfsrStep (lfsrStep (s.dev.region r).lfsr) } else s.dev.region r) ∧
        (∀ (p : Fin 128) (v : Fin 20), d.counter (Ctr.stopNs p v) =
          if s.dev.belfryRuns (p / 32) && bit (s.dev.port p).stopSent v then (s.dev.counter (Ctr.stopNs p v) + 1) % 2 ^ 64
          else s.dev.counter (Ctr.stopNs p v)) ∧
        (∀ n, (∀ (p : Fin 128) (v : Fin 20), n ≠ Ctr.stopNs p v) → d.counter n = s.dev.counter n)))

/-- A command that fails one of the checks 4 to 8 of 14 R427, of those before its chapter's own, gets the status of that check as
its final reply and has no effect of its own; and a row whose command is not the one that the Warden starts next leaves the
state as it is. The five commands that run in several steps are stated for the row that starts them (log entry 48). -/
def Obligations.RefusedCommandsHaveNoEffect : Prop :=
  ∀ (s : State) (path : Path) (tag : Nat) (run : ClockRun) (f : Form) (c : Instr),
    (f, c) ∈
      [(routeWriteForm, .routeWrite path tag), (Form.fixed 0x0502 8 [(4, 63)] 0, .routeCopy path tag),
        (Form.fixed 0x0503 8 [(4, 63)] 40, .routeCommit path tag), (routeReadForm, .routeRead path tag),
        (treeSetForm, .treeSet path tag), (Form.fixed 0x0C02 8 [(16, 63)] 0, .treeClear path tag),
        (Form.fixed 0x0C03 8 [(32, 63)] 0, .treeAbort path tag), (Form.fixed 0x0C04 8 [(16, 63)] 512, .treeRead path tag),
        (forceForm, .lockForceRelease path tag), (Form.fixed 0x0D02 8 [(32, 63)] 8, .lockAbandon path tag),
        (lockReadForm, .lockRead path tag), ({ Form.fixed 0x0E00 0 [] 0 with down := Dev.placeDown }, .nopCommand path tag),
        (Form.fixed 0x0E04 0 [] 16, .authNonce path tag), (fwdForm, .mgmtForward path tag),
        (Form.fixed 0x0E06 8 [(16, 63)] 0, .cmdAbort path tag), (regReadForm, .regRead path tag),
        (regWriteForm, .regWrite path tag), (regModifyForm, .regModify path tag), (counterReadForm, .counterRead path tag),
        (counterClearForm, .counterClear path tag), (Form.fixed 0x0E10 24 [(133, 191)] 16, .cageSet path tag),
        (Form.fixed 0x0E11 0 [] 128, .cageStatus path tag), (Form.fixed 0x0E20 0 [] 16, .clockSwitch path tag run),
        (Form.fixed 0x0F01 40 twinSetZero 0, .twinSet path tag), (Form.fixed 0x0F02 0 [] 40, .twinStatus path tag),
        (Form.fixed 0x0F04 16 [(62, 63), (68, 71), (88, 95), (110, 111)] 0, .twinHeartbeat path tag),
        (blockForm 0x0F10 [(40, 63), (96, 127)], .blockReset path tag),
        (blockForm 0x0F11 [(33, 39), (40, 63), (96, 127)], .blockLoad path tag),
        (regionForm 0x0F20 8 [(32, 63)] 8, .regionDrain path tag), (regionForm 0x0F21 8 [(1, 63)] 8, .regionReset path tag),
        (regionForm 0x0F22 0 [] 0, .regionResume path tag), (Form.fixed 0x1001 8 [(3, 63)] 0, .powerSet path tag),
        (Form.fixed 0x1002 0 [] 40, .powerStatus path tag), (readForm, .flashRead path tag),
        (Form.fixed 0x1102 8 [] 0, .flashErase path tag false), (writeForm, .flashWrite path tag false),
        (Form.fixed 0x1104 8 [(3, 63)] 8, .imageActivate path tag false), (Form.fixed 0x1110 32 [] 644, .attest path tag),
        (Form.fixed 0x1111 0 [] 196, .identityCert path tag), (Form.fixed 0x1120 8 [(32, 63)] 0, .chipReset path tag),
        (mapSetForm, .eventMapSet path tag), (mapReadForm, .eventMapRead path tag),
        ({ Form.fixed 0x1203 0 [] 16 with down := Dev.placeDown }, .quarantineRead path tag), (Form.fixed 0x1204 16 [(32, 63)] 0, .eventInject path tag)] →
    (f.opcode ∈ [0x0E20, 0x1102, 0x1103, 0x1104, 0x1110] → s.dev.warden.exec path tag = none) →
    (∀ (q : Request) (ptr st : Nat), s.dev.startable f path tag = some (q, ptr) → s.dev.judge f q = some st →
      Answers c s (fun d => d = (s.dev.started q ptr).finish path tag st [])) ∧
    (s.dev.startable f path tag = none → exec c s = .next s)

/-- Registers follow their access codes (00 R7): a write of a read-only or unassigned register is ignored; a chip-level register,
WARDEN_CTRL, ERR_CTRL, GATE_CTRL without its stop, TK_CTRL and PORT_CTRL with ENABLE as it was and without RETRAIN read as the last
value written in their RW fields and 0 in their WO and reserved ones, and a write of a chip-level register leaves the others as they
are; SQ_CMD, TR_OP and KEY_OP read 0; and a write of EVT_PEND clears exactly the PENDING bits that it writes 1 of sources whose EP
names the endpoint, but those set in that very tick (R9, 18 R548), and the summaries follow. -/
def Obligations.RegistersFollowTheirAccessCodes : Prop :=
  (∀ (d : Dev) (e w k : Nat) (v : Reg) (a : RegAt),
    a ∈ [.unassigned, .ident w, .gateStatus, .gatePriv, .fcStatus k, .live k w, .key k w, .evtMap k, .msixPending w, .wardenStatus,
      .clockStatus, .clockEngines, .cooper k, .lock k, .scrivStatus k, .scrivStore k, .twin w, .regionRepair k, .blockRepair k,
      .boot w, .carve k, .logHead, .logWord k w] → d.writeReg e a v = d) ∧
  (∀ (d : Dev) (f : Fuses) (e : Nat) (c : ChipReg) (v : Reg), (c = .pilotCtrl → d.twin.state = .off) →
    (d.writeReg e (.chip c) v).regValue f e (.chip c) = (v &&& chipMask c).toNat ∧
    ∀ c' : ChipReg, c' ≠ c → (d.writeReg e (.chip c) v).regValue f e (.chip c') = d.regValue f e (.chip c')) ∧
  (∀ (d : Dev) (f : Fuses) (e : Nat) (v : Reg),
    (d.writeReg e .wardenCtrl v).regValue f e .wardenCtrl = (v &&& 0x000007FFFFFFFFFF#64).toNat ∧
    (d.writeReg e .errCtrl v).regValue f e .errCtrl = (v &&& 0xFFFFFFFF#64).toNat ∧
    (rbit v 0 = false → (d.writeReg e .gateCtrl v).regValue f e .gateCtrl = (v &&& 0x0000FFFF07FF000E#64).toNat)) ∧
  (∀ (d : Dev) (f : Fuses) (e p : Nat) (v : Reg),
    (d.writeReg e (.port p 3) v).regValue f e (.port p 3) = (v &&& 0x0000FFFFFFFFFFFF#64).toNat ∧
    (rbit v 0 = (d.port p).enable → rbit v 8 = false →
      (d.writeReg e (.port p 0) v).regValue f e (.port p 0) = (v &&& 0x0000FFFFFFFF02FF#64).toNat)) ∧
  (∀ (d : Dev) (f : Fuses) (e q : Nat), d.regValue f e (.sq q 3) = 0 ∧ d.regValue f e (.translation 2) = 0 ∧
    d.regValue f e (.translation 8) = 0) ∧
  (∀ (d : Dev) (e w : Nat) (v : Reg), ∃ m : Nat,
    d.writeReg e (.evtPend w) v = (d.modEvents (fun x => { x with pending := m })).refreshSummaries ∧
    ∀ s : Nat, bit m s = (bit d.events.pending s &&
      !(decide (s / 64 = w) && rbit v (s % 64) && decide (s < 1408) && mapEp (d.evtMap s) == e && !d.justSet s)))

/-- A BAR0 write of a chip, region or port register, or of a counter, from an endpoint without PRIV is discarded and counted in
UNPRIV_WRITES; from one with PRIV an 8-byte write of a register whose island runs takes effect, and a read needs no PRIV
(07 R204, 18 R544). -/
def Obligations.UnprivilegedWritesAreDiscarded : Prop :=
  ∀ (s : State) (ep : Fin 16) (off : Nat) (v : Reg), s.dev.epUp ep = true → s.dev.barOpen ep = true → off % 8 = 0 →
    ((0x10000 ≤ off ∧ off < 0x108000) ∨ (0x400000 ≤ off ∧ off < 0x800000)) →
    (s.dev.priv ep = false →
      Answers (.registerWrite ep (.write off 8 v)) s (fun d => d = s.dev.count (Ctr.unprivWrites ep)) ∧
      Answers (.registerWrite ep (.write off 4 v)) s (fun d => d = s.dev.count (Ctr.unprivWrites ep))) ∧
    (s.dev.priv ep = true → s.dev.barReaches ep (barReg off) = true →
      Answers (.registerWrite ep (.write off 8 v)) s (fun d => d = s.dev.writeReg ep (barReg off) v)) ∧
    (s.dev.barReaches ep (barReg off) = true →
      Answers (.registerWrite ep (.read off 8)) s (fun d =>
        d = s.dev.sendData ep (some (leBytes 8 (s.dev.regValue s.fuses ep (barReg off))))))

/-- Every counter is an unsigned 64-bit value that wraps to 0 (18 R540): an increment adds to the counter named modulo 2^64 and to
no other, all increments of a counter add up, and a clear sets the counter named to 0 and no other. -/
def Obligations.CountersWrapAndStandAlone : Prop :=
  (∀ (d : Dev) (n k : Nat), (d.countBy n k).counter n = (d.counter n + k) % 2 ^ 64) ∧
  (∀ (d : Dev) (n k m : Nat), m ≠ n → (d.countBy n k).counter m = d.counter m) ∧
  (∀ (d : Dev) (n j k : Nat), ((d.countBy n j).countBy n k).counter n = (d.counter n + (j + k)) % 2 ^ 64) ∧
  (∀ (d : Dev) (n m : Nat), (d.clearCounter n).counter m = if m = n then 0 else d.counter m)

/-- The host windows into the HBM (07 R206, 09 R277): a BAR4 write changes no byte outside those it names in the endpoint's own
region and below the host-visible remainder, a read changes none; what a BAR4 write stored in whole is what a read of the
same bytes returns; and an aperture write changes only the 8 bytes at the place the aperture gives. -/
def Obligations.HostWritesTouchOnlyTheirHbmBytes : Prop :=
  (∀ (s t : State) (ep : Fin 16) (off : Nat) (data : List Byte) (r a : Nat), exec (.bar4Access ep off (.write data)) s = .next t →
    (r ≠ regionOf ep ∨ a < off ∨ off + data.length ≤ a ∨ (s.dev.region (regionOf ep)).carve.remainder ≤ a) →
    Memory.read hbmDefault (t.dev.region r).hbm a = Memory.read hbmDefault (s.dev.region r).hbm a) ∧
  (∀ (s t : State) (ep : Fin 16) (off n r a : Nat), exec (.bar4Access ep off (.read n)) s = .next t →
    Memory.read hbmDefault (t.dev.region r).hbm a = Memory.read hbmDefault (s.dev.region r).hbm a) ∧
  (∀ (s : State) (ep : Fin 16) (off : Nat) (data : List Byte), s.dev.gatesRun = true → s.dev.epExists ep = true →
    s.dev.barOpen ep = true → s.dev.hbmRuns (regionOf ep) = true →
    off + data.length ≤ (s.dev.region (regionOf ep)).carve.remainder → Memory.wf hbmDefault (s.dev.region (regionOf ep)).hbm = true →
    ∃ t u : State, exec (.bar4Access ep off (.write data)) s = .next t ∧ exec (.bar4Access ep off (.read data.length)) t = .next u ∧
      u.dev.out = s.dev.out ++ [.readData ep (some data)]) ∧
  (∀ (s t : State) (ep : Fin 16) (off : Nat) (data : List Byte) (r a : Nat), data.length = 8 →
    exec (.hbmApertureAccess ep off (.write data)) s = .next t →
    (r ≠ regionOf ep ∨ ∀ b, s.dev.apertureAt ep off 8 = some b → (a < b ∨ b + 8 ≤ a)) →
    Memory.read hbmDefault (t.dev.region r).hbm a = Memory.read hbmDefault (s.dev.region r).hbm a)

/-- Until a queue leaves RESETTING, doorbells to it are discarded, counted in BAD_DOORBELLS, and writes of ENABLE 1 are ignored and
counted in CTX_WRITE_REJECTS, once each (08 R230, R267, R269). -/
def Obligations.ResettingQueuesIgnoreSoftware : Prop :=
  ∀ (s : State) (ep : Fin 16) (sq : Fin 8192), s.dev.epUp ep = true → s.dev.barOpen ep = true →
    (s.dev.sq ep sq).state = .resetting →
    (∀ data : List Byte, data.length = 4 ∨ data.length = 8 →
      Answers (.sqDoorbell ep (4096 * (sq / 2) + 8 * (sq % 2)) data) s (fun d => d = s.dev.count (Ctr.badDoorbells ep))) ∧
    (∀ data : List Byte, data.length = 64 →
      Answers (.sqPush ep (4096 * (sq / 2) + 0x800 + 0x400 * (sq % 2)) data) s (fun d => d = s.dev.count (Ctr.badDoorbells ep))) ∧
    (∀ cfg : Reg, Answers (.sqEnable ep sq cfg) s (fun d => d = s.dev.count (Ctr.ctxWriteRejects ep)))

/-- CLOCK_STATUS and CLOCK_ENGINES (14 R457): their fields in the places of the rule's tables, read-only, and all 0 after a chip
reset. -/
def Obligations.ClockRegistersReadTheIslandsAndResetToZero : Prop :=
  ∀ (d : Dev) (f : Fuses) (e : Nat) (v : Reg),
    d.regValue f e .clockStatus = pack [(d.warden.belfry, 4), (d.warden.hbm, 4), (d.warden.buttress, 6), (b2n d.warden.pll, 1),
      (b2n d.warden.done, 1), (0, 16), (ofSigned 32 d.warden.nref, 32)] ∧
    d.regValue f e .clockEngines = d.warden.engines ∧
    d.writeReg e .clockStatus v = d ∧ d.writeReg e .clockEngines v = d ∧
    d.chipReset.regValue f e .clockStatus = 0 ∧ d.chipReset.regValue f e .clockEngines = 0

/-- After a chip reset and after a reset of the region, every cell is ABANDONED, with GRANT_SEQ 0 and no waiters; no request's
sender holds such a cell; and a LOCK that finds it is granted, with PREV_ABANDONED set in the grant (13 R406). -/
def Obligations.LockCellsAreAbandonedAfterAReset : Prop :=
  (∀ (d : Dev) (id : Nat), (d.chipReset.lockCell id).state = 2 ∧ (d.chipReset.lockCell id).grantSeq = 0 ∧
    (d.chipReset.lockCell id).waiters = []) ∧
  (∀ (d : Dev) (r id : Nat) (forced : Bool), id / 16384 = r → ((d.regionReset r forced).lockCell id).state = 2 ∧
    ((d.regionReset r forced).lockCell id).grantSeq = 0 ∧ ((d.regionReset r forced).lockCell id).waiters = []) ∧
  (∀ (c : LockCell) (h : Hdr), c.state = 2 → c.heldBy h = false) ∧
  (∀ (s : State) (r : Fin 4) (p : Packet), s.dev.regionRuns r = true → lockOk r p 0x01 = true →
    (s.dev.lockCell p.hdr.lockId).state = 2 →
    Answers (.lockAtCell r p) s (fun d => ∃ w : Waiter,
      (w.fen, w.epi, w.prio, w.pend, w.tag) = (p.hdr.srcFen, p.hdr.srcEpi, p.hdr.lockPrio, argPend p.hdr, p.hdr.grantAddr) ∧
      d = (s.dev.takeIntake r p).grantLock r p.hdr.lockId w true false)) ∧
  (∀ (d : Dev) (r id : Nat) (w : Waiter), (d.lockCell id).waiters = [] → ∃ e : Dev, d.grantLock r id w true false =
    (e.lockSend r 0x81 w.fen w.epi id w.prio w.tag (lockArgOf w.pend true false 0 0 (e.lockCell id).grantSeq)).count
      (Ctr.lockGrants r)) ∧
  (∀ pend seq : Nat, bit (lockArgOf pend true false 0 0 seq) 16 = true ∧ bit (lockArgOf pend true false 0 0 seq) 17 = false)

/-- What SQ_ENABLE, SQ_DISABLE and SQ_DRAIN_DONE leave as it is: all of the device but the endpoint and the counters of rejected
context writes, every other endpoint, every other send queue, and the rest of the endpoint; and CQ_ENABLE and CQ_DISABLE
likewise leave all but the completion and event queue contexts (08 R234, R236). -/
def Obligations.QueueContextWritesKeepTheRest : Prop :=
  ∀ (s t : State) (c : Instr) (ep : Fin 16) (sq : Fin 8192) (q : RecQ) (cfg : Reg), exec c s = .next t →
    c ∈ [.sqEnable ep sq cfg, .sqDisable ep sq cfg, .sqDrainDone ep sq, .cqEnable ep q cfg, .cqDisable ep q cfg] →
    t.dev = { s.dev with eps := t.dev.eps, counters := t.dev.counters } ∧
    (∀ e : Nat, e ≠ ep → t.dev.ep e = s.dev.ep e) ∧
    (∀ n : Nat, n ≠ Ctr.ctxWriteRejects ep → n ≠ Ctr.ctxErrors ep → t.dev.counter n = s.dev.counter n) ∧
    (c ∈ [.sqEnable ep sq cfg, .sqDisable ep sq cfg, .sqDrainDone ep sq] →
      (∀ k : Nat, k ≠ sq → t.dev.sq ep k = s.dev.sq ep k) ∧ { t.dev.ep ep with sqs := (s.dev.ep ep).sqs } = s.dev.ep ep) ∧
    (c ∈ [.cqEnable ep q cfg, .cqDisable ep q cfg] →
      { t.dev.ep ep with cqs := (s.dev.ep ep).cqs, eqs := (s.dev.ep ep).eqs } = s.dev.ep ep)

/-- What CK_DETECTED, TX_SLEEP_ENTRY, TX_WAKE, CK_BEACON_END and SLEEP_REFRESH leave as it is: all of the device but the port, what
it sends and its count of sleeps, every other port, and the port's own registers, link layer and egress (03 R80, R99 to
R102). -/
def Obligations.SleepCommandsKeepTheRest : Prop :=
  ∀ (s t : State) (c : Instr) (p : Fin 128), exec c s = .next t →
    c ∈ [.ckDetected p, .txSleepEntry p, .txWake p, .ckBeaconEnd p, .sleepRefresh p] →
    t.dev = { s.dev with ports := t.dev.ports, counters := t.dev.counters, out := t.dev.out } ∧
    (∀ q : Nat, q ≠ p → t.dev.port q = s.dev.port q) ∧
    { t.dev.port p with train := (s.dev.port p).train } = s.dev.port p ∧
    (∀ n : Nat, n ≠ Ctr.sleepEntries p → t.dev.counter n = s.dev.counter n)

/-- The fields of the chip-level registers, of WARDEN_CTRL and of ERR_CTRL after a chip reset are the reset values of their tables
(05 R168, 06 R193, 10 R328, 11 R361, 13 R423, 14 R458, 18 R537). -/
def Obligations.ChipResetGivesTheRegistersTheirResetValues : Prop :=
  ∀ d : Dev, let c := d.chipReset.chip
    -- PILOT_CTRL and PILOT_TUNE
    (rbits c.pilotCtrl 13 0 = 0 ∧ rbits c.pilotCtrl 27 14 = 0 ∧ rbit c.pilotCtrl 28 = false ∧ rbits c.pilotCtrl 32 29 = 14 ∧
      rbits c.pilotCtrl 43 33 = 1 ∧ rbit c.pilotCtrl 44 = false ∧ rbits c.pilotCtrl 50 45 = 16 ∧ rbits c.pilotCtrl 54 51 = 8 ∧
      rbits c.pilotCtrl 62 55 = 16 ∧ rbit c.pilotCtrl 63 = true ∧ rbits c.pilotTune 7 0 = 4 ∧ rbits c.pilotTune 63 8 = 0) ∧
    -- FC_CTRL and FC_MARK
    (rbits c.fcCtrl 17 0 = 16384 ∧ rbits c.fcCtrl 35 18 = 20480 ∧ rbits c.fcCtrl 53 36 = 8192 ∧ rbits c.fcCtrl 63 54 = 0 ∧
      rbits c.fcMark 15 0 = 32 ∧ rbit c.fcMark 16 = true ∧ rbits c.fcMark 31 17 = 0 ∧ rbits c.fcMark 47 32 = 100 ∧
      rbits c.fcMark 63 48 = 0) ∧
    -- CARTER_CTRL and CARTER_WIN
    (rbits c.carterCtrl 15 0 = 200 ∧ rbits c.carterCtrl 17 16 = 3 ∧ rbits c.carterCtrl 19 18 = 0 ∧ rbits c.carterCtrl 31 20 = 100 ∧
      rbits c.carterCtrl 39 32 = 16 ∧ rbits c.carterCtrl 47 40 = 5 ∧ rbits c.carterCtrl 63 48 = 1000 ∧ rbits c.carterWin 14 0 = 256 ∧
      rbits c.carterWin 29 15 = 8 ∧ rbits c.carterWin 44 30 = 16384 ∧ rbits c.carterWin 52 45 = 16 ∧ rbits c.carterWin 63 53 = 100) ∧
    -- SCRIV_CTRL and LOCK_CTRL
    (rbits c.scrivCtrl 16 0 = 16384 ∧ rbits c.scrivCtrl 20 17 = 8 ∧ rbits c.scrivCtrl 23 21 = 0 ∧ rbits c.scrivCtrl 35 24 = 2048 ∧
      rbits c.scrivCtrl 63 36 = 0 ∧ rbits c.lockCtrl 14 0 = 8192 ∧ rbit c.lockCtrl 15 = false ∧ rbits c.lockCtrl 31 16 = 1000 ∧
      rbits c.lockCtrl 63 32 = 0) ∧
    -- WARDEN_CTRL and ERR_CTRL
    (rbits d.chipReset.warden.ctrl 15 0 = 10 ∧ rbits d.chipReset.warden.ctrl 31 16 = 1000 ∧ rbit d.chipReset.warden.ctrl 32 = true ∧
      rbits d.chipReset.warden.ctrl 42 33 = 100 ∧ rbits d.chipReset.warden.ctrl 63 43 = 0 ∧ rbits d.chipReset.errCtrl 15 0 = 1000 ∧
      rbits d.chipReset.errCtrl 31 16 = 100 ∧ rbits d.chipReset.errCtrl 63 32 = 0)

/-! ## What each command answers -/

/-- The rail commands answer the state that the power sequence of chapter 02 gives (R54, R55, R56, R57, R66).
Each clause names the conditions on the state and the operands, and what the next state is.
The model's choice, not the rules': log entries 12 and 16 (a power-good that already stands high is registered at the window's start, a group has come up from its power-good, and when a removal ends; 12: Lantern ticks). -/
def Obligations.RailCommandsComplete : Prop :=
  -- POWER_GOOD_HIGH (R54)
  (∀ (s : State) (g : Rail) (since : Nat), s.dev.lantern.powered = true → s.dev.lantern.phase = .waiting g since →
     s.dev.lanternNow < since + 20000000 →
      Answers (.powerGoodHigh g) s (fun d =>
        d = { s.dev with lantern := { s.dev.lantern with
          pg := putBit s.dev.lantern.pg (railBit g) true, cameUp := putBit s.dev.lantern.cameUp (railBit g) true,
          phase := .settling g s.dev.lanternNow } })) ∧
  -- RAIL_SETTLE_END (R54)
  (∀ (s : State) (g : Rail) (since : Nat), s.dev.lanternRuns = true → s.dev.lantern.phase = .settling g since →
     since + 100000 ≤ s.dev.lanternNow →
      Answers .railSettleEnd s (fun d => match railNext g with
        | some h => d = { s.dev with lantern := { s.dev.lantern with
            enables := putBit s.dev.lantern.enables (railBit h) true
            cameUp := putBit s.dev.lantern.cameUp (railBit h) (bit s.dev.lantern.pg (railBit h))
            phase := if bit s.dev.lantern.pg (railBit h) = true then .settling h s.dev.lanternNow else .waiting h s.dev.lanternNow } }
        | none => d = { s.dev with lantern := { s.dev.lantern with phase := .up, clamped := false }
                                   boot := { s.dev.boot with stage := .released } })) ∧
  -- RAIL_START_FAULT (R55)
  (∀ (s : State) (g : Rail) (since : Nat), s.dev.lanternRuns = true → s.dev.lantern.phase = .waiting g since →
     since + 20000000 ≤ s.dev.lanternNow →
      Answers .railStartFault s (fun d => d = { s.dev.chipReset with
        counters := s.dev.counters,
        lantern := ({ s.dev.lantern with
          lastFault := 1, faultGroup := 2 ^ railBit g, retainValid := false, state := 3, exiting := none, clamped := true,
          entering := none } : Lantern).railsGoing s.dev.lanternNow })) ∧
  -- RAIL_REMOVE_NEXT (R56)
  (∀ (s : State) (g h : Rail) (since : Nat) (low : Bool), s.dev.lantern.powered = true → s.dev.lantern.phase = .removing g since →
     (low = true ∨ since + 10000000 ≤ s.dev.lanternNow) → topRail s.dev.lantern.enables = some h →
      Answers (.railRemoveNext low) s (fun d =>
        d = s.dev.modLantern (fun l => { l with
          pg := if low then putBit l.pg (railBit g) false else l.pg, enables := putBit l.enables (railBit h) false,
          phase := .removing h s.dev.lanternNow }))) ∧
  -- RAIL_REMOVE_NEXT (R56)
  (∀ (s : State) (g : Rail) (since : Nat) (low : Bool), s.dev.lantern.powered = true → s.dev.lantern.phase = .removing g since →
     (low = true ∨ since + 10000000 ≤ s.dev.lanternNow) → topRail s.dev.lantern.enables = none →
     (s.dev.lantern.resetN && (s.dev.lantern.state == 0 || s.dev.lantern.exiting.isSome)) = false →
      Answers (.railRemoveNext low) s (fun d =>
        d = s.dev.modLantern (fun l => { l with pg := if low then putBit l.pg (railBit g) false else l.pg, phase := .off }))) ∧
  -- BROWN_OUT (R57)
  (∀ (s : State) (g : Rail), s.dev.lanternRuns = true → bit s.dev.lantern.enables (railBit g) = true →
     bit s.dev.lantern.cameUp (railBit g) = true →
      Answers (.brownOut g) s (fun d => d = { s.dev.chipReset with
        counters := s.dev.counters,
        lantern := ({ s.dev.lantern with
          pg := putBit s.dev.lantern.pg (railBit g) false, lastFault := 2, faultGroup := 2 ^ railBit g, retainValid := false, state := 3, exiting := none, clamped := true,
          entering := none } : Lantern).railsGoing s.dev.lanternNow })) ∧
  -- LANTERN_CLOCK_FAULT (R66)
  (∀ (s : State) (ns : Nat), s.dev.lanternRuns = true → 2000 ≤ ns →
      Answers (.lanternClockFault ns) s (fun d => d = { s.dev.chipReset with
        counters := s.dev.counters,
        lantern := ({ s.dev.lantern with
          lastFault := 3, faultGroup := 0, retainValid := false, state := 3, exiting := none, clamped := true,
          entering := none } : Lantern).railsGoing s.dev.lanternNow }))

/-- RESET_N, VLANTERN, temperature and wake commands answer their states (R54, R58, R71, R497, R500, R532, R543).
Each clause names the conditions on the state and the operands, and what the next state is.
The model's choice, not the rules': log entries 2, 12, 16, 42 and 54 (2: values at reset that the spec does not give; 12: Lantern ticks; 16: how a removal ends and when clamps close; 42: the tick of a wake; 54: raises of the Lantern that a chip reset keeps). -/
def Obligations.ResetAndSensorCommandsComplete : Prop :=
  -- RESET_N_RELEASE (R54)
  (∀ (s : State) (straps : BitVec 7), s.dev.lantern.powered = true → s.dev.lantern.resetN = false → s.dev.lantern.phase = .off →
     s.dev.lantern.exiting = none →
      Answers (.resetNRelease straps) s (fun d =>
        d = s.dev.modLantern (fun l => { l with
          resetN := true, brAddr := straps.toNat, rope := .idle, brAck := none, enables := putBit l.enables 0 true,
          cameUp := putBit l.cameUp 0 (bit l.pg 0),
          phase := if bit l.pg 0 = true then .settling .sram s.dev.lanternNow else .waiting .sram s.dev.lanternNow }))) ∧
  -- RESET_N_ASSERTED (R58)
  (∀ (s : State), s.dev.lanternRuns = true →
      Answers .resetNAsserted s (fun d => d = { s.dev.chipReset with
        lantern := ({ s.dev.lantern with
          resetN := false, resetCause := 1, cellsHeld := 0, tripped := false, retainValid := false, state := 0, exiting := none,
          rope := .idle, brAck := none, wakeIn := false, wakeTicks := 0, clamped := true, entering := none, tjStart := s.dev.lanternNow,
          tjHigh := none } : Lantern).railsGoing s.dev.lanternNow })) ∧
  -- VLANTERN_APPLIED (R532)
  (∀ (s : State),
      Answers .vlanternApplied s (fun d =>
        d = { Dev.reset with skews := s.dev.skews, free := s.dev.free, nextId := s.dev.nextId, out := s.dev.out
                             gates := s.dev.gates.map (fun g => (g.1, { Gate.reset with perst := g.2.perst })) })) ∧
  -- VLANTERN_REMOVED (R500)
  (∀ (s : State),
      Answers .vlanternRemoved s (fun d => d.lantern = { Lantern.reset with powered := false } ∧ d.counters = [] ∧
        { d with lantern := s.dev.lantern, counters := s.dev.chipReset.counters } = s.dev.chipReset)) ∧
  -- THERMAL_SAMPLE (R71)
  (∀ (s : State) (ts : List Int) (a : Dev), s.dev.lanternRuns = true → ts.length = 16 → ts.any (fun t => decide (110 ≤ t)) = true →
     a = forEach ts.zipIdx (fun x d => d.sensor (x.2 / 4) x.1) s.dev →
      Answers (.thermalSample ts) s (fun d => d = { a.chipReset with
        counters := a.counters,
        lantern := ({ a.lantern with
          tjHigh := ts.foldl hotter a.lantern.tjHigh, tripped := true, lastFault := 4, faultGroup := 0, retainValid := false, state := 3,
          exiting := none, clamped := true, entering := none } : Lantern).railsGoing a.lanternNow })) ∧
  -- TJ_SECOND (R543)
  (∀ (s : State) (t : Int), s.dev.lanternRuns = true → s.dev.lantern.tjStart + 1000000000 ≤ s.dev.lanternNow →
     s.dev.lantern.tjHigh = some t → (85 ≤ t ∧ t < 95) →
      Answers .tjSecond s (fun d => d = ((s.dev.count Ctr.tj85S).count Ctr.powerOnS).modLantern
        (fun l => { l with tjStart := l.tjStart + 1000000000, tjHigh := none }))) ∧
  -- TJ_SECOND (R543)
  (∀ (s : State) (t : Int), s.dev.lanternRuns = true → s.dev.lantern.tjStart + 1000000000 ≤ s.dev.lanternNow →
     s.dev.lantern.tjHigh = some t → (95 ≤ t ∧ t ≤ 105) →
      Answers .tjSecond s (fun d => d = ((s.dev.count Ctr.tj95S).count Ctr.powerOnS).modLantern
        (fun l => { l with tjStart := l.tjStart + 1000000000, tjHigh := none }))) ∧
  -- TJ_SECOND (R543)
  (∀ (s : State) (t : Int), s.dev.lanternRuns = true → s.dev.lantern.tjStart + 1000000000 ≤ s.dev.lanternNow →
     s.dev.lantern.tjHigh = some t → 105 < t →
      Answers .tjSecond s (fun d => d = ((s.dev.count Ctr.tj105S).count Ctr.powerOnS).modLantern
        (fun l => { l with tjStart := l.tjStart + 1000000000, tjHigh := none }))) ∧
  -- TJ_SECOND (R543)
  (∀ (s : State) (t : Int), s.dev.lanternRuns = true → s.dev.lantern.tjStart + 1000000000 ≤ s.dev.lanternNow →
     s.dev.lantern.tjHigh = some t → t < 85 →
      Answers .tjSecond s (fun d => d = (s.dev.count Ctr.powerOnS).modLantern
        (fun l => { l with tjStart := l.tjStart + 1000000000, tjHigh := none }))) ∧
  -- TJ_SECOND (R543)
  (∀ (s : State), s.dev.lanternRuns = true → s.dev.lantern.tjStart + 1000000000 ≤ s.dev.lanternNow → s.dev.lantern.tjHigh = none →
      Answers .tjSecond s (fun d => d = (s.dev.count Ctr.powerOnS).modLantern
        (fun l => { l with tjStart := l.tjStart + 1000000000, tjHigh := none }))) ∧
  -- WAKE_REGISTERED (R497)
  (∀ (s : State), s.dev.lanternRuns = true → s.dev.lantern.entering = none → s.dev.lantern.exiting = none →
     s.dev.lantern.state = 2 → s.dev.lantern.tripped = false → s.dev.lantern.wakeCtrl.getLsbD 1 = true →
      Answers (.wakeRegistered .bellrope) s (fun d => d.counter (Ctr.wakes 2) = (s.dev.counter (Ctr.wakes 2) + 1) % 2 ^ 64 ∧
        d.lantern.exiting = some (2, s.dev.lanternNow) ∧
        d.lantern.wakeSrc = ⟨2, 2, 0, 2, false, s.dev.lanternNow / 1000 % 2 ^ 32⟩ ∧ d.eps = s.dev.eps ∧ d.ports = s.dev.ports))

/-- Port state commands answer the port state of chapter 03 (R80, R81, R82, R93, R94, R104).
Each clause names the conditions on the state and the operands, and what the next state is.
The model's choice, not the rules': log entry 17 (in what state a port keeps its requests and how it counts). -/
def Obligations.PortStateCommandsComplete : Prop :=
  -- PORT_ENABLE_CHANGE (R80)
  (∀ (s : State) (p : Fin 128), (s.dev.port p).enable = true →
      Answers (.portEnableChange p false) s (fun d => ∃ e : Dev,
        e = s.dev.modPort p (fun x => { x with ctrl := BitVec.ofNat 64 (putBit x.ctrl.toNat 0 false) }) ∧ d = e.toDisabled p true)) ∧
  -- PORT_ENABLE_CHANGE (R80)
  (∀ (s : State) (p : Fin 128), (s.dev.port p).enable = false →
      Answers (.portEnableChange p true) s (fun d => ∃ e : Dev,
        e = (s.dev.modPort p (fun x => { x with ctrl := BitVec.ofNat 64 (putBit x.ctrl.toNat 0 true) })).modTrain p (fun t =>
          { t with excluded := 0, fails := [], exclCleared := s.dev.belfryNow (p / 32) }) ∧
        d = if e.mayTrain p = true then e.toDetect p causeRequest else e)) ∧
  -- PORT_RETRAIN (R94)
  (∀ (s : State) (p : Fin 128), s.dev.portRuns p = true → (s.dev.port p).train.state = .up →
      Answers (.portRetrain p) s (fun d => d = (s.dev.modTrain p (fun t =>
        { t with excluded := 0, fails := [], exclCleared := s.dev.belfryNow (p / 32), req := true,
                 reqWidth := some (s.dev.port p).maxWidth })).toRetrain p causeRequest true)) ∧
  -- PORT_RETRAIN (R94)
  (∀ (s : State) (p : Fin 128), s.dev.portRuns p = true → (s.dev.port p).train.state.training = true →
      Answers (.portRetrain p) s (fun d => d = s.dev.modTrain p (fun t =>
        { t with excluded := 0, fails := [], exclCleared := s.dev.belfryNow (p / 32), reqLater := true,
                 reqWidth := some (s.dev.port p).maxWidth }))) ∧
  -- PORT_RETRAIN (R94)
  (∀ (s : State) (p : Fin 128), s.dev.portRuns p = true → (s.dev.port p).train.state ≠ .up →
     (s.dev.port p).train.state.training = false →
      Answers (.portRetrain p) s (fun d => d = s.dev.modTrain p (fun t =>
        { t with excluded := 0, fails := [], exclCleared := s.dev.belfryNow (p / 32) }))) ∧
  -- CK_DETECTED (R80)
  (∀ (s : State) (p : Fin 128), s.dev.portRuns p = true → (s.dev.port p).train.state = .detect →
     (s.dev.port p).train.since + 2000 ≤ s.dev.belfryNow (p / 32) →
      Answers (.ckDetected p) s (fun d => d = (s.dev.modTrain p (fun t => { t with ckAt := max t.ckAt (s.dev.belfryNow (p / 32)) })).modTrain p
          (fun t => t.fresh .t0Align (s.dev.belfryNow (p / 32))))) ∧
  -- TRAINING_TIMEOUT (R80)
  (∀ (s : State) (p : Fin 128) (n : Nat), s.dev.portRuns p = true → (s.dev.port p).train.state.timeout = some n →
     (s.dev.port p).train.since + n ≤ s.dev.belfryNow (p / 32) → (s.dev.port p).train.agreed = false →
      Answers (.trainingTimeout p) s (fun d => d = (s.dev.tierFail p (s.dev.port p).train.tier).toBackoff p false)) ∧
  -- BACKOFF_END (R80)
  (∀ (s : State) (p : Fin 128), s.dev.portRuns p = true → (s.dev.port p).train.state = .backoff →
     (s.dev.port p).train.since + 10000000 ≤ s.dev.belfryNow (p / 32) → (s.dev.port p).train.limpBackoff = false →
      Answers (.backoffEnd p) s (fun d => d = (s.dev.modTrain p (fun t => { t with limpBackoff := false })).toDetect p causeRequest)) ∧
  -- CK_LOSS (R82)
  (∀ (s : State) (p : Fin 128) (last : Nat), s.dev.portRuns p = true → (s.dev.port p).train.state ≠ .disabled →
     (s.dev.port p).train.state ≠ .backoff → max (s.dev.port p).train.ckAt last + 64 ≤ s.dev.belfryNow (p / 32) →
      Answers (.ckLoss p last) s (fun d => ∃ e : Dev, e = s.dev.count (Ctr.ckLosses p) ∧
        d = (if (e.port p).train.state = .up then e
             else (e.breakAgain p causeCk).raise (Isl.belfry (p / 32)) (Src.port p 0) 0x20 0).toDetect p causeCk)) ∧
  -- PHASE_ACQUIRED (R93)
  (∀ (s : State) (p : Fin 128), s.dev.portRuns p = true → (s.dev.port p).train.state = .step →
     (s.dev.port p).train.since + 40000 ≤ s.dev.belfryNow (p / 32) →
      Answers (.phaseAcquired p) s (fun d => d = s.dev.modTrain p (fun t => { t with phased := true }))) ∧
  -- LIMP_RETRY (R104)
  (∀ (s : State) (p : Fin 128), s.dev.portRuns p = true → (s.dev.port p).train.state = .limp →
     (s.dev.port p).train.since + 1000000000 ≤ s.dev.belfryNow (p / 32) →
      Answers (.limpRetry p) s (fun d =>
        d = ((s.dev.liftExclusions p).modTrain p (fun t => { t with finalTier := 1, limpTry := true })).toStep p 1
              (s.dev.port p).train.width))

/-- Ordered sets and training words answer what they tell the port (R87, R92, R93).
Each clause names the conditions on the state and the operands, and what the next state is.
The model's choice, not the rules': log entry 17 (bit order of the check bytes, and the lane on which sets and words are counted). -/
def Obligations.TrainingSetsComplete : Prop :=
  -- TS1_RECEIVED (R92)
  (∀ (s : State) (p : Fin 128) (lane : Fin 8) (groups : Groups) (e : Dev) (syms : List Sym) (b : List Byte),
     s.dev.portRuns p = true → s.dev.receiveSet p lane groups = (e, some syms) →
     ((e.port p).train.state = .t0Align ∨ (e.port p).train.state = .t0Config) → trainingBody symTs1 syms = some b →
      Answers (.ts1Received p lane groups) s (fun d =>
        d = ((e.learnPeer p (field b 2 6) (bits (byteAt b 1) 6 0)).modTrain p (fun t =>
          { t with peer := peerOfSet b }.countAligned lane (bit (byteAt b 10) 0))).agree p)) ∧
  -- TS2_RECEIVED (R92)
  (∀ (s : State) (p : Fin 128) (lane : Fin 8) (groups : Groups) (e : Dev) (syms : List Sym) (b : List Byte),
     s.dev.portRuns p = true → s.dev.receiveSet p lane groups = (e, some syms) →
     (e.port p).train.goodLanes.contains lane.val = true → (e.port p).train.state = .t0Config → (e.port p).train.leader = false →
     (e.port p).train.countdown = none → trainingBody symTs2 syms = some b →
      Answers (.ts2Received p lane groups) s (fun d => d = e.modTrain p (fun t =>
        { t with peer := peerOfSet b, finalTier := min (e.port p).tierMax (bits (byteAt b 0) 5 4), finalFar := bit (byteAt b 11) 2,
                 countdown := some ⟨bits (byteAt b 11) 1 0, false, bit (byteAt b 11) 2, byteAt b 8, 16, false⟩ }))) ∧
  -- TRAINING_WORD_RECEIVED (R87)
  (∀ (s : State) (p : Fin 128) (lane : Fin 8) (word : List Byte), s.dev.rxRuns p = true → s.dev.gated = false →
     (s.dev.port p).train.state = .step → goodWord word = true → (s.dev.port p).train.leader = false →
     (s.dev.port p).train.req = false → byteAt word 16 ≠ 255 →
      Answers (.trainingWordReceived p lane word) s (fun d => ∃ e : Dev,
        e = (if s.dev.portRuns p then s.dev.ckSeen p else s.dev) ∧ d = e.modTrain p (fun t =>
        { ({ t with peer := { t.peer with far := bit (byteAt word 4) 6, width := byteAt word 6, laneGood := byteAt word 15,
                                          aligned := bit (byteAt word 7) 0, req := bit (byteAt word 7) 1 } }.countAligned lane
            (bit (byteAt word 7) 0)) with
          countdown := some ⟨bits (byteAt word 17) 1 0, bit (byteAt word 17) 2, bit (byteAt word 17) 3, byteAt word 6, byteAt word 16,
                            byteAt word 16 == 0⟩ }))) ∧
  -- COUNTDOWN_END (R93)
  (∀ (s : State) (p : Fin 128) (c : Countdown), s.dev.portRuns p = true → (s.dev.port p).train.countdown = some c →
     (s.dev.port p).train.state = .t0Config → 1 ≤ c.target → c.ended = true →
      Answers (.countdownEnd p) s (fun d => d = s.dev.toStep p c.target c.width))

/-- Lane failure and sleep commands answer their states (R96, R100, R101, R102).
Each clause names the conditions on the state and the operands, and what the next state is.
The model's choice, not the rules': log entry 17 (when a transmit direction may sleep, and the lane of WAKE words). -/
def Obligations.LaneFailureAndSleepComplete : Prop :=
  -- LANE_PHASE_FAIL (R96)
  (∀ (s : State) (p : Fin 128) (lane : Fin 8), s.dev.portRuns p = true → (s.dev.port p).train.rxAsleep = false →
     (s.dev.port p).train.state = .step →
      Answers (.lanePhaseFail p lane) s (fun d =>
        ∃ e : Dev, e = s.dev.modTrain p (fun t => t.modLane lane (fun x => { x with good := false, found := none })) ∧
        d = if (activeLanes (s.dev.port p).train.width).contains lane.val = true then e.request p else e)) ∧
  -- LANE_ERROR_WINDOW (R96)
  (∀ (s : State) (p : Fin 128) (worn : List Nat), s.dev.portRuns p = true → (s.dev.port p).train.state = .up →
     (s.dev.port p).train.errStart + 1000000 ≤ s.dev.belfryNow (p / 32) →
     s.dev.belfryNow (p / 32) < (s.dev.port p).train.errStart + 2000000 →
     worn = (List.range 8).filter (fun l => decide ((s.dev.port p).laneErrLimit < ((s.dev.port p).train.lane l).corrected)) →
      Answers (.laneErrorWindow p) s (fun d => ∃ e : Dev,
        e = s.dev.modTrain p (fun t =>
          { t with errStart := t.errStart + 1000000, lanes := (List.range 8).map (fun l => (l, { t.lane l with corrected := 0 })) }) ∧
        d = forEach worn (fun l d => d.laneFail p l) e)) ∧
  -- TX_SLEEP_ENTRY (R100)
  (∀ (s : State) (p : Fin 128), s.dev.portRuns p = true → (s.dev.port p).train.state = .up → (s.dev.port p).toll.state = .opened →
     (s.dev.port p).sleepEn = true → (s.dev.port p).train.txAsleep = false → (s.dev.port p).needsSend = false →
     (s.dev.port p).toll.txBlock = [] → (s.dev.port p).train.idleSince + (s.dev.port p).idleSleep ≤ s.dev.belfryNow (p / 32) →
      Answers (.txSleepEntry p) s (fun d => d = s.dev.sleepTx p)) ∧
  -- TX_WAKE (R101)
  (∀ (s : State) (p : Fin 128), s.dev.portRuns p = true → (s.dev.port p).train.state = .up → (s.dev.port p).train.txAsleep = true →
     (s.dev.port p).needsSend = true → s.dev.lantern.entering = none →
      Answers (.txWake p) s (fun d => d = s.dev.wakeTx p 16)) ∧
  -- CK_BEACON_END (R102)
  (∀ (s : State) (p : Fin 128), s.dev.rxRuns p = true → (s.dev.port p).train.state = .up → (s.dev.port p).train.rxAsleep = true →
      Answers (.ckBeaconEnd p) s (fun d => d = s.dev.setPort p { s.dev.port p with
        train := { (s.dev.port p).train with
          beaconEnd := some (s.dev.belfryNow (p / 32)), wakeRun := 0
          ckAt := max (s.dev.port p).train.ckAt (s.dev.belfryNow (p / 32)) } })) ∧
  -- WAKE_FAIL (R102)
  (∀ (s : State) (p : Fin 128) (b : Nat), s.dev.portRuns p = true → (s.dev.port p).train.state = .up →
     (s.dev.port p).train.rxAsleep = true → (s.dev.port p).train.beaconEnd = some b → b + 200 ≤ s.dev.belfryNow (p / 32) →
      Answers (.wakeFail p) s (fun d => d = (s.dev.count (Ctr.wakeFails p)).toRetrain p causeRequest false)) ∧
  -- SLEEP_REFRESH (R102)
  (∀ (s : State) (p : Fin 128), s.dev.portRuns p = true → (s.dev.port p).train.state = .up → (s.dev.port p).train.txAsleep = true →
     (s.dev.port p).train.txSince + 10000000 ≤ s.dev.belfryNow (p / 32) →
      Answers (.sleepRefresh p) s (fun d => ∃ e : Dev, e = s.dev.wakeTx p 256 ∧
        d = if (e.port p).needsSend = true then e else e.sleepTx p))

/-- Limp frames and LANE_BITSLIP answer their states (R85, R90, R91, R104).
Each clause names the conditions on the state and the operands, and what the next state is.
The model's choice, not the rules': log entries 17 and 18 (LIMP between ends that differ in LIMP_EN, T0 frames of other VCs, and the order of SLIP's tests). -/
def Obligations.LimpAndBitSlipCommandsComplete : Prop :=
  -- LIMP_FRAME_RECEIVED (R104)
  (∀ (s : State) (p : Fin 128) (lanes : List Groups) (e : Dev) (syms : List (List Sym)) (b : List Byte), s.dev.portRuns p = true →
     (s.dev.port p).train.state = .limp →
     (s.dev.ckSeen p).decodeLanes p (activeLanes (s.dev.port p).train.width) lanes = (e, syms) → syms.any codeError = false →
     lanes.length = (activeLanes (s.dev.port p).train.width).length → frameOf syms = some b → crc32 (b.take 132) = field b 132 4 →
     16 ≤ field b 0 4 → field b 0 4 ≤ 19 →
      Answers (.limpFrameReceived p lanes) s (fun d => d = e.releaseFlit p false (field b 0 4) (sliceBytes b 4 128))) ∧
  -- FC_RECEIVED (R85)
  (∀ (s : State) (p : Fin 128) (lane : Fin 8) (groups : Groups) (e : Dev) (syms : List Sym) (b : List Byte),
     s.dev.portRuns p = true → s.dev.receiveSet p lane groups = (e, some syms) →
     (activeLanes (e.port p).train.width).contains lane.val = true → (e.port p).train.state = .limp → setBody symFc syms = some b →
      Answers (.fcReceived p lane groups) s (fun d => d = e.modToll p (fun t => { t with peerStop := field b 0 3 % 2 ^ 20 }))) ∧
  -- LIMP_FC_SEND (R104)
  (∀ (s : State) (p : Fin 128), s.dev.portRuns p = true → (s.dev.port p).train.state = .limp →
     ((s.dev.port p).stopSent ≠ (s.dev.port p).train.fcStop ∨ (s.dev.port p).train.fcAt + 4000 ≤ s.dev.belfryNow (p / 32)) →
      Answers (.limpFcSend p) s (fun d => ∃ e : Dev,
        e = (forEach (activeLanes (s.dev.port p).train.width)
          (fun l d => d.sendT0 p l (fcSet (s.dev.port p).stopSent (s.dev.port p).train.seq)) s.dev).takeLanes p 16 ∧
        d = e.modTrain p (fun t => { t with fcAt := s.dev.belfryNow (p / 32), fcStop := (s.dev.port p).stopSent,
                                            seq := (t.seq + 1) % 256 }))) ∧
  -- LANE_BITSLIP_CAPTURE (R90)
  (∀ (s : State) (path : Path) (tag : Nat) (raw : List (List Byte)) (q : Request) (ptr : Nat), Starts s slipForm path tag q ptr →
     slipOp q.params = 0 →
      Answers (.laneBitslipCapture (.request path tag) raw) s (fun d =>
        d = (s.dev.started q ptr).finish path tag Ocm.ok (captureReply q.params raw))) ∧
  -- LANE_BITSLIP_SLIP (R91)
  (∀ (s : State) (path : Path) (tag : Nat) (q : Request) (ptr : Nat), Starts s slipForm path tag q ptr → slipOp q.params = 1 →
     (s.dev.started q ptr).slipStatus q.params false = Ocm.ok →
      Answers (.laneBitslipSlip (.request path tag)) s (fun d =>
        d = ((s.dev.started q ptr).slip q.params).finish path tag Ocm.ok [])) ∧
  -- LANE_BITSLIP_CHECK (R90)
  (∀ (s : State) (path : Path) (tag : Nat) (seen : List (Nat × Nat)) (q : Request) (ptr : Nat), Starts s slipForm path tag q ptr →
     slipOp q.params = 2 → (s.dev.started q ptr).checkStatus q.params = Ocm.ok →
      Answers (.laneBitslipCheck (.request path tag) seen) s (fun d =>
        d = ((s.dev.started q ptr).check q.params seen false).finish path tag Ocm.ok (checkReply q.params seen))) ∧
  -- LANE_BITSLIP_READ (R90)
  (∀ (s : State) (path : Path) (tag : Nat) (q : Request) (ptr : Nat), Starts s slipForm path tag q ptr → slipOp q.params = 3 →
      Answers (.laneBitslipRead (.request path tag)) s (fun d =>
        d = (s.dev.started q ptr).finish path tag Ocm.ok ((s.dev.started q ptr).slipRead q.params)))

/-- Link units answer the states of the link layer (R114, R115, R117, R118, R121, R125).
Each clause names the conditions on the state and the operands, and what the next state is.
The model's choice, not the rules': log entry 19 (parity order on the wire, flits of a VC of 20 or more, and RESUME). -/
def Obligations.LinkCommandsComplete : Prop :=
  -- LINK_UNIT_RECEIVED (R114)
  (∀ (s : State) (p : Fin 128) (slot : List (List Byte)) (a : Dev), s.dev.rxRuns p = true →
     (a = if s.dev.gated then s.dev else s.dev.laneErrorWindow p) → (a.port p).train.state = .up →
     (a.port p).train.rxAsleep = false →
      Answers (.linkUnitReceived p slot) s (fun d => ∃ e : Dev,
        e = a.modTrain p (fun t => { t with leaving := [], wakeRun := 0, ckAt := max t.ckAt (a.belfryNow (p / 32)) }) ∧
        ((a.port p).train.far = true → d = e.slotFar p slot) ∧
        ((a.port p).train.far = false → ∀ (wire : List Byte) (e0 e1 : List (Nat × Nat)) (data : List Byte) (c : Control),
          wire = unitOfSlot (widthLanes (a.port p).train.width) slot → rsErrors (codeword wire 0) = some e0 →
          rsErrors (codeword wire 1) = some e1 → data = (correct (correct wire 0 e0) 1 e1).take 272 →
          crc32 (data.take 268) = field data 268 4 → c = Control.ofNat (field data 256 12) →
          d = ((e.countCorrected p 0 e0).countCorrected p 1 e1).goodUnit p c
            ((if c.f0Valid then [(c.f0Vc, sliceBytes data 0 128)] else []) ++
             (if c.f1Valid then [(c.f1Vc, sliceBytes data 128 128)] else []))))) ∧
  -- LINK_UNIT_SEND (R115)
  (∀ (s : State) (p : Fin 128), s.dev.portRuns p = true → (s.dev.port p).train.state = .up →
     (s.dev.port p).train.txAsleep = false → (s.dev.port p).toll.state ≠ .opened →
      Answers (.linkUnitSend p) s (fun d => d = (s.dev.sendUnit p false (s.dev.port p).toll.nextSeq []).starve p)) ∧
  -- LINK_UNIT_SEND (R115)
  (∀ (s : State) (p : Fin 128) (u : Replay), s.dev.portRuns p = true → (s.dev.port p).train.state = .up →
     (s.dev.port p).train.txAsleep = false → (s.dev.port p).toll.state = .opened → (s.dev.port p).toll.dataRun < 4095 →
     (s.dev.port p).toll.nextDue = some u →
      Answers (.linkUnitSend p) s (fun d => ∃ e : Dev,
        e = (s.dev.count (Ctr.resends p)).modToll p (fun t => { t with
          due := t.due.filter (· != u.seq),
          replay := modWhere (fun v => v.seq == u.seq)
            (fun v => { v with resends := v.resends + 1, sentAt := s.dev.belfryNow (p / 32) }) t.replay }) ∧
        d = (e.sendUnit p true u.seq u.flits).starve p)) ∧
  -- LINK_UNIT_SEND (R115)
  (∀ (s : State) (p : Fin 128), s.dev.portRuns p = true → (s.dev.port p).train.state = .up →
     (s.dev.port p).train.txAsleep = false → (s.dev.port p).toll.state = .opened → (s.dev.port p).toll.dataRun < 4095 →
     (s.dev.port p).toll.nextDue = none → (s.dev.port p).toll.hasCredit = true → (s.dev.port p).toll.handed ≠ [] →
      Answers (.linkUnitSend p) s (fun d => ∃ e : Dev,
        e = s.dev.modToll p (fun t => { t with
          handed := t.handed.drop 2, nextSeq := (t.nextSeq + 1) % 4096,
          replay := t.replay ++ [⟨t.nextSeq, (s.dev.port p).toll.handed.take 2, 0, s.dev.belfryNow (p / 32)⟩] }) ∧
        d = (e.sendUnit p false (s.dev.port p).toll.nextSeq ((s.dev.port p).toll.handed.take 2)).starve p)) ∧
  -- LINK_UNIT_SEND (R115)
  (∀ (s : State) (p : Fin 128), s.dev.portRuns p = true → (s.dev.port p).train.state = .up →
     (s.dev.port p).train.txAsleep = false → (s.dev.port p).toll.state = .opened →
     (4095 ≤ (s.dev.port p).toll.dataRun ∨ ((s.dev.port p).toll.nextDue = none ∧ ((s.dev.port p).toll.hasCredit = false ∨ (s.dev.port p).toll.handed = []))) →
      Answers (.linkUnitSend p) s (fun d => d = (s.dev.sendUnit p false (s.dev.port p).toll.nextSeq []).starve p)) ∧
  -- RESEND_TIMEOUT (R118)
  (∀ (s : State) (p : Fin 128) (u : Replay), s.dev.portRuns p = true → (s.dev.port p).timedUnit = some u →
     (s.dev.port p).toll.state = .opened → u.sentAt + (s.dev.port p).resendTimeout ≤ s.dev.belfryNow (p / 32) →
      Answers (.resendTimeout p) s (fun d => d = s.dev.dueResend p u.seq (Ctr.resendTimeouts p))) ∧
  -- NAK_REPEAT (R117)
  (∀ (s : State) (p : Fin 128), s.dev.rxRuns p = true → (s.dev.port p).train.state = .up →
      Answers (.nakRepeat p) s (fun d => d = s.dev.modToll p (fun t =>
        { t with missing := modWhere (fun m => m.sent.any (fun a =>
                   decide (a + (s.dev.port p).resendTimeout ≤ s.dev.clk (Isl.rx p)))) (fun m => { m with sent := none }) t.missing }))) ∧
  -- CREDIT_TIMEOUT (R121)
  (∀ (s : State) (p : Fin 128) (t : Nat) (e : Dev), s.dev.portRuns p = true → e = s.dev.starve p →
     (e.port p).toll.starvedSince = some t → t + (e.port p).creditTimeout ≤ e.belfryNow (p / 32) →
      Answers (.creditTimeout p) s (fun d => d = e.breakLink p causeCredit)) ∧
  -- REPLAY_HOLD_END (R125)
  (∀ (s : State) (p : Fin 128) (t : Nat), s.dev.portRuns p = true → (s.dev.port p).toll.holdStart = some t →
     (s.dev.port p).toll.state = .held → t + (s.dev.port p).replayHold ≤ s.dev.belfryNow (p / 32) →
      Answers (.replayHoldEnd p) s (fun d => d = s.dev.closeLink p true))

/-- Header, epoch, live mask, sideband and chip register commands answer their states (R150, R152, R157, R168, R479).
Each clause names the conditions on the state and the operands, and what the next state is.
The model's choice, not the rules': log entries 9 and 20 (9: rows are a due event's time; 20: order of the tests at delivery). -/
def Obligations.RoutingCommandsComplete : Prop :=
  -- PACKET_HEADER_REGISTERED (R150)
  (∀ (s : State) (r : Fin 4) (input : Fin 64) (pkt : Packet) (x : Region) (p : Nat) (h : Hdr), s.dev.regionRuns r = true →
     (input.val < 32 ∨ 56 ≤ input.val) → pkt.hdr.vc < 20 →
     (s.dev.region r).bindHeader input pkt.hdr.vc (flitsOf pkt.hdr.plen) s.dev.nextId = some x →
     pkt.hdr.bad (netPort r input).isSome = false →
     ((s.dev.setRegion r x).takeId.hopOf r (netPort r input) pkt.hdr true).2 = some (.port p, h) →
      Answers (.packetHeaderRegistered r input pkt) s (fun d =>
        d = ((s.dev.setRegion r x).takeId.hopOf r (netPort r input) pkt.hdr true).1.modRegion r (fun y =>
          { y with waiting := y.waiting ++ [{ id := s.dev.nextId, input := input, vc := pkt.hdr.vc, stamp := s.dev.belfryNow r,
                                              net := netPort r input, arrived := pkt, pkt := { pkt with hdr := h }, hop := .port p }] }))) ∧
  -- EPOCH_PROPAGATE (R479)
  (∀ (s : State) (r : Fin 4), s.dev.regionRuns r = true →
      Answers (.epochPropagate r) s (fun d => d = s.dev.modRegion r (fun x => { x with epochs := s.dev.epochs }))) ∧
  -- LIVE_MASK_UPDATE (R157)
  (∀ (s : State) (r : Fin 4) (p : Fin 128), s.dev.regionRuns r = true →
      Answers (.liveMaskUpdate r p) s (fun d => ∃ e : Dev, e = s.dev.modRegion r (fun x =>
          { x with live := putBit x.live p (s.dev.portLive p), limp := putBit x.limp p (s.dev.portLimp p) }) ∧
        d = if (e.region (p / 32)).state = .run ∨ (e.region (p / 32)).state = .resetting then e.rerouteWaiting r p else e)) ∧
  -- BUTTRESS_SIDEBAND_REPORT (R152)
  (∀ (s : State) (r : Fin 4), s.dev.regionRuns r = true →
      Answers (.buttressSidebandReport r) s (fun d =>
        d = forEach (allRegions.filter (fun q => q != r.val)) (fun q d =>
          if d.buttressRuns r q = true ∧ d.regionRuns q = true then d.modRegion q (fun x =>
            { x with reports := ((portsOf r).map (fun p => (p, (s.dev.port p).egressBytes))).foldl (fun t f => tput t f.1 f.2) x.reports })
          else d.crossingDrop r) s.dev)) ∧
  -- CHIP_REGISTER_APPLY (R168)
  (∀ (s : State) (r : Fin 4) (reg : ChipReg), s.dev.regionRuns r = true →
      Answers (.chipRegisterApply r reg) s (fun d =>
        d = (s.dev.modRegion r (fun x => { x with chip := x.chip.applyReg s.dev.chip reg })).pendServe r))

/-- The ROUTE commands answer their states and replies (R161, R162, R163, R164).
Each clause names the conditions on the state and the operands, and what the next state is.
The model's choice, not the rules': log entries 7, 20 and 22 (7: the tick at which a region swaps is a free value; 22: checks common to a form). -/
def Obligations.RouteTableCommandsComplete : Prop :=
  -- ROUTE_WRITE (R161)
  (∀ (s : State) (path : Path) (tag : Nat) (q : Request) (ptr : Nat), Starts s routeWriteForm path tag q ptr →
     maskRegions q.params ≠ [] → routeRanged q.params = true → (maskRegions q.params).all (s.dev.started q ptr).routesRun = true →
      Answers (.routeWrite path tag) s (fun d =>
        d = (forEach (maskRegions q.params) (fun r d => d.writeEntries r q.params) (s.dev.started q ptr)).finish path tag Ocm.ok [])) ∧
  -- ROUTE_COPY (R162)
  (∀ (s : State) (path : Path) (tag : Nat) (q : Request) (ptr : Nat), Starts s (Form.fixed 0x0502 8 [(4, 63)] 0) path tag q ptr →
     maskRegions q.params ≠ [] → (maskRegions q.params).all (s.dev.started q ptr).routesRun = true →
      Answers (.routeCopy path tag) s (fun d =>
        d = (forEach (maskRegions q.params) (fun r d => d.modRegion r (fun x => { x with banks := x.banks.copy })) (s.dev.started q ptr)).finish
          path tag Ocm.ok [])) ∧
  -- ROUTE_COMMIT (R163)
  (∀ (s : State) (path : Path) (tag : Nat) (q : Request) (ptr : Nat), Starts s (Form.fixed 0x0503 8 [(4, 63)] 40) path tag q ptr →
     (maskRegions q.params).filter (s.dev.started q ptr).commits ≠ [] → (s.dev.started q ptr).chip.liveWrite = false →
      Answers (.routeCommit path tag) s (fun d => ∃ e : Dev,
        e = Dev.planSwaps q.path q.tag ((maskRegions q.params).filter (s.dev.started q ptr).commits) (s.dev.started q ptr) ∧
        d = (e.modExec path tag (fun x => { x with a := bits (byteAt q.params 0) 3 0, b := 0, data := zeros 40 })).answerBad 256)) ∧
  -- ROUTE_READ (R164)
  (∀ (s : State) (path : Path) (tag : Nat) (q : Request) (ptr : Nat), Starts s routeReadForm path tag q ptr →
     routeRanged q.params = true → (s.dev.started q ptr).routesRun (bits (byteAt q.params 0) 1 0) = true →
      Answers (.routeRead path tag) s (fun d => d = (s.dev.started q ptr).finish path tag Ocm.ok
        ((List.range (byteAt q.params 4)).flatMap (fun k => leBytes 32 (((s.dev.started q ptr).region (bits (byteAt q.params 0) 1 0)).banks.read
          (bit (byteAt q.params 0) 5) (bit (byteAt q.params 0) 4) (field q.params 2 2 + k))))))

/-- Flit storage, stop and go and egress selection answer their states (R38, R174, R175, R178, R180, R188).
Each clause names the conditions on the state and the operands, and what the next state is.
The model's choice, not the rules': log entries 13, 20, 21 and 49 (Buttress lanes, what stands for the queue figure of a unit, and the size of an intake). -/
def Obligations.FlowControlCommandsComplete : Prop :=
  -- FLIT_STORE (R174)
  (∀ (s : State) (p : Fin 128) (vc : Fin 20) (flit : Flit) (x : Region) (a : Arriving), s.dev.regionRuns (p / 32) = true →
     (s.dev.region (p / 32)).flitOwner (cellKey (p % 32) vc) flit = a → a.discard = false →
     (s.dev.region (p / 32)).storeNet (s.dev.belfryNow (p / 32)) (p % 32) vc = ⟨x, true, none⟩ →
      Answers (.flitStore p vc flit) s (fun d => ∃ e : Dev,
        e = (s.dev.setRegion (p / 32) (x.oneArrived (cellKey (p % 32) vc) a true)).countSkid (p / 32) (p % 32)
          ((s.dev.region (p / 32)).skidOf (p % 32)) ∧
        d = ((forEach (s.dev.region (p / 32)).poolAsked (fun b d => if b.1 = p % 32 then d
          else d.countSkid (p / 32) b.1 ((s.dev.region (p / 32)).skidOf b.1)) e).crossFlit p).starveAll)) ∧
  -- INTERNAL_FLIT_ACCEPT (R175)
  (∀ (s : State) (r : Fin 4) (input : Fin 64) (vc : Fin 20) (x : Region), s.dev.regionRuns r = true →
     (s.dev.region r).storeInternal input vc = some x →
      Answers (.internalFlitAccept r input vc) s (fun d =>
        (∀ a : Arriving, 56 ≤ input.val → tget (s.dev.region r).arriving (cellKey input vc) = some a → a.discard = false →
          d = s.dev.setRegion r (x.oneArrived (cellKey input vc) a true)) ∧
        (∀ (c : Crossing) (ptr : Nat), 32 ≤ input.val → input.val < 56 → c.input = input.val → c.vc = vc.val →
          s.dev.buttressWinner r (buttressSource r input) (fun x i v => (x.storeInternal i v).isSome) = some (c, ptr) →
          d = (s.dev.setRegion r { x with buttressPtr := tput (s.dev.region r).buttressPtr (buttressSource r input) ptr }).crossButtress r c))) ∧
  -- GO_STATUS_UPDATE (R178)
  (∀ (s : State) (r : Fin 4), s.dev.regionRuns r = true →
      Answers (.goStatusUpdate r) s (fun d => ∃ e f g : Dev, ∃ x : Region,
        e = s.dev.poolServe r (s.dev.region r).poolWaits.length ∧
        f = (if (e.region r).poolOpen = true ∧ (e.region r).poolFree ≤ (e.region r).chip.poolStop
          then (e.count (Ctr.poolCloses r)).raise (Isl.belfry r) (Src.region r 8) 0 0 else e) ∧
        g = f.modRegion r (fun x => { x with
          poolOpen := if (e.region r).poolOpen = true then decide ((e.region r).chip.poolStop < (e.region r).poolFree)
            else decide ((e.region r).chip.poolGo ≤ (e.region r).poolFree) }) ∧
        x = g.region r ∧
        d = forEach (List.range 32) (fun i d =>
          d.modPort (32 * r + i) (fun y => { y with stopSent := x.stopBits i, floorOnly := x.floorBits i })) g)) ∧
  -- SWITCH_ALLOCATION (R38)
  (∀ (s : State) (r : Fin 4) (output : Fin 64) (i : Nat) (w : Waiting) (ptr vptr : Nat) (offers : List (Nat × (Waiting × Nat))),
     s.dev.regionRuns r = true → offers = (List.range 64).filterMap (fun i => (s.dev.selectVc r output i).map (fun o => (i, o))) →
     arbitrate 64 (tgetD (s.dev.region r).outPtr output 0) (offers.map (fun o => o.2.1.req o.1)) = some (i, ptr) →
     offers.find? (fun o => o.1 == i) = some (i, (w, vptr)) →
      Answers (.switchAllocation r output) s (fun d => d = (s.dev.modRegion r (fun x =>
        { x with outPtr := tput x.outPtr output ptr, inPtr := tput x.inPtr i vptr })).grantOutput r output w)) ∧
  -- EGRESS_SELECT (R180)
  (∀ (s : State) (p : Fin 128) (vc ptr : Nat) (e : Egress), s.dev.regionRuns (p / 32) = true →
     arbitrate 20 (s.dev.port p).egressPtr ((s.dev.egressReady p).map (fun e => ⟨e.vc, if e.pkt.hdr.cls = 4 then 1 else 0, e.stamp⟩)) = some (vc, ptr) →
     (s.dev.egressReady p).find? (fun e => e.vc == vc) = some e →
      Answers (.egressSelect p) s (fun d =>
        d = ((s.dev.modPort p (fun x => { x with egressPtr := ptr })).handFlit p e).starve p)) ∧
  -- MGMT_HOLD_EXPIRY (R188)
  (∀ (s : State) (r : Fin 4) (id : Nat) (w : Waiting), s.dev.regionRuns r = true →
     (s.dev.region r).waiting.find? (fun w => w.id == id) = some w → w.pkt.hdr.cls = 4 →
     w.stamp + (s.dev.region r).chip.mgmtHold ≤ s.dev.belfryNow r →
      Answers (.mgmtHoldExpiry r id) s (fun d =>
        d = ((s.dev.modRegion r (fun x => { x with waiting := x.waiting.filter (fun v => v.id != id) })).dropCount r
          (Ctr.mgmtHoldDrops r) (some 15)).release r w.input w.vc w.id (flitsOf w.arrived.hdr.plen) 0))

/-- PCIe link and function state commands answer the endpoint states of chapter 07 (R199, R210, R211, R213, R215, R221).
Each clause names the conditions on the state and the operands, and what the next state is.
The model's choice, not the rules': log entries 3, 26 and 52 (3: PCI Express layout and values; 26: the order of link events; 52: the delay until configuration answers). -/
def Obligations.GateLinkCommandsComplete : Prop :=
  -- PERST_ASSERTED (R215)
  (∀ (s : State) (g : Fin 8), s.dev.lantern.powered = true → s.dev.gatesRun = true → s.dev.bifurcated g = false →
      Answers (.perstAsserted g) s (fun d => d = (s.dev.modGate g (fun x => { x with perst := false })).perstEp (2 * g))) ∧
  -- PERST_RELEASED (R199)
  (∀ (s : State) (g : Fin 8), s.dev.lantern.powered = true →
      Answers (.perstReleased g) s (fun d => ∃ e : Dev,
        e = s.dev.modGate g (fun x => { x with perst := true, perstAt := s.dev.gateNow (2 * g), wakeLow := false }) ∧
        (s.dev.gatesRun = false → d = e) ∧
        (s.dev.gatesRun = true → d = forEach (e.subsOf g) (fun i d =>
          if (d.ep i).state = .down then
            ((d.modEp i (fun x => { x with d3cold := false })).modEp i (fun x => { x with training := true })).emit (.pcieTrain i)
          else d) e))) ∧
  -- LINK_ACTIVE (R210)
  (∀ (s : State) (ep : Fin 16) (width rate : Nat) (flit : Bool), s.dev.gatesRun = true → s.dev.epExists ep = true →
     (s.dev.ep ep).state = .down → (s.dev.ep ep).training = true → s.dev.linkOk ep width rate flit = true →
      Answers (.linkActive ep width rate flit) s (fun d => ∃ e : Dev,
        e = s.dev.modEp ep (fun x =>
          { x with state := .link, linkWidth := width, linkRate := rate, flit := flit, training := false }) ∧
        d = (e.readyBy ep ((e.gate (ep / 2)).perstAt + 1000000000)).raise (Isl.gate (ep / 2)) (Src.ep ep 7) 1 0)) ∧
  -- SURPRISE_REMOVAL (R211)
  (∀ (s : State) (ep : Fin 16), s.dev.gatesRun = true → s.dev.epExists ep = true → (s.dev.ep ep).state ≠ .down →
     (s.dev.ep ep).linkWidth ≠ 0 → (s.dev.ep ep).d3cold = false →
      Answers (.surpriseRemoval ep) s (fun d => ∃ e : Dev, e = (s.dev.count (Ctr.surpriseRemovals ep)).gateStop ep 3 ∧
        ((s.dev.ep ep).movedAt ≠ some (e.gateNow ep) → d = ((e.quarantineTags ep).abandonLocal ep none).linkLost ep) ∧
        ((s.dev.ep ep).movedAt = some (e.gateNow ep) →
          d = (((e.modEp ep (fun x => { x with stopCause := 3 })).quarantineTags ep).abandonLocal ep none).linkLost ep))) ∧
  -- BUS_MASTER_ENABLE_SET (R210)
  (∀ (s : State) (ep : Fin 16), s.dev.cfgUp ep = true → (s.dev.ep ep).readyAt ≤ s.dev.gateNow ep →
     ((s.dev.ep ep).state = .link ∨ (s.dev.ep ep).state = .halted) →
      Answers (.busMasterEnableSet ep) s (fun d =>
        d = ((s.dev.touchEp ep).modEp ep (fun x => { x with cfg := { x.cfg with bme := true } })).enterRun ep)) ∧
  -- BUS_MASTER_ENABLE_CLEAR (R213)
  (∀ (s : State) (ep : Fin 16), s.dev.cfgUp ep = true → (s.dev.ep ep).readyAt ≤ s.dev.gateNow ep → (s.dev.ep ep).state = .run →
      Answers (.busMasterEnableClear ep) s (fun d =>
        d = ((s.dev.touchEp ep).modEp ep (fun x => { x with cfg := { x.cfg with bme := false } })).barIssue ep .halted)) ∧
  -- POWER_STATE_D3HOT (R221)
  (∀ (s : State) (ep : Fin 16), s.dev.cfgUp ep = true → (s.dev.ep ep).readyAt ≤ s.dev.gateNow ep →
     ((s.dev.ep ep).state = .run ∨ (s.dev.ep ep).state = .link ∨ (s.dev.ep ep).state = .halted) →
      Answers (.powerStateD3hot ep) s (fun d => d = if (s.dev.ep ep).state = .run then (s.dev.touchEp ep).barIssue ep .d3hot
        else s.dev.modEp ep (fun x => { x with busyAt := s.dev.gateNow ep, l1 := false, state := .d3hot,
                                               movedAt := some (s.dev.gateNow ep) }))) ∧
  -- POWER_STATE_D0 (R210)
  (∀ (s : State) (ep : Fin 16), s.dev.cfgUp ep = true → (s.dev.ep ep).readyAt ≤ s.dev.gateNow ep → (s.dev.ep ep).state = .d3hot →
      Answers (.powerStateD0 ep) s (fun d => d = if (s.dev.ep ep).cfg.bme = true then (s.dev.touchEp ep).enterRun ep
        else s.dev.modEp ep (fun x => { x with busyAt := s.dev.gateNow ep, l1 := false, state := .link }))) ∧
  -- D3COLD_ENTRY (R211)
  (∀ (s : State) (ep : Fin 16), s.dev.gatesRun = true → s.dev.epExists ep = true → (s.dev.ep ep).state ≠ .down →
      Answers (.d3coldEntry ep) s (fun d => d = s.dev.modEp ep (fun x => { x with d3cold := true })))

/-- Function level reset, hot reset and GATE_STOP answer their states (R207, R215).
Each clause names the conditions on the state and the operands, and what the next state is.
The model's choice, not the rules': log entries 3, 26 and 52 (3: sticky PCI Express fields; 26: events of one gate tick; 52: the delay until configuration answers). -/
def Obligations.GateResetAndStopCommandsComplete : Prop :=
  -- FUNCTION_LEVEL_RESET (R215)
  (∀ (s : State) (ep : Fin 16), s.dev.cfgUp ep = true → (s.dev.ep ep).readyAt ≤ s.dev.gateNow ep → (s.dev.ep ep).linkWidth ≠ 0 →
      Answers (.functionLevelReset ep) s (fun d => ∃ e : Dev,
        e = ((s.dev.touchEp ep).count (Ctr.flrs ep)).endpointReset ep .link ∧
        d = ((e.readyBy ep (e.gateNow ep + 10000000)).raise (Isl.gate (ep / 2)) (Src.ep ep 6) 1 0).afterTick ep
          ((s.dev.touchEp ep).ep ep))) ∧
  -- HOT_RESET (R215)
  (∀ (s : State) (ep : Fin 16), s.dev.gatesRun = true → s.dev.epExists ep = true → (s.dev.ep ep).state ≠ .down →
     (s.dev.ep ep).linkWidth ≠ 0 →
      Answers (.hotReset ep) s (fun d => d = (((s.dev.count (Ctr.hotResets ep)).endpointReset ep .link).raise
        (Isl.gate (ep / 2)) (Src.ep ep 6) 2 0).afterTick ep (s.dev.ep ep))) ∧
  -- GATE_STOP (R207)
  (∀ (s : State) (ep : Fin 16), s.dev.gatesRun = true → s.dev.epExists ep = true → (s.dev.ep ep).state ≠ .down →
     (s.dev.ep ep).state ≠ .stopped →
      Answers (.gateStop ep) s (fun d => ∃ e : Dev,
        e = (((s.dev.moveEp ep .stopped).modEp ep (fun x => { x with stopCause := 1 })).haltQueues ep (fun _ => true)).1 ∧
        ((s.dev.ep ep).state = .run → d = ((e.leaveRun ep).raise (Isl.gate (ep / 2)) (Src.ep ep 1) 1 0).syncInta ep) ∧
        ((s.dev.ep ep).state ≠ .run → d = (e.raise (Isl.gate (ep / 2)) (Src.ep ep 1) 1 0).syncInta ep)))

/-- BAR4 accesses, link power states and MSI-X writes answer their states (R206, R214, R220, R222).
Each clause names the conditions on the state and the operands, and what the next state is.
The model's choice, not the rules': log entries 1, 3 and 7 (1: the operand of INTERRUPT_CONFIG_WRITE carries the whole PCI Express configuration, of which R220 speaks of the interrupts alone; 3 (PRESUMED): its registers, places and values; 7: extended registers read as free values. BAR4 reads are stated in HostWritesTouchOnlyTheirHbmBytes). -/
def Obligations.GateWindowPowerAndInterruptsComplete : Prop :=
  -- BAR4_ACCESS (R206)
  (∀ (s : State) (ep : Fin 16) (off : Nat) (data : List Byte), s.dev.gatesRun = true → s.dev.epExists ep = true →
     s.dev.barOpen ep = true → s.dev.hbmRuns (ep / 4) = true → off + data.length ≤ (s.dev.region (ep / 4)).carve.remainder →
     data ≠ [] →
      Answers (.bar4Access ep off (.write data)) s (fun d => d = s.dev.hbmWrite (ep / 4) off data)) ∧
  -- L1_ENTRY_REQUEST (R222)
  (∀ (s : State) (ep : Fin 16), s.dev.gatesRun = true → s.dev.epExists ep = true → (s.dev.ep ep).cfg.aspmL1 = true →
     (s.dev.ep ep).state ≠ .down → (s.dev.ep ep).linkWidth ≠ 0 → (s.dev.ep ep).l1 = false → (s.dev.ep ep).tags = [] →
     (s.dev.ep ep).wantTags = [] → (s.dev.ep ep).busyAt + (s.dev.ep ep).l1Idle ≤ s.dev.gateNow ep →
      Answers (.l1EntryRequest ep) s (fun d => d = (s.dev.modEp ep (fun x => { x with l1 := true })).emit (.pcieL1 ep))) ∧
  -- L0P_WINDOW (R222)
  (∀ (s : State) (ep : Fin 16) (up down : Nat), s.dev.gatesRun = true → s.dev.epExists ep = true →
     rbits (s.dev.ep ep).gateCtrl 3 2 ≠ 0 → (s.dev.ep ep).cfg.l0p = true → (s.dev.ep ep).state ≠ .down →
     (s.dev.ep ep).linkWidth ≠ 0 → (s.dev.ep ep).l0pAt + 10000 ≤ s.dev.gateNow ep →
      Answers (.l0pWindow ep up down) s (fun d => ∃ e : Dev, e = s.dev.modEp ep (fun x => { x with l0pAt := s.dev.gateNow ep }) ∧
        d = if 75 < up ∨ 75 < down then e.modEp ep (fun x => { x with l0pDiv := 1 })
          else if up ≤ 25 ∧ down ≤ 25 ∧
              2 * (s.dev.ep ep).l0pDiv ≤ min (2 ^ rbits (s.dev.ep ep).gateCtrl 3 2) (s.dev.ep ep).linkWidth
            then e.modEp ep (fun x => { x with l0pDiv := 2 * x.l0pDiv })
          else e)) ∧
  -- INTERRUPT_CONFIG_WRITE (R220)
  (∀ (s : State) (ep : Fin 16) (acc : CfgAccess), s.dev.cfgUp ep = true → (s.dev.ep ep).readyAt ≤ s.dev.gateNow ep →
      Answers (.interruptConfigWrite ep acc) s (fun d => ∃ e : Dev, e = s.dev.touchEp ep ∧
        (∀ f, acc = .read f → (∀ id off, f ≠ .extRegister id off) → d = e.sendData ep (some (e.cfgRead ep f))) ∧
        (∀ id off, acc = .read (.extRegister id off) → d = (e.sendData ep (some (e.cfgRead ep (.extRegister id off)))).draw) ∧
        (∀ w, acc = .write w → d = ((e.modEp ep (fun x => { x with cfg := { x.cfg with
          memEnable := w.memEnable, intxDisable := w.intxDisable, cplTimeout := w.cplTimeout % 16, maxPayload := w.maxPayload % 8,
          maxRead := w.maxRead % 8, tagSize := w.tagSize, relaxed := w.relaxed,
          atomicReq := w.atomicReq, msixEnable := w.msixEnable, functionMask := w.functionMask, pmeEn := w.pmeEn,
          pmeStatus := x.cfg.pmeStatus && !w.clearPme, aspmL1 := w.aspmL1, l0p := w.l0p, bar0 := 2 ^ 25 * (w.bar0 / 2 ^ 25),
          bar2 := 2 ^ 24 * (w.bar2 / 2 ^ 24), bar4 := 2 ^ 34 * (w.bar4 / 2 ^ 34), requester := w.requester,
          errReport := w.errReport, errStatus := x.cfg.errStatus &&& ~~~ w.clearStatus, linkControl := w.linkControl,
          aer := PciCfg.aerWrite x.cfg.aer w.aer } })).syncInta ep).flushVectors ep))) ∧
  -- MSIX_VECTOR_UNMASK (R214)
  (∀ (s : State) (ep : Fin 16) (vector : Fin 2048), s.dev.gatesRun = true → s.dev.epExists ep = true → s.dev.barOpen ep = true →
      Answers (.msixVectorUnmask ep vector) s (fun d =>
        d = (s.dev.modEp ep (fun x => { x with msix := tput x.msix vector { x.vector vector with masked := false } })).flushVectors ep))

/-- Completions of device reads and doorbell writes answer their states (R201, R217, R218, R230, R231, R256, R274).
Each clause names the conditions on the state and the operands, and what the next state is.
The model's choice, not the rules': log entries 3, 26 and 28 (3 (PRESUMED): byte counts of completions; 26: quarantine of tags; 28: doorbells to a queue that is not enabled). -/
def Obligations.UpstreamRequestsAndDoorbellsComplete : Prop :=
  -- COMPLETION_RECEIVED (R218)
  (∀ (s : State) (ep : Fin 16) (c : Completion) (t : Tag) (data : List Byte), s.dev.gatesRun = true →
     (s.dev.ep ep).tag c.tag = some t → t.agrees (s.dev.ep ep) c = true → t.late = false → t.failed = false →
     s.dev.expired ep t = false → c.res = .ok data →
      Answers (.completionReceived ep c) s (fun d => d =
        if data.length = t.byteCount then (s.dev.freeTag ep t.tag).hostEnd ep t (.ok (t.got ++ data))
        else s.dev.modEp ep (fun x => { x with
          tags := modWhere (fun y => y.tag == t.tag) (fun y => { y with
            got := y.got ++ data, byteCount := y.byteCount - data.length
            lowerAddr := (y.lowerAddr + data.length) % 128 }) x.tags }))) ∧
  -- CPL_TIMEOUT (R201)
  (∀ (s : State) (ep : Fin 16) (tag : Nat) (t : Tag), s.dev.gatesRun = true → (s.dev.ep ep).tag tag = some t →
     t.issued + (s.dev.ep ep).cfg.timeout ≤ s.dev.gateNow ep →
      Answers (.cplTimeout ep tag) s (fun d => d =
        if t.late = true then (s.dev.count (Ctr.tagsExpired ep)).freeTag ep tag
        else if t.failed = true ∧ t.silent = true then s.dev.freeTag ep tag
        else if t.failed = true then (s.dev.freeTag ep tag).reportRes ep .timeout
        else (s.dev.freeTag ep tag).hostEnd ep t .timeout)) ∧
  -- TAG_QUARANTINE_END (R217)
  (∀ (s : State) (ep : Fin 16) (tag n : Nat), s.dev.gatesRun = true →
     (s.dev.ep ep).quarantine.find? (fun q => q.1 == tag) = some (tag, n) → n ≤ s.dev.gateNow ep →
      Answers (.tagQuarantineEnd ep tag) s (fun d => d = Dev.serveWants 1 (s.dev.modEp ep (fun x =>
        { x with quarantine := x.quarantine.filter (fun q => q.1 != tag), freedTags := x.freedTags ++ [tag] })) ep)) ∧
  -- WALK_READ_COMPLETE (R274)
  (∀ (s : State) (ep : Fin 16) (walk : Nat) (res : HostRes) (w : Walk), s.dev.gatesRun = true →
     tget (s.dev.ep ep).walks walk = some w →
      Answers (.walkReadComplete ep walk res) s (fun d =>
        (w.inHbm = true → d = s.dev.walkEnd ep walk res) ∧
        (∀ t data, w.inHbm = false → (s.dev.ep ep).outstanding (.walk walk) = some t → s.dev.expired ep t = false → res = .ok data →
          d = (s.dev.freeTag ep t.tag).hostEnd ep t (.ok (t.got ++ sliceBytes data 0 t.byteCount))))) ∧
  -- SQ_DOORBELL (R230)
  (∀ (s : State) (ep : Fin 16) (k : Nat) (data : List Byte), s.dev.epUp ep = true → s.dev.barOpen ep = true → k < 4096 →
     data.length = 8 → (s.dev.sq ep (2 * k)).state = .active →
     idxDist (s.dev.sq ep (2 * k)).ci (bits (leNat data) 15 0) ≤ 2 ^ (s.dev.sq ep (2 * k)).log →
     idxDist (s.dev.sq ep (2 * k)).pi (bits (leNat data) 15 0) ≤ 2 ^ (s.dev.sq ep (2 * k)).log →
      Answers (.sqDoorbell ep (4096 * k) data) s (fun d =>
        d = (s.dev.count (Ctr.doorbells ep)).raisePi ep (2 * k) (bits (leNat data) 15 0))) ∧
  -- SQ_PUSH (R231)
  (∀ (s : State) (ep : Fin 16) (k : Nat) (data : List Byte), s.dev.epUp ep = true → s.dev.barOpen ep = true → k < 4096 →
     data.length = 64 → (s.dev.sq ep (2 * k)).state = .active → (s.dev.sq ep (2 * k)).pi = (s.dev.sq ep (2 * k)).ci →
     (s.dev.sq ep (2 * k)).held = none → (s.dev.sq ep (2 * k)).chain = none → entSize data ≤ 1 →
      Answers (.sqPush ep (4096 * k + 0x800) data) s (fun d =>
        d = (((s.dev.count (Ctr.doorbells ep)).raisePi ep (2 * k) (((s.dev.sq ep (2 * k)).pi + entSize data + 1) % 65536)).count
          (Ctr.pushes ep)).modSq ep (2 * k) (fun x =>
            { x with pushed := some (x.ci, sliceBytes data 0 (32 * (entSize data + 1))) }))) ∧
  -- CQ_DOORBELL (R256)
  (∀ (s : State) (ep : Fin 16) (k : Nat) (data : List Byte), s.dev.epUp ep = true → s.dev.barOpen ep = true → k < 4096 →
     data.length = 8 → ((s.dev.ep ep).cq (2 * k)).enable = true → ((s.dev.ep ep).cq (2 * k)).badBell (leNat data) = false →
      Answers (.cqDoorbell ep (4096 * k + 0x040) data) s (fun d =>
        d = (s.dev.modCq ep (2 * k) (fun c => { c with ci := bits (leNat data) 15 0, armed := c.armed || bit (leNat data) 16 })).fireCq
          ep (2 * k)))

/-- Queue context writes, queue resets and fetches answer their states (R234, R236, R240, R241, R259, R261, R265, R266).
Each clause names the conditions on the state and the operands, and what the next state is.
The model's choice, not the rules': log entries 28 and 50 (what SQ_RESET_END waits for, and how reads are cut). -/
def Obligations.QueueContextCommandsComplete : Prop :=
  -- SQ_ENABLE (R234)
  (∀ (s : State) (ep : Fin 16) (sq : Fin 8192) (cfg : Reg) (x : Sq), s.dev.epUp ep = true → s.dev.barOpen ep = true →
     (s.dev.sq ep sq).state = .disabled → x = { s.dev.sq ep sq with cfg := (cfg ||| 1#64) &&& sqCfgMask } → 6 ≤ x.log →
     x.log ≤ 15 → ((s.dev.ep ep).cq x.cqn).enable = true →
      Answers (.sqEnable ep sq cfg) s (fun d => d = s.dev.modSq ep sq (fun _ =>
        { x with cfg := x.cfg ||| 1#64, state := .active, ctxErr := false }))) ∧
  -- SQ_DISABLE (R261)
  (∀ (s : State) (ep : Fin 16) (sq : Fin 8192) (cfg : Reg), s.dev.epUp ep = true → s.dev.barOpen ep = true →
     (s.dev.sq ep sq).state = .active → (cfg &&& ~~~1#64) &&& sqCfgMask = (s.dev.sq ep sq).cfg &&& sqCfgMask →
      Answers (.sqDisable ep sq cfg) s (fun d => d = s.dev.modSq ep sq (fun x =>
        { x with cfg := x.cfg &&& ~~~1#64, state := .draining, held := x.held.filter (fun h => h.chained), pushed := none }))) ∧
  -- SQ_DRAIN_DONE (R259)
  (∀ (s : State) (ep : Fin 16) (sq : Fin 8192), s.dev.epUp ep = true → (s.dev.sq ep sq).state = .draining →
     (s.dev.ep ep).idle sq = true →
      Answers (.sqDrainDone ep sq) s (fun d => d = s.dev.modSq ep sq (fun x => { x with state := .disabled, short := false }))) ∧
  -- CQ_ENABLE (R236)
  (∀ (s : State) (ep : Fin 16) (n : Fin 8192) (cfg : Reg), s.dev.epUp ep = true → s.dev.barOpen ep = true →
     ((s.dev.ep ep).cq n).enable = false →
      Answers (.cqEnable ep (.cq n) cfg) s (fun d => d = s.dev.modCq ep n (fun c =>
        { Cq.reset with base := c.base, cfg := ((cfg ||| 1#64) &&& cqCfgMask) ||| 1#64 }))) ∧
  -- CQ_DISABLE (R236)
  (∀ (s : State) (ep : Fin 16) (n : Fin 8192) (cfg : Reg), s.dev.epUp ep = true → s.dev.barOpen ep = true →
     ((s.dev.ep ep).cq n).enable = true → (cfg &&& ~~~1#64) &&& cqCfgMask = ((s.dev.ep ep).cq n).cfg &&& cqCfgMask →
     (s.dev.ep ep).cqUsed n = false → ((s.dev.ep ep).cq n).reserved = 0 →
      Answers (.cqDisable ep (.cq n) cfg) s (fun d => d = s.dev.modCq ep n (fun c => { c with cfg := c.cfg &&& ~~~1#64 }))) ∧
  -- SQ_RESET (R265)
  (∀ (s : State) (ep : Fin 16) (sq : Fin 8192), s.dev.epUp ep = true → s.dev.barOpen ep = true →
     (s.dev.sq ep sq).state ≠ .resetting →
      Answers (.sqReset ep sq) s (fun d => d = ((((((s.dev.modSq ep sq (fun x =>
        { x with state := .resetting, held := none, pushed := none, chain := none, short := false, cmds := [] })).dropFetch
          ep sq).abandonOps ep sq).abandonRest ep sq).withdrawRecvs ep sq).cancelPends ep (some sq)).abandonLocal
            ep (some (sq / 2)))) ∧
  -- SQ_RESET_END (R266)
  (∀ (s : State) (ep : Fin 16) (sq : Fin 8192), s.dev.epUp ep = true → (s.dev.sq ep sq).state = .resetting →
     (s.dev.epRuns ep = true → ∀ a ∈ (s.dev.sq ep sq).work, s.dev.liveRecv ep sq a.id = false ∧ s.dev.liveLock ep sq a.id = false) →
      Answers (.sqResetEnd ep sq) s (fun d =>
        d = (forEach (s.dev.sq ep sq).work (fun a d => d.flush ep sq a) (s.dev.dropRecvs ep sq)).modSq ep sq (fun x =>
          { Sq.reset with base := x.base, cfg := x.cfg &&& ~~~1#64, ctxErr := x.ctxErr }))) ∧
  -- ENTRY_FETCH (R240)
  (∀ (s : State) (ep : Fin 16) (q ptr : Nat), s.dev.epUp ep = true → s.dev.nextFetch ep = some (q, ptr) →
      Answers (.entryFetch ep) s (fun d => ∃ e : Dev, e = s.dev.modEp ep (fun x => { x with fetchPtr := ptr }) ∧
        ((s.dev.sq ep q).chain.isSome = true → d = e.chainFetch ep q) ∧
        ((s.dev.sq ep q).chain = none → (s.dev.sq ep q).pushed = none → d = e.ringFetch ep q) ∧
        (∀ pos b, (s.dev.sq ep q).chain = none → (s.dev.sq ep q).pushed = some (pos, b) → ∃ f : Dev,
          f = e.modSq ep q (fun x => { x with pushed := none }) ∧
          d = if pos = (s.dev.sq ep q).ci then f.takeEntry ep q b none else f.ringFetch ep q))) ∧
  -- RING_FETCH_FAIL (R241)
  (∀ (s : State) (ep : Fin 16) (sq : Fin 8192) (res : HostRes) (t : Tag) (y : Reading), s.dev.epUp ep = true →
     (s.dev.ep ep).outstanding (.ring sq) = some t → s.dev.expired ep t = false → (res = .ur ∨ res = .ca ∨ res = .poison) →
     t.reading = some y.id → y.who = .ring sq → t.silent = false →
     (((s.dev.freeTag ep t.tag).reportRes ep res).ep ep).readings.find? (fun z => z.id == y.id) = some y →
      Answers (.ringFetchFail ep sq res) s (fun d => ∃ e : Dev,
        e = ((s.dev.freeTag ep t.tag).reportRes ep res).modEp ep (fun x => { x with readings := x.readings.filter (fun z => z.id != y.id) }) ∧
        d = (e.count (Ctr.ringFetchFails ep)).stopQueue ep sq 0x0C (e.sq ep sq).ci none))

/-- Every kind of queue entry is accepted when its conditions hold (R243, R250, R295, R296, R311, R332, R344, R371, R404, R433).
Each clause names the conditions on the state and the operands, and what the next state is.
The model's choice, not the rules': log entry 28 (the order of an entry's tests). -/
def Obligations.QueueEntriesComplete : Prop :=
  -- NOP (R243)
  (∀ (s : State) (ep : Fin 16) (sq : Fin 8192) (h : Fetched), s.dev.epUp ep = true → (s.dev.sq ep sq).held = some h →
     s.dev.accepts ep sq 0x00 = true →
      Answers (.nop ep sq) s (fun d => d = (s.dev.accept ep sq h).complete ep sq s.dev.nextId (Fin8.ok 0))) ∧
  -- CHAIN (R250)
  (∀ (s : State) (ep : Fin 16) (sq : Fin 8192) (h : Fetched), s.dev.epUp ep = true → (s.dev.sq ep sq).held = some h →
     s.dev.accepts ep sq 0x01 = true →
      Answers (.chain ep sq) s (fun d => d = (s.dev.accept ep sq h).modSq ep sq (fun x =>
        { x with chain := some ⟨s.dev.nextId, (s.dev.sq ep sq).ci, field h.bytes 16 8, field h.bytes 24 4, 0, none⟩ }))) ∧
  -- PUT (R295)
  (∀ (s : State) (ep : Fin 16) (sq : Fin 8192) (h : Fetched), s.dev.epUp ep = true → (s.dev.sq ep sq).held = some h →
     s.dev.accepts ep sq 0x10 = true →
      Answers (.put ep sq) s (fun d => ∃ a : Dev, a = s.dev.accept ep sq h ∧ d = a.rmaOp (a.entryOp ep sq s.dev.nextId h.bytes))) ∧
  -- PUT_INLINE (R295)
  (∀ (s : State) (ep : Fin 16) (sq : Fin 8192) (h : Fetched), s.dev.epUp ep = true → (s.dev.sq ep sq).held = some h →
     s.dev.accepts ep sq 0x11 = true →
      Answers (.putInline ep sq) s (fun d => ∃ a : Dev, a = s.dev.accept ep sq h ∧ d = a.rmaOp
        { a.entryOp ep sq s.dev.nextId h.bytes with inline := some (sliceBytes h.bytes 64 (field h.bytes 40 4)) })) ∧
  -- GET (R295)
  (∀ (s : State) (ep : Fin 16) (sq : Fin 8192) (h : Fetched), s.dev.epUp ep = true → (s.dev.sq ep sq).held = some h →
     s.dev.accepts ep sq 0x12 = true →
      Answers (.get ep sq) s (fun d => ∃ a : Dev, a = s.dev.accept ep sq h ∧
        d = a.rmaOp { a.entryOp ep sq s.dev.nextId h.bytes with kind := .get })) ∧
  -- PUT_SIGNAL (R311)
  (∀ (s : State) (ep : Fin 16) (sq : Fin 8192) (h : Fetched), s.dev.epUp ep = true → (s.dev.sq ep sq).held = some h →
     s.dev.accepts ep sq 0x13 = true → field h.bytes 56 8 % 8 = 0 →
      Answers (.putSignal ep sq) s (fun d => ∃ a : Dev, a = s.dev.accept ep sq h ∧
        d = a.rmaOp (signalOf (a.entryOp ep sq s.dev.nextId h.bytes) h.bytes))) ∧
  -- ATOMIC64 (R296)
  (∀ (s : State) (ep : Fin 16) (sq : Fin 8192) (h : Fetched), s.dev.epUp ep = true → (s.dev.sq ep sq).held = some h →
     s.dev.accepts ep sq 0x20 = true → field h.bytes 24 8 % 8 = 0 → field h.bytes 16 8 % 8 = 0 →
      Answers (.atomic64 ep sq) s (fun d => ∃ a : Dev, a = s.dev.accept ep sq h ∧
        d = a.rmaOp { a.entryOp ep sq s.dev.nextId h.bytes with
          kind := .atomic, length := 8, operand := field h.bytes 48 8, compare := field h.bytes 56 8, aop := entSub h.bytes, wide := false,
          fetch := bit (entFlags h.bytes) 0 })) ∧
  -- ATOMIC128 (R296)
  (∀ (s : State) (ep : Fin 16) (sq : Fin 8192) (h : Fetched), s.dev.epUp ep = true → (s.dev.sq ep sq).held = some h →
     s.dev.accepts ep sq 0x21 = true → field h.bytes 24 8 % 16 = 0 → field h.bytes 16 8 % 16 = 0 →
      Answers (.atomic128 ep sq) s (fun d => ∃ a : Dev, a = s.dev.accept ep sq h ∧
        d = a.rmaOp { a.entryOp ep sq s.dev.nextId h.bytes with
          kind := .atomic, length := 16, operand := field h.bytes 48 16, compare := field h.bytes 64 16, aop := entSub h.bytes, wide := true,
          fetch := bit (entFlags h.bytes) 0 })) ∧
  -- SEND (R332)
  (∀ (s : State) (ep : Fin 16) (sq : Fin 8192) (h : Fetched), s.dev.epUp ep = true → (s.dev.sq ep sq).held = some h →
     s.dev.accepts ep sq 0x30 = true →
      Answers (.send ep sq) s (fun d => d = (s.dev.accept ep sq h).messageOp ep sq s.dev.nextId h.bytes false)) ∧
  -- SEND_INLINE (R332)
  (∀ (s : State) (ep : Fin 16) (sq : Fin 8192) (h : Fetched), s.dev.epUp ep = true → (s.dev.sq ep sq).held = some h →
     s.dev.accepts ep sq 0x31 = true →
      Answers (.sendInline ep sq) s (fun d => d = (s.dev.accept ep sq h).messageOp ep sq s.dev.nextId h.bytes true)) ∧
  -- RECV (R344)
  (∀ (s : State) (ep : Fin 16) (sq : Fin 8192) (h : Fetched), s.dev.epUp ep = true → (s.dev.sq ep sq).held = some h →
     s.dev.accepts ep sq 0x32 = true → (s.dev.accept ep sq h).regionRuns (ep / 4) = true →
      Answers (.recv ep sq) s (fun d => d = (s.dev.accept ep sq h).postRecv ep sq s.dev.nextId h.bytes)) ∧
  -- COLL (R371)
  (∀ (s : State) (ep : Fin 16) (sq : Fin 8192) (h : Fetched), s.dev.epUp ep = true → (s.dev.sq ep sq).held = some h →
     s.dev.accepts ep sq 0x40 = true → (s.dev.accept ep sq h).regionRuns (ep / 4) = true →
     ((s.dev.accept ep sq h).fenced && (s.dev.accept ep sq h).collSends (bits (field h.bytes 32 2) 11 0)) = false →
      Answers (.coll ep sq) s (fun d => d = (s.dev.accept ep sq h).postColl ep sq s.dev.nextId h.bytes)) ∧
  -- LOCK (R404)
  (∀ (s : State) (ep : Fin 16) (sq : Fin 8192) (h : Fetched), s.dev.epUp ep = true → (s.dev.sq ep sq).held = some h →
     s.dev.accepts ep sq 0x50 = true → (s.dev.accept ep sq h).regionRuns (field h.bytes 24 2 / 16384) = true →
     (s.dev.accept ep sq h).fenced = false →
      Answers (.lock ep sq) s (fun d => d = (s.dev.accept ep sq h).postLock ep sq s.dev.nextId h.bytes false)) ∧
  -- UNLOCK (R404)
  (∀ (s : State) (ep : Fin 16) (sq : Fin 8192) (h : Fetched), s.dev.epUp ep = true → (s.dev.sq ep sq).held = some h →
     s.dev.accepts ep sq 0x51 = true → (s.dev.accept ep sq h).regionRuns (field h.bytes 24 2 / 16384) = true →
     (s.dev.accept ep sq h).fenced = false →
      Answers (.unlock ep sq) s (fun d => d = (s.dev.accept ep sq h).postLock ep sq s.dev.nextId h.bytes true)) ∧
  -- CMD (R433)
  (∀ (s : State) (ep : Fin 16) (sq : Fin 8192) (h : Fetched), s.dev.epUp ep = true → (s.dev.sq ep sq).held = some h →
     s.dev.accepts ep sq 0x70 = true →
      Answers (.cmd ep sq) s (fun d => ∃ a : Dev, a = s.dev.accept ep sq h ∧
        (∀ st, a.cmdRefused ep h.bytes = some st → d = a.complete ep sq s.dev.nextId (cmdStatus st)) ∧
        (a.cmdRefused ep h.bytes = none → d = (a.modSq ep sq (fun x => { x with
          cmds := x.cmds ++ [{ entry := s.dev.nextId, passed := false, tag := 0, status := none, writing := 0, written := 0,
                               fault := none, released := false }] })).cmdPages ep sq)))

/-- The invalidation commands answer their states (R282, R283).
Each clause names the conditions on the state and the operands, and what the next state is.
The model's choice, not the rules': log entry 29 (what an invalidation waits for). -/
def Obligations.TranslationCommandsComplete : Prop :=
  -- INVAL_RANGE (R282)
  (∀ (s : State) (ep : Fin 16) (op : Reg) (c : Cover), s.dev.barUp ep = true → (s.dev.ep ep).inval = none →
     c = ⟨1, rbits (withOp op 1) 23 4, 4096 * bits (s.dev.ep ep).opAddr.toNat 63 12, rbits (withOp op 1) 63 34, rbits (withOp op 1) 33 24⟩ →
     c.pages ≠ 0 → rbits (withOp op 1) 2 0 = 1 →
      Answers (.invalRange ep op) s (fun d => d = (s.dev.invalidate ep c).1.modEp ep (fun x =>
        { x with inval := some ⟨1, c.pasid, c.va, c.pages, c.key, (s.dev.invalidate ep c).2⟩, trRejected := false }))) ∧
  -- INVAL_PASID (R282)
  (∀ (s : State) (ep : Fin 16) (op : Reg) (c : Cover), s.dev.barUp ep = true → (s.dev.ep ep).inval = none →
     c = ⟨2, rbits (withOp op 2) 23 4, 4096 * bits (s.dev.ep ep).opAddr.toNat 63 12, rbits (withOp op 2) 63 34, rbits (withOp op 2) 33 24⟩ →
     rbits (withOp op 2) 2 0 = 2 →
      Answers (.invalPasid ep op) s (fun d => d = (s.dev.invalidate ep c).1.modEp ep (fun x =>
        { x with inval := some ⟨2, c.pasid, c.va, c.pages, c.key, (s.dev.invalidate ep c).2⟩, trRejected := false }))) ∧
  -- INVAL_KEY (R282)
  (∀ (s : State) (ep : Fin 16) (op : Reg) (c : Cover), s.dev.barUp ep = true → (s.dev.ep ep).inval = none →
     c = ⟨3, rbits (withOp op 3) 23 4, 4096 * bits (s.dev.ep ep).opAddr.toNat 63 12, rbits (withOp op 3) 63 34, rbits (withOp op 3) 33 24⟩ →
     rbits (withOp op 3) 2 0 = 3 →
      Answers (.invalKey ep op) s (fun d => d = (s.dev.invalidate ep c).1.modEp ep (fun x =>
        { x with inval := some ⟨3, c.pasid, c.va, c.pages, c.key, (s.dev.invalidate ep c).2⟩, trRejected := false }))) ∧
  -- INVAL_ALL (R282)
  (∀ (s : State) (ep : Fin 16) (op : Reg) (c : Cover), s.dev.barUp ep = true → (s.dev.ep ep).inval = none →
     c = ⟨4, rbits (withOp op 4) 23 4, 4096 * bits (s.dev.ep ep).opAddr.toNat 63 12, rbits (withOp op 4) 63 34, rbits (withOp op 4) 33 24⟩ →
     rbits (withOp op 4) 2 0 = 4 →
      Answers (.invalAll ep op) s (fun d => d = (s.dev.invalidate ep c).1.modEp ep (fun x =>
        { x with inval := some ⟨4, c.pasid, c.va, c.pages, c.key, (s.dev.invalidate ep c).2⟩, trRejected := false }))) ∧
  -- INVALIDATION_COMPLETE (R283)
  (∀ (s : State) (ep : Fin 16) (i : Inval), s.dev.epUp ep = true → (s.dev.ep ep).inval = some i →
     s.dev.released ep i.waits = true →
      Answers (.invalidationComplete ep) s (fun d =>
        d = (s.dev.modEp ep (fun x => { x with inval := none })).count (Ctr.invalidations ep)))

/-- Reach key commands and HBM aperture accesses answer their states (R277, R287, R290, R291).
Each clause names the conditions on the state and the operands, and what the next state is.
The model's choice, not the rules': log entries 27, 29 and 53 (53: what a read of a stopped stack brings back). -/
def Obligations.KeyAndApertureCommandsComplete : Prop :=
  -- KEY_SET (R287)
  (∀ (s : State) (ep : Fin 16) (k s0 base limit : Nat), s.dev.epUp ep = true → s.dev.belfryRuns (ep / 4) = true →
     (s.dev.ep ep).keyOp = some (1, k, s0, base, limit) → ((s.dev.ep ep).key k).state = .free → base < limit →
      Answers (.keySet ep) s (fun d => d = (s.dev.modEp ep (fun x =>
        { x with keys := tput x.keys k { state := .valid, perm := bits s0 34 32, epi := bits s0 31 20, pasid := bits s0 19 0,
                                         gen := ((s.dev.ep ep).key k).gen, salt := bits s0 48 35, inflight := 0, base := base,
                                         limit := limit, waits := [] },
                 keyOp := none, keyRejected := false,
                 keyResult := BitVec.ofNat 64 (makeKey k ep (bits s0 19 0) ((s.dev.ep ep).key k).gen (bits s0 48 35)) })).count
          (Ctr.keySets ep))) ∧
  -- KEY_REVOKE (R290)
  (∀ (s : State) (ep : Fin 16) (k s0 base limit : Nat), s.dev.epUp ep = true → s.dev.belfryRuns (ep / 4) = true →
     (s.dev.ep ep).keyOp = some (2, k, s0, base, limit) → ((s.dev.ep ep).key k).state = .valid →
      Answers (.keyRevoke ep) s (fun d => d = (((s.dev.invalidate ep ⟨3, 0, 0, 0, k⟩).1.modKey ep k (fun x =>
        { x with state := .revoking, gen := (x.gen + 1) % 65536, waits := (s.dev.invalidate ep ⟨3, 0, 0, 0, k⟩).2 })).modEp ep (fun x =>
          { x with keyOp := none, keyRejected := false })).count (Ctr.keyRevokes ep))) ∧
  -- KEY_REVOKE_COMPLETE (R291)
  (∀ (s : State) (ep : Fin 16) (slot : Fin 1024), s.dev.epUp ep = true → s.dev.belfryRuns (ep / 4) = true →
     ((s.dev.ep ep).key slot).state = .revoking → ((s.dev.ep ep).key slot).inflight = 0 →
     s.dev.released ep ((s.dev.ep ep).key slot).waits = true →
      Answers (.keyRevokeComplete ep slot) s (fun d => d = s.dev.modKey ep slot (fun x => { x with state := .free, waits := [] }))) ∧
  -- HBM_APERTURE_ACCESS (R277)
  (∀ (s : State) (ep : Fin 16) (off : Nat) (acc : Access) (a : Nat), s.dev.epUp ep = true → s.dev.barOpen ep = true →
     s.dev.apertureAt ep off (accessLen acc) = some a → s.dev.hbmRuns (ep / 4) = true →
      Answers (.hbmApertureAccess ep off acc) s (fun d =>
        (∀ n, acc = .read n → d = s.dev.sendData ep (some (s.dev.hbmRead (ep / 4) a 8))) ∧
        (∀ data, acc = .write data → d = s.dev.hbmWrite (ep / 4) a data)))

/-- Remote access packets answer the target state of chapter 10 (R289, R296, R312, R316, R317).
Each clause names the conditions on the state and the operands, and what the next state is.
The model's choice, not the rules': log entry 31 (the order of the target's tests). -/
def Obligations.RemoteAccessAtTheTargetCompletes : Prop :=
  -- PUT_DATA_RECEIVED (R312)
  (∀ (s : State) (r : Fin 4) (pkt : Packet) (b a : Dev) (e k : Nat) (tr : Tracked), s.dev.regionRuns r = true →
     b = s.dev.takeIntake r pkt → opOk pkt 0x00 = true → b.targetUp r pkt.hdr = true → e = b.targetEp r pkt.hdr →
     b.keyCheck e pkt = none → k = keyIndex pkt.hdr.reachKey →
     (b.modKey e k (fun x => { x with inflight := x.inflight + 1 })).track r e pkt = (a, tr) →
      Answers (.putDataReceived r pkt) s (fun d =>
        (tr = .whole → d = a.startWork r e pkt (some k) none none) ∧
        (∀ n, tr = .counted n → d = a.startWork r e pkt (some k) (some n) none) ∧
        (tr = .stale → d = a.keyPlaced e (some k)) ∧
        (tr = .full → d = (a.retryLater e pkt).keyPlaced e (some k)))) ∧
  -- GET_REQ_RECEIVED (R312)
  (∀ (s : State) (r : Fin 4) (pkt : Packet) (b : Dev) (e k : Nat), s.dev.regionRuns r = true → b = s.dev.takeIntake r pkt →
     opOk pkt 0x01 = true → b.targetUp r pkt.hdr = true → e = b.targetEp r pkt.hdr → b.keyCheck e pkt = none →
     k = keyIndex pkt.hdr.reachKey →
      Answers (.getReqReceived r pkt) s (fun d =>
        d = (b.modKey e k (fun x => { x with inflight := x.inflight + 1 })).startWork r e pkt (some k) none none)) ∧
  -- ATOMIC_RECEIVED (R296)
  (∀ (s : State) (r : Fin 4) (pkt : Packet) (b : Dev) (e k : Nat), s.dev.regionRuns r = true → b = s.dev.takeIntake r pkt →
     opOk pkt 0x02 = true → b.targetUp r pkt.hdr = true → e = b.targetEp r pkt.hdr → b.keyCheck e pkt = none →
     k = keyIndex pkt.hdr.reachKey →
      Answers (.atomicReceived r pkt) s (fun d =>
        d = (b.modKey e k (fun x => { x with inflight := x.inflight + 1 })).startWork r e pkt (some k) none none)) ∧
  -- SIGNAL_RECEIVED (R312)
  (∀ (s : State) (r : Fin 4) (pkt : Packet) (b : Dev) (e k : Nat), s.dev.regionRuns r = true → b = s.dev.takeIntake r pkt →
     opOk pkt 0x03 = true → b.targetUp r pkt.hdr = true → e = b.targetEp r pkt.hdr → b.keyCheck e pkt = none →
     k = keyIndex pkt.hdr.reachKey →
      Answers (.signalReceived r pkt) s (fun d =>
        d = (b.modKey e k (fun x => { x with inflight := x.inflight + 1 })).startWork r e pkt (some k) none none)) ∧
  -- PLACEMENT_DONE (R289)
  (∀ (s : State) (r : Fin 4) (work : Nat) (w : Work), s.dev.regionRuns r = true → s.dev.work r work = some w → w.stage = .writing →
     s.dev.epRuns w.ep = true → w.tracker = none →
      Answers (.placementDone r work) s (fun d => d = (((forEach ((pieces 3 w.pkt.hdr.remoteAddr w.pkt.named).zip w.pas) (fun x d =>
        d.hostWrite w.ep x.2.1 ((w.pkt.payload.drop ((x.1.1 + 2 ^ 64 - w.pkt.hdr.remoteAddr) % 2 ^ 64)).take x.1.2) (!x.2.2) .payload)
          s.dev).count (Ctr.rmaPktsPlaced w.ep)).endWork r work w.pkt.payload.length).ackWhole w.ep w.pkt.hdr w.time)) ∧
  -- TARGET_READ_COMPLETE (R312)
  (∀ (s : State) (r : Fin 4) (work : Nat) (data : List Byte) (w : Work) (t : Tag), s.dev.regionRuns r = true →
     s.dev.work r work = some w → w.stage = .reading → (s.dev.ep w.ep).outstanding (.work work) = some t →
     s.dev.expired w.ep t = false →
      Answers (.targetReadComplete r work (.ok data)) s (fun d =>
        d = (s.dev.freeTag w.ep t.tag).hostEnd w.ep t (.ok (t.got ++ sliceBytes data 0 t.byteCount)))) ∧
  -- ATOMIC_HOST_COMPLETE (R296)
  (∀ (s : State) (r : Fin 4) (work : Nat) (data : List Byte) (w : Work) (t : Tag), s.dev.regionRuns r = true →
     s.dev.work r work = some w → w.stage ≠ .reading → (s.dev.ep w.ep).outstanding (.work work) = some t →
     s.dev.expired w.ep t = false →
      Answers (.atomicHostComplete r work (.ok data)) s (fun d =>
        d = (s.dev.freeTag w.ep t.tag).hostEnd w.ep t (.ok (t.got ++ sliceBytes data 0 t.byteCount)))) ∧
  -- ACK_DELAY_EXPIRY (R317)
  (∀ (s : State) (r : Fin 4) (tracker u : Nat) (t : Tracker), s.dev.regionRuns r = true →
     tget (s.dev.region r).trackers tracker = some t → t.unacked = some u →
     u + (s.dev.region r).chip.ackDelay ≤ s.dev.belfryNow r →
      Answers (.ackDelayExpiry r tracker) s (fun d => d = ((s.dev.sendAck t.ep t.hdr t.placed t.echo t.newest).modTracker r tracker
        (fun t => { t with acked := t.placed, unacked := none })).entryAckDelay r tracker)) ∧
  -- ACK_MAP_EXPIRY (R317)
  (∀ (s : State) (r : Fin 4) (conn : Nat) (c : Conn), s.dev.regionRuns r = true → s.dev.conn r conn = some c → c.map ≠ 0 →
     c.mapOpened + (s.dev.region r).chip.ackDelay ≤ s.dev.belfryNow r →
      Answers (.ackMapExpiry r conn) s (fun d => d = s.dev.sendMap r conn)) ∧
  -- TRACKER_EXPIRY (R316)
  (∀ (s : State) (r : Fin 4) (tracker : Nat) (t : Tracker), s.dev.regionRuns r = true →
     tget (s.dev.region r).trackers tracker = some t → t.newest + (s.dev.region r).chip.trackerIdle ≤ s.dev.belfryNow r →
      Answers (.trackerExpiry r tracker) s (fun d =>
        d = (s.dev.count (Ctr.trackerExpiries t.ep)).modRegion r (fun x => { x with trackers := tdrop x.trackers tracker })))

/-- Responses and initiator timers answer the state of chapter 10 (R310, R315, R318, R322, R323).
Each clause names the conditions on the state and the operands, and what the next state is.
The model's choice, not the rules': log entries 9 and 30 (9: a timer that has ended acts before what meets it; 30: samples and windows). -/
def Obligations.RemoteAccessAtTheInitiatorCompletes : Prop :=
  -- PACKET_INJECT (R310)
  (∀ (s : State) (g : Fin 8) (id q ptr : Nat) (a : Dev) (o m : Op) (n : Nat) (cands : List (Nat × Op)), s.dev.gatesRun = true →
     s.dev.regionRuns (g / 2) = true → a = s.dev.startOps (g / 2) →
     cands = (a.region (g / 2)).ops.filter (fun o => o.2.ep / 2 == g.val && a.maySend (g / 2) o.1 o.2) →
     minBy (fun o : Nat × Op => o.2.stamp) cands = some (n, m) →
     arbitrate 8192 (a.gate g).injectPtr ((((cands.filter (fun o => o.2.stamp == m.stamp)).map (fun o => o.2.sq)).eraseDups).map (fun q => ⟨q, 0, 0⟩)) = some (q, ptr) →
     (cands.filter (fun o => o.2.stamp == m.stamp)).find? (fun o => o.2.sq == q) = some (id, o) →
      Answers (.packetInject g) s (fun d =>
        d = (a.modGate g (fun x => { x with injectPtr := ptr })).injectOp (g / 2) id (o.due.getD 0) o)) ∧
  -- ACK_RECEIVED (R318)
  (∀ (s : State) (r : Fin 4) (pkt : Packet) (k id : Nat) (c : Conn) (o : Op) (b a : Dev), s.dev.regionRuns r = true →
     b = s.dev.takeIntake r pkt → opOk pkt 0x08 = true → (b.region r).findConn pkt.hdr.dstFen pkt.hdr.srcFen 0 = some (k, c) →
     a = b.modConn r k (fun c => { c with syncing := false, used := b.belfryNow r }) → a.targetUp r pkt.hdr = true →
     (a.region r).findOp pkt.hdr pkt.hdr.msgSeq = some (id, o) → o.attempt % 4 = pkt.hdr.attempt → o.takesAck = true →
     a.opParked o = false → a.op r id = some o → o.expired (a.belfryNow r) = false →
      Answers (.ackReceived r pkt) s (fun d => ∃ (n : Nat) (e : Dev), n = (if o.single = true then o.cost else pkt.hdr.rBytes - o.acked) ∧
        e = (a.pay r id n).onProgress r o.conn pkt.hdr.rEcho (a.belfryNow r - o.newest - pkt.hdr.rHold) ∧
        d = if o.single = true then e.endOp r id none 0
          else if n = 0 then e.checkOp r id
          else (e.modOp r id (fun o => { o with acked := o.acked + n, timer := some (a.belfryNow r) })).checkOp r id)) ∧
  -- ACK_MAP_RECEIVED (R318)
  (∀ (s : State) (r : Fin 4) (pkt : Packet) (k id : Nat) (c : Conn) (o : Op) (b a : Dev), s.dev.regionRuns r = true →
     b = s.dev.takeIntake r pkt → opOk pkt 0x09 = true → (b.region r).findConn pkt.hdr.dstFen pkt.hdr.srcFen 0 = some (k, c) →
     a = b.modConn r k (fun c => { c with syncing := false, used := b.belfryNow r }) → a.targetUp r pkt.hdr = true →
     setBits pkt.hdr.rMap 64 = [0] → (a.region r).findOp pkt.hdr (pkt.hdr.msgSeq % 2 ^ 24) = some (id, o) → o.takesAck = true →
     o.kind ≠ .signal → a.opParked o = false → o.msgSeq = pkt.hdr.msgSeq % 2 ^ 24 → a.op r id = some o →
     o.expired (a.belfryNow r) = false →
      Answers (.ackMapReceived r pkt) s (fun d => d = (((a.pay r id o.cost).modOp r id (fun o => { o with acked := o.length })).onProgress
        r o.conn pkt.hdr.rEcho (a.belfryNow r - o.newest - pkt.hdr.rHold)).endOp r id none 0)) ∧
  -- GET_DATA_RECEIVED (R318)
  (∀ (s : State) (r : Fin 4) (pkt : Packet) (k id : Nat) (c : Conn) (o : Op) (b a : Dev), s.dev.regionRuns r = true →
     b = s.dev.takeIntake r pkt → opOk pkt 0x0A = true → (b.region r).findConn pkt.hdr.dstFen pkt.hdr.srcFen 0 = some (k, c) →
     a = b.modConn r k (fun c => { c with syncing := false, used := b.belfryNow r }) → a.targetUp r pkt.hdr = true →
     (a.region r).findOp pkt.hdr pkt.hdr.msgSeq = some (id, o) → o.attempt % 4 = pkt.hdr.attempt → o.kind = .get →
     a.opParked o = false → pkt.payload ≠ [] → (o.landingOf pkt.hdr.msgOff pkt.payload.length).any (fun x => x.2.isNone) = false →
     a.op r id = some o → o.expired (a.belfryNow r) = false →
      Answers (.getDataReceived r pkt) s (fun d =>
        d = (((((a.landData r id pkt.hdr.msgOff o pkt.payload.length pkt.payload true .payload).pay r id pkt.payload.length).onProgress
          r o.conn (pkt.hdr.cmark || pkt.hdr.rEcho) (a.belfryNow r - o.sentAt pkt.hdr.msgOff))).modOp r id (fun o =>
            { o with acked := o.acked + pkt.payload.length, timer := some (a.belfryNow r) })).checkOp r id)) ∧
  -- ATOMIC_RESP_RECEIVED (R318)
  (∀ (s : State) (r : Fin 4) (pkt : Packet) (k id : Nat) (c : Conn) (o : Op) (b a : Dev), s.dev.regionRuns r = true →
     b = s.dev.takeIntake r pkt → opOk pkt 0x0B = true → (b.region r).findConn pkt.hdr.dstFen pkt.hdr.srcFen 0 = some (k, c) →
     a = b.modConn r k (fun c => { c with syncing := false, used := b.belfryNow r }) → a.targetUp r pkt.hdr = true →
     (a.region r).findOp pkt.hdr pkt.hdr.msgSeq = some (id, o) → o.attempt % 4 = pkt.hdr.attempt → o.kind = .atomic →
     a.opParked o = false → a.op r id = some o → o.expired (a.belfryNow r) = false →
      Answers (.atomicRespReceived r pkt) s (fun d => ∃ e : Dev,
        e = (if o.fetch = true then a.landData r id 0 o o.length (leBytes o.length (bits pkt.hdr.ext 191 128 +
          2 ^ 64 * (bits pkt.hdr.ext 95 64 + 2 ^ 32 * bits pkt.hdr.ext 127 96))) false .result else a) ∧
        d = ((e.pay r id o.cost).onProgress r o.conn (pkt.hdr.cmark || pkt.hdr.rEcho) (a.belfryNow r - o.newest)).endOp r id none
          (bits pkt.hdr.ext 191 128))) ∧
  -- REFUSE_RECEIVED (R318)
  (∀ (s : State) (r : Fin 4) (pkt : Packet) (k id : Nat) (c : Conn) (o : Op) (b a : Dev), s.dev.regionRuns r = true →
     b = s.dev.takeIntake r pkt → opOk pkt 0x0C = true → (b.region r).findConn pkt.hdr.dstFen pkt.hdr.srcFen 0 = some (k, c) →
     a = b.modConn r k (fun c => { c with syncing := false, used := b.belfryNow r }) → a.targetUp r pkt.hdr = true →
     (a.region r).findOp pkt.hdr pkt.hdr.msgSeq = some (id, o) → o.attempt % 4 = pkt.hdr.attempt → o.lent = none →
     a.opParked o = false → a.op r id = some o → o.expired (a.belfryNow r) = false →
      Answers (.refuseReceived r pkt) s (fun d => ∃ e f : Dev,
        e = ((a.pay r id pkt.hdr.rBytes).modOp r id (fun o => { o with
          lastRetryLater := true
          resend := o.resend ++ [(pkt.hdr.msgOff, a.belfryNow r + ((a.pay r id pkt.hdr.rBytes).region r).chip.retryLaterDelay)] })).count
            (Ctr.refusalsRetryLater o.ep) ∧
        f = ((a.pay r id pkt.hdr.rBytes).modOp r id (fun o =>
          { o with lastRetryLater := false, refused := o.refused + pkt.hdr.rBytes, timer := some (a.belfryNow r),
                   refusals := o.refusals ++ [⟨pkt.hdr.msgOff, pkt.hdr.rStatus, pkt.hdr.rDetail⟩] })).count (Ctr.refusalsReceived o.ep) ∧
        d = if pkt.hdr.rStatus = 0x80 then e.checkOp r id else if o.single = true then f.endOp r id none 0 else f.checkOp r id)) ∧
  -- RETRY_LATER_RESEND (R315)
  (∀ (s : State) (r : Fin 4) (op off : Nat) (o : Op) (x : Nat × Nat) (rest : List (Nat × Nat)), s.dev.regionRuns r = true →
     s.dev.op r op = some o →
     takeFirst (fun x : Nat × Nat => x.1 == off && decide (x.2 ≤ s.dev.belfryNow r)) o.resend = some (x, rest) →
     s.dev.opParked o = false → o.localFault = none →
      Answers (.retryLaterResend r op off) s (fun d =>
        d = s.dev.modOp r op (fun o => { o with resend := rest, again := o.again ++ [off] }))) ∧
  -- MSG_TIMEOUT (R322)
  (∀ (s : State) (r : Fin 4) (op : Nat) (o : Op), s.dev.regionRuns r = true → s.dev.op r op = some o →
     o.expired (s.dev.belfryNow r) = true → o.lent = none → o.kind ≠ .atomic → o.kind ≠ .signal → s.dev.opParked o = false →
      Answers (.msgTimeout r op) s (fun d =>
        (o.localFault.isSome = true ∨ o.refusals ≠ [] → d = s.dev.endOp r op none 0) ∧
        (o.localFault = none → o.refusals = [] → o.lost = false → o.attempt < (s.dev.region r).chip.maxRetries →
          d = ((s.dev.pay r op o.cost).count (Ctr.retries o.ep)).modOp r op (fun o =>
            { o with attempt := o.attempt + 1, acked := 0, refused := 0, next := 0, again := [], resend := [], timer := none,
                     sent := [], landing := [], built := none })) ∧
        (o.localFault = none → o.refusals = [] → (o.lost = true ∨ (s.dev.region r).chip.maxRetries ≤ o.attempt) →
          d = (s.dev.count (Ctr.timeouts o.ep)).endOp r op (some (if o.lastRetryLater then (0x0E, 0x0203) else (0x07, 0))) 0))) ∧
  -- ATOMIC_TIMEOUT (R323)
  (∀ (s : State) (r : Fin 4) (op : Nat) (o : Op), s.dev.regionRuns r = true → s.dev.op r op = some o →
     o.expired (s.dev.belfryNow r) = true → (o.kind = .atomic ∨ o.kind = .signal) → s.dev.opParked o = false →
      Answers (.atomicTimeout r op) s (fun d => d = s.dev.endOp r op (some (0x08, 0)) 0))

/-- Message packets and matching timers answer the state of chapter 11 (R300, R334, R338, R340, R349, R352, R354).
Each clause names the conditions on the state and the operands, and what the next state is.
The model's choice, not the rules': log entries 32, 40 and 51 (32: gap timers and held numbers; 40: the engine that runs a copy; 51: when a payload is written). -/
def Obligations.MessagesArriveAndComplete : Prop :=
  -- SEND_DATA_RECEIVED (R338)
  (∀ (s : State) (r : Fin 4) (pkt : Packet) (b a f : Dev) (e cid : Nat), s.dev.regionRuns r = true → b = s.dev.takeIntake r pkt →
     opOk pkt 0x10 = true → b.targetUp r pkt.hdr = true → e = b.targetEp r pkt.hdr →
     (b.messageTimers r e pkt.hdr).takeConn e pkt.hdr.dstFen pkt.hdr.srcFen 0 = (a, some cid) →
     f = (a.rebase r cid e pkt.hdr).touchRx r cid (sendSeqOf pkt.hdr) →
      Answers (.sendDataReceived r pkt) s (fun d =>
        (∀ id, f.findMsg e pkt.hdr.dstFen pkt.hdr.srcFen (sendSeqOf pkt.hdr) = some id → d = f.toEntry e id pkt) ∧
        (∀ (c : Conn) (k : Nat), f.findMsg e pkt.hdr.dstFen pkt.hdr.srcFen (sendSeqOf pkt.hdr) = none → f.conn r cid = some c →
          k = sendDist c.rxExpect (sendSeqOf pkt.hdr) →
          d = if k = 0 then f.turnNew r cid e pkt else if k < 256 then f.holdNew r cid e pkt
            else if k < 32768 then (f.retryLater e pkt).count (Ctr.windowRefusals e) else f.oldMessage r e pkt))) ∧
  -- RTS_RECEIVED (R354)
  (∀ (s : State) (r : Fin 4) (pkt : Packet) (b a f : Dev) (e cid : Nat), s.dev.regionRuns r = true → b = s.dev.takeIntake r pkt →
     opOk pkt 0x11 = true → b.targetUp r pkt.hdr = true → e = b.targetEp r pkt.hdr →
     (b.messageTimers r e pkt.hdr).takeConn e pkt.hdr.dstFen pkt.hdr.srcFen 0 = (a, some cid) →
     f = (a.rebase r cid e pkt.hdr).touchRx r cid (sendSeqOf pkt.hdr) →
      Answers (.rtsReceived r pkt) s (fun d =>
        (∀ id, f.findMsg e pkt.hdr.dstFen pkt.hdr.srcFen (sendSeqOf pkt.hdr) = some id → d = f.toEntry e id pkt) ∧
        (∀ (c : Conn) (k : Nat), f.findMsg e pkt.hdr.dstFen pkt.hdr.srcFen (sendSeqOf pkt.hdr) = none → f.conn r cid = some c →
          k = sendDist c.rxExpect (sendSeqOf pkt.hdr) →
          d = if k = 0 then f.turnNew r cid e pkt else if k < 256 then f.holdNew r cid e pkt
            else if k < 32768 then (f.retryLater e pkt).count (Ctr.windowRefusals e) else f.oldMessage r e pkt))) ∧
  -- GAP_TIMER_EXPIRY (R340)
  (∀ (s : State) (r : Fin 4) (conn l : Nat) (c : Conn), s.dev.regionRuns r = true → s.dev.conn r conn = some c → c.rxHeld ≠ 0 →
     (s.dev.region r).chip.msgHold ≤ age24 (s.dev.belfryNow r) c.rxGap → s.dev.lowestHeld c = some l →
      Answers (.gapTimerExpiry r conn) s (fun d => d = Dev.releaseHeld 256 ((s.dev.countBy (Ctr.seqSkips c.ep)
        (sendDist c.rxExpect l)).modConn r conn (fun c => { c with rxExpect := l, rxGap := us24 (s.dev.belfryNow r) })) r conn)) ∧
  -- UX_COPY (R349)
  (∀ (s : State) (r : Fin 4) (entry : Nat), s.dev.regionRuns r = true →
      Answers (.uxCopy r entry) s (fun d => d = forEach (epsOf r) (fun e d => d.copyOut e entry) s.dev)) ∧
  -- UX_COPY (R349)
  (∀ (s : State) (r : Fin 4) (entry e : Nat) (m : Match), s.dev.regionRuns r = true → e ∈ epsOf r →
     (∀ f ∈ epsOf r, f < e → tget (s.dev.ep f).store entry = none) → tget (s.dev.ep e).store entry = some m → m.kind = .matched →
     m.rndv = false → m.blocks ≠ [] → m.copying = false → m.msgLen ≤ m.done → m.toStore = [] → s.dev.recvParked e m = false →
     s.dev.stepRuns r entry = true →
      Answers (.uxCopy r entry) s (fun d => ∃ a : Dev,
        a = (((s.dev.modMatch e entry (fun m => { m with copying := true })).stepEnd r entry).placeAll e (s.dev.sq e m.sq).pasid
          (!(s.dev.sq e m.sq).super) m.buf (Memory.readN hbmDefault m.store 0 (min m.msgLen m.capacity)) 0 .payload (.entry entry)
          none).entryProgress e entry ∧
        d = forEach ((epsOf r).filter (fun f => decide (e < f))) (fun f d => d.copyOut f entry) a)) ∧
  -- MATCH_ENTRY_EXPIRY (R352)
  (∀ (s : State) (r : Fin 4) (entry : Nat), s.dev.regionRuns r = true →
      Answers (.matchEntryExpiry r entry) s (fun d =>
        d = (forEach (epsOf r) (fun e d => d.entryExpiry r e entry) s.dev).startOps r)) ∧
  -- MATCH_ENTRY_EXPIRY (R352)
  (∀ (s : State) (r : Fin 4) (entry e : Nat) (m : Match), s.dev.regionRuns r = true → e ∈ epsOf r →
     (∀ f ∈ epsOf r, f < e → tget (s.dev.ep f).store entry = none) → tget (s.dev.ep e).store entry = some m → m.kind ≠ .posted →
     m.done < m.msgLen → (m.rndv = true → m.pulling = true) → m.newest + (s.dev.region r).chip.msgHold ≤ s.dev.belfryNow r →
     (m.kind = .matched → s.dev.recvParked e m = false) →
      Answers (.matchEntryExpiry r entry) s (fun d => ∃ a b : Dev, a = s.dev.count (Ctr.entryExpiries e) ∧
        (m.kind = .matched → b = (a.dropPull r e entry).endReceive e entry 0x07 0x0303 m.written) ∧
        (m.kind ≠ .matched → m.kind ≠ .held → b = a.freeMatch e entry) ∧
        (∀ k c, m.kind = .held → ((a.freeMatch e entry).region r).findConn m.localFen m.hdr.srcFen 0 = some (k, c) →
          b = (a.freeMatch e entry).modConn r k (fun c => { c with rxExpired := c.rxExpired ++ [m.sendSeq] })) ∧
        d = (forEach ((epsOf r).filter (fun f => decide (e < f))) (fun f d => d.entryExpiry r f entry) b).startOps r)) ∧
  -- AGE_SWEEP (R334)
  (∀ (s : State) (r : Fin 4), s.dev.regionRuns r = true →
      Answers (.ageSweep r) s (fun d => d = s.dev.modRegion r (fun x =>
        { x with conns := x.conns.map (fun c => (c.1, { c.2 with
            txLast := clampAge (s.dev.belfryNow r) c.2.txLast, rxLast := clampAge (s.dev.belfryNow r) c.2.rxLast,
            rxGap := clampAge (s.dev.belfryNow r) c.2.rxGap })) }))) ∧
  -- CONN_IDLE_EXPIRY (R300)
  (∀ (s : State) (r : Fin 4) (conn : Nat) (c : Conn), s.dev.regionRuns r = true → s.dev.conn r conn = some c →
     s.dev.evictable r c = true →
      Answers (.connIdleExpiry r conn) s (fun d => d = s.dev.startOps r))

/-- Rendezvous packets and timers answer the state of chapter 11 (R354, R355, R356, R357).
Each clause names the conditions on the state and the operands, and what the next state is.
The model's choice, not the rules': log entries 33 and 40 (33: order of the pull queue; 40: the engine that starts a pull). -/
def Obligations.RendezvousCommandsComplete : Prop :=
  -- RTS_ACK_RECEIVED (R354)
  (∀ (s : State) (r : Fin 4) (pkt : Packet) (k id : Nat) (c : Conn) (o : Op) (b a : Dev), s.dev.regionRuns r = true →
     b = s.dev.takeIntake r pkt → opOk pkt 0x18 = true → (b.region r).findConn pkt.hdr.dstFen pkt.hdr.srcFen 0 = some (k, c) →
     a = b.modConn r k (fun c => { c with syncing := false, used := b.belfryNow r }) → a.targetUp r pkt.hdr = true →
     (a.region r).findOp pkt.hdr pkt.hdr.msgSeq = some (id, o) → o.attempt % 4 = pkt.hdr.attempt → o.kind = .rts → o.lent = none →
     a.opParked o = false → a.op r id = some o → o.expired (a.belfryNow r) = false →
      Answers (.rtsAckReceived r pkt) s (fun d => d = ((a.pay r id o.cost).modOp r id (fun o =>
        { o with lent := some (a.belfryNow r), timer := none })).startOps r)) ∧
  -- RNDV_GET_RECEIVED (R356)
  (∀ (s : State) (r : Fin 4) (pkt : Packet) (b a : Dev) (id : Nat) (o : Op), s.dev.regionRuns r = true →
     b = s.dev.takeIntake r pkt → opOk pkt 0x12 = true → b.targetUp r pkt.hdr = true → b.lentSend r pkt.hdr = (a, some (id, o)) →
      Answers (.rndvGetReceived r pkt) s (fun d => ∃ e : Nat, e = b.targetEp r pkt.hdr ∧
        d = if o.length < pkt.hdr.msgOff + pkt.hdr.getBytes
          then (a.count (Ctr.handleRefusals e)).refuse e pkt 0x03 0x0305
          else (a.modOp r id (fun o => { o with lastGet := some (a.belfryNow r) })).startWork r e pkt none none (some id))) ∧
  -- RNDV_DATA_RECEIVED (R355)
  (∀ (s : State) (r : Fin 4) (pkt : Packet) (b : Dev) (id : Nat) (o : Op), s.dev.regionRuns r = true → b = s.dev.takeIntake r pkt →
     (b.region r).findOp pkt.hdr pkt.hdr.msgSeq = some (id, o) → o.kind = .pull →
      Answers (.rndvDataReceived r pkt) s (fun d => d = ((b.entryExpiry r o.ep o.matchId).modMatch o.ep o.matchId (fun m =>
        { m with newest := b.belfryNow r })).dataReceived r pkt 0x19 .pull)) ∧
  -- RNDV_FIN_RECEIVED (R357)
  (∀ (s : State) (r : Fin 4) (pkt : Packet) (b a f : Dev) (id : Nat) (o : Op), s.dev.regionRuns r = true →
     b = s.dev.takeIntake r pkt → opOk pkt 0x13 = true → b.targetUp r pkt.hdr = true →
     a = b.sendAck (b.targetEp r pkt.hdr) pkt.hdr 0 pkt.hdr.cmark (b.belfryNow r) → a.lentSend r pkt.hdr = (f, some (id, o)) →
     f.opParked o = false →
      Answers (.rndvFinReceived r pkt) s (fun d =>
        d = f.endLent r id (o.servedFault.getD (0, 0)).1 (o.servedFault.getD (0, 0)).2)) ∧
  -- RNDV_PULL_START (R355)
  (∀ (s : State) (r : Fin 4) (e id : Nat) (rest : List (Nat × Nat)) (m : Match), s.dev.regionRuns r = true →
     (s.dev.region r).activePulls < (s.dev.region r).chip.rndvMaxActive → (s.dev.region r).pullQueue = (e, id) :: rest →
     s.dev.stepRuns r id = true →
     tget (((s.dev.modRegion r (fun x => { x with pullQueue := rest })).stepEnd r id).ep e).store id = some m →
      Answers (.rndvPullStart r) s (fun d => ∃ a b : Dev, a = (s.dev.modRegion r (fun x => { x with pullQueue := rest })).stepEnd r id ∧
        b = (a.modMatch e id (fun m => { m with pulling := true, newest := a.belfryNow r })).count (Ctr.rndvPulls e) ∧
          d = b.addOp { pullOp e id m (b.sq e m.sq) with engine := s.dev.itemBlock r id })) ∧
  -- LENT_IDLE_EXPIRY (R357)
  (∀ (s : State) (r : Fin 4) (op t : Nat) (l : Nat) (o : Op), s.dev.regionRuns r = true → s.dev.op r op = some o →
     o.lent = some l → o.lastGet = some t → t + (s.dev.region r).chip.msgHold ≤ s.dev.belfryNow r → s.dev.opParked o = false →
      Answers (.lentIdleExpiry r op) s (fun d => d = if o.length ≤ reachOf o.served o.served.length 0
        then (s.dev.count (Ctr.lendExpiries o.ep)).endLent r op 0 0 else (s.dev.count (Ctr.lendExpiries o.ep)).endLent r op 0x07 0x0304)) ∧
  -- LEND_TIMEOUT (R357)
  (∀ (s : State) (r : Fin 4) (op t : Nat) (o : Op), s.dev.regionRuns r = true → s.dev.op r op = some o → o.lent = some t →
     o.lastGet = none → (s.dev.region r).chip.lendTimeout ≠ 0 → t + (s.dev.region r).chip.lendTimeout ≤ s.dev.belfryNow r →
     s.dev.opParked o = false →
      Answers (.lendTimeout r op) s (fun d => d = (s.dev.count (Ctr.lendExpiries o.ep)).endLent r op 0x07 0x0304))

/-- Collective packets and windows answer the state of chapter 12 (R380, R381, R392, R393).
Each clause names the conditions on the state and the operands, and what the next state is.
The model's choice, not the rules': log entries 34 and 35 (empty segments, duplicates and the compact form). -/
def Obligations.CollectivePacketsComplete : Prop :=
  -- COLL_UP_RECEIVED (R380)
  (∀ (s : State) (r : Fin 4) (pkt : Packet) (t : Tree) (i : Instance) (b a : Dev) (j first : Nat), s.dev.regionRuns r = true →
     b = s.dev.takeIntake r pkt → b.tree r pkt.hdr.treeId = some t → (pkt.hdr.opcode = 1 ∧ pkt.hdr.cls = 2) →
     argSlot pkt.hdr < t.numChildren → childLocal (t.child (argSlot pkt.hdr)) = false →
     childFen (t.child (argSlot pkt.hdr)) = pkt.hdr.srcFen → t.accepts pkt.hdr.inst = true →
     a = b.openInst r pkt.hdr.treeId pkt.hdr.inst (argOp pkt.hdr) pkt.hdr.dtype pkt.hdr.redop pkt.hdr.exact_ (argTotal pkt.hdr) →
     (a.tree r pkt.hdr.treeId).bind (fun t => t.inst pkt.hdr.inst) = some i →
     i.differs (argOp pkt.hdr) pkt.hdr.dtype pkt.hdr.redop pkt.hdr.exact_ (argTotal pkt.hdr) = false →
     t.upLate i (a.belfryNow r) = false → bit i.absent (argSlot pkt.hdr) = false →
     j = (if i.carries then pkt.hdr.elemOffset / i.size else 0) → first = (if i.carries then pkt.hdr.elemOffset % i.size else 0) →
     (i.segsUp ≤ j ∧ j < i.upSegs) → first + pkt.hdr.elemCount ≤ i.upElems j →
     (i.seg j).has (argSlot pkt.hdr) first pkt.hdr.elemCount = false →
      Answers (.collUpReceived r pkt) s (fun d => d = (a.modInst r pkt.hdr.treeId pkt.hdr.inst (fun i =>
        i.contribute (argSlot pkt.hdr) j first (upVals i pkt) (argContrib pkt.hdr) (argPartial pkt.hdr))).coopRun r pkt.hdr.treeId)) ∧
  -- COLL_DOWN_RECEIVED (R381)
  (∀ (s : State) (r : Fin 4) (pkt : Packet) (t : Tree) (i : Instance) (b : Dev) (j : Nat), s.dev.regionRuns r = true →
     b = s.dev.takeIntake r pkt → b.tree r pkt.hdr.treeId = some t → (pkt.hdr.opcode = 2 ∧ pkt.hdr.cls = 3) → t.root = false →
     t.parentFen = pkt.hdr.srcFen → t.accepts pkt.hdr.inst = true → t.inst pkt.hdr.inst = some i →
     t.downLate i (b.belfryNow r) = false → j = (if i.collOp = 0 then 0 else pkt.hdr.elemOffset / i.size) → j < i.downSegs →
     j ∉ i.downGot →
      Answers (.collDownReceived r pkt) s (fun d => d = (b.sendDown r pkt.hdr.treeId t i j (argPartial pkt.hdr) (argContrib pkt.hdr)
        (sliceBytes pkt.payload 0 (i.elemsOf j * dtypeBytes i.dtype))).coopRun r pkt.hdr.treeId)) ∧
  -- COLL_CREDIT_RECEIVED (R381)
  (∀ (s : State) (r : Fin 4) (pkt : Packet) (t : Tree) (i : Instance) (b : Dev) (j : Nat), s.dev.regionRuns r = true →
     b = s.dev.takeIntake r pkt → b.tree r pkt.hdr.treeId = some t → (pkt.hdr.opcode = 3 ∧ pkt.hdr.cls = 3) → t.root = false →
     t.parentFen = pkt.hdr.srcFen → t.accepts pkt.hdr.inst = true → t.inst pkt.hdr.inst = some i →
     t.downLate i (b.belfryNow r) = false → j = (if i.collOp = 0 then 0 else pkt.hdr.elemOffset / i.size) → j < i.downSegs →
     j ∉ i.downGot →
      Answers (.collCreditReceived r pkt) s (fun d => d = (b.sendDown r pkt.hdr.treeId t i j (argPartial pkt.hdr) (argContrib pkt.hdr)
        (sliceBytes pkt.payload 0 (i.elemsOf j * dtypeBytes i.dtype))).coopRun r pkt.hdr.treeId)) ∧
  -- CONTRIB_READ_COMPLETE (R380)
  (∀ (s : State) (r : Fin 4) (tree child seg : Nat) (data : List Byte) (t : Tree) (p : Posting) (x : Tag),
     s.dev.regionRuns r = true → s.dev.tree r tree = some t → t.reader child seg = some p →
     (s.dev.ep p.ep).outstanding (.contrib r tree child seg) = some x → s.dev.expired p.ep x = false →
      Answers (.contribReadComplete r tree child seg (.ok data)) s (fun d =>
        d = (s.dev.freeTag p.ep x.tag).hostEnd p.ep x (.ok (x.got ++ sliceBytes data 0 x.byteCount)))) ∧
  -- UP_WINDOW_EXPIRY (R392)
  (∀ (s : State) (r : Fin 4) (tree : Nat) (t : Tree), s.dev.regionRuns r = true → s.dev.tree r tree = some t →
      Answers (.upWindowExpiry r tree) s (fun d => d = (forEach t.insts (fun i d =>
        if i.phase == 1 && !i.upEnded && t.upLate i (s.dev.belfryNow r) then
          (d.countBy (Ctr.absentMarks r) ((List.range t.numChildren).filter (fun c => !bit i.upDone c && !bit i.absent c)).length).modInst
            r tree i.number (fun k => { k with upEnded := true, absent :=
              ((List.range t.numChildren).filter (fun c => !bit i.upDone c && !bit i.absent c)).foldl (fun a c => putBit a c true) k.absent })
        else d) s.dev).coopRun r tree)) ∧
  -- DOWN_WINDOW_EXPIRY (R393)
  (∀ (s : State) (r : Fin 4) (tree : Nat) (t : Tree), s.dev.regionRuns r = true → s.dev.tree r tree = some t →
      Answers (.downWindowExpiry r tree) s (fun d => d = (forEach t.insts (fun i d =>
        if i.phase == 2 && !i.downEnded && t.downLate i (s.dev.belfryNow r) && decide (i.segsDown < i.downSegs) then
          ((d.count (Ctr.downTimeouts r)).raise (Isl.belfry r) (Src.region r 23) 0 tree).modInst r tree i.number
            (fun i => { i with downEnded := true, isPartial := true })
        else d) s.dev).coopRun r tree))

/-- The TREE commands answer their states and replies (R369, R396, R397, R398, R399).
Each clause names the conditions on the state and the operands, and what the next state is.
The model's choice, not the rules': log entries 22, 34 and 36 (22: checks common to a form; 34: what TREE_ABORT counts; 36: SCRATCH is a free value, and the space of contexts). -/
def Obligations.TreeCommandsComplete : Prop :=
  -- TREE_SET (R396)
  (∀ (s : State) (path : Path) (tag : Nat) (q : Request) (ptr r id w : Nat) (a : Dev) (kids : List Nat) (t : Tree),
     Starts s treeSetForm path tag q ptr → a = s.dev.started q ptr → r = treeRegionOf q.params → w = field q.params 8 32 →
     id = bits w 11 0 → kids = (List.range (setChildren q.params)).map (fun c => field q.params (40 + 4 * c) 4) →
     treeSetOk w kids = true → a.treeRegion id = none →
     ((a.region r).treesOf (id % 2) < 512 ∧ (a.region r).scratchUsed + Tree.scratchNeed (bits w 59 56) ≤ (a.region r).scratchTotal) →
     t = { static := leBytes 32 (w &&& staticMask), state := 1, cur := bits w 143 128, scratch := (Config.unstated a.free).toNat % 2 ^ 32, children := kids, insts := [], postings := [], abortNew := 0 } →
      Answers (.treeSet path tag) s (fun d =>
        d = (a.draw.modRegion r (fun x => { x with trees := tput x.trees id t })).finish path tag Ocm.ok (leBytes 8 t.scratch))) ∧
  -- TREE_CLEAR (R397)
  (∀ (s : State) (path : Path) (tag : Nat) (q : Request) (ptr r : Nat) (t : Tree),
     Starts s (Form.fixed 0x0C02 8 [(16, 63)] 0) path tag q ptr →
     (s.dev.started q ptr).heldTree (treeIdOf q.params) = some (r, t) → t.state = 1 →
      Answers (.treeClear path tag) s (fun d => d = ((s.dev.started q ptr).modRegion r (fun x =>
        { x with trees := tdrop x.trees (treeIdOf q.params) })).finish path tag Ocm.ok [])) ∧
  -- TREE_ABORT (R398)
  (∀ (s : State) (path : Path) (tag : Nat) (q : Request) (ptr r : Nat) (t : Tree),
     Starts s (Form.fixed 0x0C03 8 [(32, 63)] 0) path tag q ptr →
     (s.dev.started q ptr).heldTree (treeIdOf q.params) = some (r, t) →
      Answers (.treeAbort path tag) s (fun d => d = (((((s.dev.started q ptr).dropContribs r (treeIdOf q.params) t).countAborted r t).modTree r
        (treeIdOf q.params) (fun t => { t with state := 3, insts := [], cur := field q.params 2 2, abortNew := field q.params 2 2 })).modExec
          path tag (fun x => { x with a := r, b := treeIdOf q.params, data := [] })).answerBad 256)) ∧
  -- TREE_ABORT_DONE (R369)
  (∀ (s : State) (r : Fin 4) (tree : Nat) (t : Tree) (a : Dev), s.dev.regionRuns r = true → s.dev.tree r tree = some t →
     t.state = 3 → (t.postings.filter (fun p => p.admitted)).any (fun p => p.writing != 0) = false →
     a = forEach (t.postings.filter (fun p => p.admitted)) (fun p d => d.complete p.ep p.sq p.entry ⟨0x0B, p.written, 0, 0, 0⟩) (s.dev.modTree r tree (fun t => { t with state := 1, postings := t.postings.filter (fun p => !p.admitted) })) →
      Answers (.treeAbortDone r tree) s (fun d => d = ((a.unpark r tree).coopRun r tree).finishAll 0x0C03 r tree Ocm.ok [])) ∧
  -- TREE_READ (R399)
  (∀ (s : State) (path : Path) (tag : Nat) (q : Request) (ptr r : Nat) (t : Tree),
     Starts s (Form.fixed 0x0C04 8 [(16, 63)] 512) path tag q ptr →
     (s.dev.started q ptr).heldTree (treeIdOf q.params) = some (r, t) →
      Answers (.treeRead path tag) s (fun d => d = (s.dev.started q ptr).finish path tag Ocm.ok t.image))

/-- Lock packets at the cell and the LOCK commands answer the state of chapter 13 (R407, R413, R418, R420, R422).
Each clause names the conditions on the state and the operands, and what the next state is.
The model's choice, not the rules': log entries 8, 22, 24 and 25 (8: HEAD of a cell without waiters is a free value; 24: TRY in bit 24 of LOCK_ARG, places of INHERIT, the lowest free waiter entry, repeats of UNLOCK; 25: places shared with PENDING entries). -/
def Obligations.LockCellAndLockCommandsComplete : Prop :=
  -- LOCK_AT_CELL (R407)
  (∀ (s : State) (r : Fin 4) (pkt : Packet) (b : Dev) (c : LockCell), s.dev.regionRuns r = true → b = s.dev.takeIntake r pkt →
     lockOk r pkt 1 = true → c = b.lockCell pkt.hdr.lockId → c.state ≠ 1 →
      Answers (.lockAtCell r pkt) s (fun d => d = b.grantLock r pkt.hdr.lockId
        ⟨pkt.hdr.srcFen, pkt.hdr.srcEpi, pkt.hdr.lockPrio, argPend pkt.hdr, pkt.hdr.grantAddr, (b.region r).freeWaiter⟩
        (c.state == 2) (c.state == 3))) ∧
  -- UNLOCK_AT_CELL (R407)
  (∀ (s : State) (r : Fin 4) (pkt : Packet) (b : Dev), s.dev.regionRuns r = true → b = s.dev.takeIntake r pkt →
     lockOk r pkt 2 = true → (b.lockCell pkt.hdr.lockId).heldBy pkt.hdr = true →
      Answers (.unlockAtCell r pkt) s (fun d => d = (((b.modLockCell pkt.hdr.lockId (fun c =>
        { c with lastFen := pkt.hdr.srcFen, lastEpi := pkt.hdr.srcEpi, lastPend := argPend pkt.hdr })).lockAnswer r 0x84 pkt.hdr).releaseLock
          r pkt.hdr.lockId).pendServe r)) ∧
  -- CANCEL (R413)
  (∀ (s : State) (r : Fin 4) (pkt : Packet) (b : Dev), s.dev.regionRuns r = true → b = s.dev.takeIntake r pkt →
     lockOk r pkt 3 = true → (b.lockCell pkt.hdr.lockId).waiters.any (fun v => v.is pkt.hdr) = true →
      Answers (.cancel r pkt) s (fun d => d = (((b.lockAnswer r 0x84 pkt.hdr).modLockCell pkt.hdr.lockId (fun c =>
        { c with waiters := c.waiters.filter (fun v => !v.is pkt.hdr) })).lowerEff r pkt.hdr.lockId).pendServe r)) ∧
  -- LOCK_FORCE_RELEASE (R418)
  (∀ (s : State) (path : Path) (tag : Nat) (q : Request) (ptr id : Nat) (a : Dev), Starts s forceForm path tag q ptr →
     id = field q.params 0 2 → ((s.dev.started q ptr).lockCell id).state = 1 →
     ((s.dev.started q ptr).lockCell id).grantSeq = field q.params 4 4 →
     a = ((s.dev.started q ptr).forceLock (id / 16384) id).pendServe (id / 16384) →
      Answers (.lockForceRelease path tag) s (fun d => d = a.finish path tag Ocm.ok (leBytes 4 (a.lockCell id).grantSeq))) ∧
  -- LOCK_ABANDON (R420)
  (∀ (s : State) (path : Path) (tag : Nat) (q : Request) (ptr : Nat) (t : Dev × Nat × Nat),
     Starts s (Form.fixed 0x0D02 8 [(32, 63)] 8) path tag q ptr →
     t = (allRegions.filter (s.dev.started q ptr).regionRuns).foldl (fun (s : Dev × Nat × Nat) r => ((s.1.abandonAll r (abandonMatch (field q.params 0 4))).1.pendServe r, s.2.1 + (s.1.abandonAll r (abandonMatch (field q.params 0 4))).2.1, s.2.2 + (s.1.abandonAll r (abandonMatch (field q.params 0 4))).2.2)) (s.dev.started q ptr, 0, 0) →
      Answers (.lockAbandon path tag) s (fun d => d = t.1.finish path tag Ocm.ok (leBytes 4 t.2.1 ++ leBytes 4 t.2.2))) ∧
  -- LOCK_READ (R422)
  (∀ (s : State) (path : Path) (tag : Nat) (q : Request) (ptr : Nat) (c : LockCell), Starts s lockReadForm path tag q ptr →
     c = (s.dev.started q ptr).lockCell (field q.params 0 2) →
      Answers (.lockRead path tag) s (fun d => d = (s.dev.started q ptr).draw.finish path tag Ocm.ok
        (c.image (match c.waiters with
          | w :: _ => w.slot
          | [] => (Config.unstated (s.dev.started q ptr).free).toNat) ++ (c.waiters.take 64).flatMap Waiter.image)))

/-- Lock responses and the lock repeat timer answer the state of chapter 13 (R410, R412, R413, R415).
Each clause names the conditions on the state and the operands, and what the next state is.
The model's choice, not the rules': log entries 24, 25 and 39 (24: places of LOCK_ARG and of the records; 25: answers to a CANCEL and late answers; 39: FENCED). -/
def Obligations.LockResponsesComplete : Prop :=
  -- GRANT_RECEIVED (R410)
  (∀ (s : State) (r : Fin 4) (pkt : Packet) (q : Pend) (a : Dev), s.dev.regionRuns r = true →
     a = ((s.dev.takeIntake r pkt).lockRepeat r (argPend pkt.hdr)).lockProbe r (argPend pkt.hdr) → lockOk r pkt 0x81 = true →
     a.pend r (argPend pkt.hdr) = some q → (q.state = .sent ∨ q.state = .queued) →
     (q.fen = pkt.hdr.dstFen ∧ q.epi = pkt.hdr.srcEpi ∧ q.router = fenRouter pkt.hdr.srcFen ∧ q.lockId = pkt.hdr.lockId) →
     a.targetUp r pkt.hdr = true → (a.sq q.ep q.sq).state ≠ .halted → q.lost = false → q.unlock = false →
      Answers (.grantReceived r pkt) s (fun d => d = ((a.grantWord q
        (wordOf true (bit pkt.hdr.lockArg 16) (bit pkt.hdr.lockArg 17) false 0 q.lockId (argGrantSeq pkt.hdr))).endPend r (argPend pkt.hdr)
          (Fin8.ok 8)).pendServe r)) ∧
  -- QUEUED_RECEIVED (R412)
  (∀ (s : State) (r : Fin 4) (pkt : Packet) (q : Pend) (a : Dev), s.dev.regionRuns r = true →
     a = ((s.dev.takeIntake r pkt).lockRepeat r (argPend pkt.hdr)).lockProbe r (argPend pkt.hdr) → lockOk r pkt 0x82 = true →
     a.pend r (argPend pkt.hdr) = some q → (q.state = .sent ∨ q.state = .queued) →
     (q.fen = pkt.hdr.dstFen ∧ q.epi = pkt.hdr.srcEpi ∧ q.router = fenRouter pkt.hdr.srcFen ∧ q.lockId = pkt.hdr.lockId) →
     a.targetUp r pkt.hdr = true → (a.sq q.ep q.sq).state ≠ .halted → q.lost = false → q.unlock = false →
      Answers (.queuedReceived r pkt) s (fun d => d = (a.modPend r (argPend pkt.hdr) (fun q =>
        { q with state := .queued, since := if q.state = .queued then q.since else a.belfryNow r, repeats := 0,
                 unanswered := false })).pendServe r)) ∧
  -- BUSY_RECEIVED (R410)
  (∀ (s : State) (r : Fin 4) (pkt : Packet) (q : Pend) (a : Dev), s.dev.regionRuns r = true →
     a = ((s.dev.takeIntake r pkt).lockRepeat r (argPend pkt.hdr)).lockProbe r (argPend pkt.hdr) → lockOk r pkt 0x83 = true →
     a.pend r (argPend pkt.hdr) = some q → (q.state = .sent ∨ q.state = .queued) →
     (q.fen = pkt.hdr.dstFen ∧ q.epi = pkt.hdr.srcEpi ∧ q.router = fenRouter pkt.hdr.srcFen ∧ q.lockId = pkt.hdr.lockId) →
     a.targetUp r pkt.hdr = true → (a.sq q.ep q.sq).state ≠ .halted → q.lost = false →
      Answers (.busyReceived r pkt) s (fun d => d = (
        if q.unlock then a.endPend r (argPend pkt.hdr) (Fin8.status' (argStatus pkt.hdr) (argDetail pkt.hdr))
        else a.denyPend r (argPend pkt.hdr) q (argStatus pkt.hdr) (argDetail pkt.hdr)).pendServe r)) ∧
  -- UNLOCK_DONE_RECEIVED (R413)
  (∀ (s : State) (r : Fin 4) (pkt : Packet) (q : Pend) (a : Dev), s.dev.regionRuns r = true →
     a = ((s.dev.takeIntake r pkt).lockRepeat r (argPend pkt.hdr)).lockProbe r (argPend pkt.hdr) → lockOk r pkt 0x84 = true →
     a.pend r (argPend pkt.hdr) = some q → (q.state = .sent ∨ q.state = .queued) →
     (q.fen = pkt.hdr.dstFen ∧ q.epi = pkt.hdr.srcEpi ∧ q.router = fenRouter pkt.hdr.srcFen ∧ q.lockId = pkt.hdr.lockId) →
     a.targetUp r pkt.hdr = true → (a.sq q.ep q.sq).state ≠ .halted → q.lost = false → q.unlock = true →
      Answers (.unlockDoneReceived r pkt) s (fun d => d = (a.endPend r (argPend pkt.hdr) (Fin8.ok 0)).pendServe r)) ∧
  -- INHERIT_RECEIVED (R415)
  (∀ (s : State) (r : Fin 4) (pkt : Packet) (a : Dev), s.dev.regionRuns r = true → a = s.dev.takeIntake r pkt →
     lockOk r pkt 0x85 = true → a.targetUp r pkt.hdr = true →
      Answers (.inheritReceived r pkt) s (fun d => d = a.eqRecord (a.targetEp r pkt.hdr) pkt.hdr.srcEpi
        (leBytes 1 2 ++ sliceBytes (leBytes 12 pkt.hdr.lockArg) 1 3 ++ leBytes 2 pkt.hdr.lockId ++ leBytes 2 (fenRouter pkt.hdr.srcFen) ++
          sliceBytes (leBytes 12 pkt.hdr.lockArg) 4 8 ++ leBytes 8 pkt.hdr.grantAddr ++ zeros 7) true)) ∧
  -- DISINHERIT_RECEIVED (R415)
  (∀ (s : State) (r : Fin 4) (pkt : Packet) (a : Dev), s.dev.regionRuns r = true → a = s.dev.takeIntake r pkt →
     lockOk r pkt 0x86 = true → a.targetUp r pkt.hdr = true →
      Answers (.disinheritReceived r pkt) s (fun d => d = a.eqRecord (a.targetEp r pkt.hdr) pkt.hdr.srcEpi
        (leBytes 1 3 ++ sliceBytes (leBytes 12 pkt.hdr.lockArg) 1 3 ++ leBytes 2 pkt.hdr.lockId ++ leBytes 2 (fenRouter pkt.hdr.srcFen) ++
          sliceBytes (leBytes 12 pkt.hdr.lockArg) 4 8 ++ leBytes 8 pkt.hdr.grantAddr ++ zeros 7) true)) ∧
  -- LOCK_REPEAT_TIMEOUT (R412)
  (∀ (s : State) (r : Fin 4) (pend : Nat) (p : Pend), s.dev.regionRuns r = true → s.dev.pend r pend = some p → p.state = .sent →
     p.since + (s.dev.region r).chip.msgTimeout ≤ s.dev.belfryNow r → (s.dev.sq p.ep p.sq).state ≠ .halted →
     p.repeats < (s.dev.region r).chip.maxRetries → s.dev.fenced = false → p.lost = false →
      Answers (.lockRepeatTimeout r pend) s (fun d => d = ((s.dev.modPend r pend (fun p =>
        { p with repeats := p.repeats + 1, since := s.dev.belfryNow r })).sendRequest r pend p p.opcode).count (Ctr.lockRepeats r))) ∧
  -- LOCK_REPEAT_TIMEOUT (R412)
  (∀ (s : State) (r : Fin 4) (pend : Nat) (p : Pend), s.dev.regionRuns r = true → s.dev.pend r pend = some p → p.state = .sent →
     p.since + (s.dev.region r).chip.msgTimeout ≤ s.dev.belfryNow r → (s.dev.sq p.ep p.sq).state ≠ .halted → s.dev.fenced = true →
     p.flushed = 0 →
      Answers (.lockRepeatTimeout r pend) s (fun d =>
        (p.unlock = true → d = (s.dev.endPend r pend (Fin8.status' 0x07 0x0501)).pendServe r) ∧
        (p.unlock = false → d = (s.dev.denyPend r pend p 0x07 0x0501).pendServe r))) ∧
  -- LOCK_PROBE (R412)
  (∀ (s : State) (r : Fin 4) (pend : Nat) (q : Pend), s.dev.regionRuns r = true → s.dev.pend r pend = some q → q.state = .queued →
     q.since + (s.dev.region r).chip.probe ≤ s.dev.belfryNow r → (s.dev.sq q.ep q.sq).state ≠ .halted → q.unanswered = false →
     s.dev.fenced = false → q.lost = false →
      Answers (.lockProbe r pend) s (fun d => d = ((s.dev.modPend r pend (fun p =>
        { p with repeats := q.repeats, unanswered := true, since := s.dev.belfryNow r })).sendRequest r pend q 0x01).count (Ctr.lockRepeats r)))

/-- The transport of Ocmiset commands answers the state of chapter 14 (R433, R434, R443, R445, R505, R506, R508).
Each clause names the conditions on the state and the operands, and what the next state is.
The model's choice, not the rules': log entries 22, 23 and 43 (22: requests that fail checks 1 to 3 are answered when the arbiter takes them; 23: replies and aborts; 43: whole phases of a Bellrope frame, and its acknowledgements). -/
def Obligations.CommandTransportCompletes : Prop :=
  -- COMMAND_INTAKE (R443)
  (∀ (s : State) (r : Fin 4) (pkt : Packet) (b : Dev) (q : Request), s.dev.regionRuns r = true → b = s.dev.takeIntake r pkt →
     b.wardenRuns = true → (pkt.hdr.cls = 4 ∧ pkt.hdr.opcode ≠ 2 ∧ pkt.hdr.opcode ≠ 3) →
     q = ⟨.inband pkt.hdr.srcFen pkt.hdr.srcEpi, b.wardenNow, pkt.payload, some pkt.hdr, r, 0⟩ →
     b.warden.knows q.path q.tag = false → (b.warden.intake.filter (fun x => x.path != .bellrope)).length < 252 →
     b.warden.intake.length < 256 →
      Answers (.commandIntake r pkt) s (fun d =>
        d = ((b.count Ctr.cmdsReceived).modWarden (fun w => { w with intake := w.intake ++ [q] })).answerBad 256)) ∧
  -- COMMAND_REPLY_RECEIVED (R433)
  (∀ (s : State) (r : Fin 4) (pkt : Packet) (b : Dev) (c : Outstanding), s.dev.regionRuns r = true → b = s.dev.takeIntake r pkt →
     b.wardenRuns = true → ((pkt.hdr.opcode = 2 ∨ pkt.hdr.opcode = 3) ∧ pkt.hdr.cls = 4) →
     b.callOf r pkt.hdr (Ocm.tag pkt.payload) = some c → b.warden.calls.find? (fun x => x.id == c.id) = some c →
     b.callNow c < c.since + b.warden.cmdTimeout → Ocm.type pkt.payload = 2 → c.forward = none →
      Answers (.commandReplyReceived r pkt) s (fun d =>
        d = (b.dropCall c.id).cmdAnswer c.ep c.sq c.tag 2 c.orphan pkt.payload)) ∧
  -- INTERIM_SEND (R445)
  (∀ (s : State) (path : Path) (tag : Nat) (x : Exec), s.dev.wardenRuns = true → s.dev.warden.exec path tag = some x →
     path ≠ .bellrope → s.dev.warden.nextInterim x ≤ s.dev.wardenNow →
      Answers (.interimSend path tag) s (fun d => d = ((s.dev.count Ctr.interimsSent).modExec path tag (fun x =>
        { x with interims := x.interims + 1 })).sendReply x.req 3 Ocm.running (zeros 8))) ∧
  -- CMD_TIMEOUT (R434)
  (∀ (s : State) (call : Nat) (c : Outstanding) (m : Cmd), s.dev.gatesRun = true →
     s.dev.warden.calls.find? (fun c => c.id == call) = some c → c.since + s.dev.warden.cmdTimeout ≤ s.dev.callNow c →
     c.forward = none → c.orphan = 0 → (s.dev.sq c.ep c.sq).state ≠ .halted → (s.dev.sq c.ep c.sq).cmdOf c.tag = some m →
      Answers (.cmdTimeout call) s (fun d => d = (((s.dev.dropCall call).modSq c.ep c.sq (fun s =>
        { s with cmds := s.cmds.filter (fun x => x.entry != m.entry) })).count (Ctr.cmdTimeouts c.ep)).complete c.ep c.sq m.entry
          (Fin8.status' 7 0))) ∧
  -- BELLROPE_ADDRESS_MATCH (R506)
  (∀ (s : State) (addr : BitVec 7), s.dev.lanternRuns = true → s.dev.lantern.rope = .idle → addr.toNat = s.dev.lantern.brAddr →
      Answers (.bellropeAddressMatch addr false) s (fun d =>
        d = ((s.dev.count Ctr.brFrames).modLantern (fun l => { l with rope := .matched, brAck := some false })).emit (.brAck [true, false]))) ∧
  -- BELLROPE_ADDRESS_MATCH (R506)
  (∀ (s : State) (addr : BitVec 7) (wake : Bool), s.dev.lanternRuns = true → s.dev.lantern.rope = .idle →
     addr.toNat ≠ s.dev.lantern.brAddr →
      Answers (.bellropeAddressMatch addr wake) s (fun d => d = s.dev.setRope (.ignoring 1))) ∧
  -- BELLROPE_REQUEST (R506)
  (∀ (s : State) (symbols : List RopeSym) (bytes : List Byte) (q : Request) (e b : Dev), s.dev.lanternRuns = true →
     s.dev.lantern.rope = .matched → requestBytes symbols = some bytes → q = ⟨.bellrope, s.dev.wardenNow, bytes, none, 0, 0⟩ →
     e = s.dev.emit (.brAck (fourPhases (symbols.takeWhile (fun x => x != .dlm)).length)) →
     b = (e.setRope (.waiting (some q.tag))).register q → b.counter Ctr.cmdsReceived ≠ s.dev.counter Ctr.cmdsReceived →
      Answers (.bellropeRequest symbols) s (fun d => d = b)) ∧
  -- BELLROPE_REQUEST (R506)
  (∀ (s : State) (symbols : List RopeSym), s.dev.lanternRuns = true → s.dev.lantern.rope = .matched → requestBytes symbols = none →
      Answers (.bellropeRequest symbols) s (fun d =>
        d = ((s.dev.emit (.brAck (fourPhases (symbols.takeWhile (fun x => x != .dlm)).length))).count Ctr.brBadFrames).setRope
          (.answer [0, 0]))) ∧
  -- BELLROPE_ANSWER (R508)
  (∀ (s : State) (bytes : List Byte), s.dev.lanternRuns = true → s.dev.lantern.rope = .answer bytes →
      Answers .bellropeAnswer s (fun d => d = ((s.dev.emit (.bellrope bytes)).emit (.brAck (answerLevels bytes))).modLantern (fun l =>
        { l with rope := .idle, brAck := none }))) ∧
  -- BELLROPE_LONG_NULL (R505)
  (∀ (s : State) (ns : Nat), s.dev.lanternRuns = true → 100000 ≤ ns →
      Answers (.bellropeLongNull ns) s (fun d => d = s.dev.setRope .idle))

/-- NOP, AUTH_NONCE, MGMT_FORWARD and CMD_ABORT answer their states and replies (R436, R442, R446, R459).
Each clause names the conditions on the state and the operands, and what the next state is.
The model's choice, not the rules': log entries 7, 22 and 23 (7: the nonce is a free value; 23: locality before routers have IDs, and what CMD_ABORT counts). -/
def Obligations.ManagementCommandsComplete : Prop :=
  -- NOP_COMMAND (R459)
  (∀ (s : State) (path : Path) (tag : Nat) (q : Request) (ptr : Nat),
     Starts s { Form.fixed 0x0E00 0 [] 0 with down := Dev.placeDown } path tag q ptr →
      Answers (.nopCommand path tag) s (fun d => d = (s.dev.started q ptr).finish path tag Ocm.ok [])) ∧
  -- AUTH_NONCE (R442)
  (∀ (s : State) (path : Path) (tag : Nat) (q : Request) (ptr n : Nat) (a : Dev),
     Starts s (Form.fixed 0x0E04 0 [] 16) path tag q ptr → a = s.dev.started q ptr → n = (Config.nonce a.free).toNat →
     a.liveNonces.length < 8 →
      Answers (.authNonce path tag) s (fun d => d = (a.draw.modWarden (fun w =>
        { w with nonces := a.liveNonces ++ [(n, a.wardenNow + 10000000000)] })).finish path tag Ocm.ok
          (leBytes 8 n ++ leBytes 8 (a.wardenNow + 10000000000)))) ∧
  -- MGMT_FORWARD (R436)
  (∀ (s : State) (path : Path) (tag : Nat) (q : Request) (ptr r : Nat) (a : Dev) (h : Hdr), Starts s fwdForm path tag q ptr →
     a = s.dev.started q ptr → 24 ≤ q.params.length → (1 ≤ bits (byteAt q.params 0) 3 0 ∧ bits (byteAt q.params 0) 3 0 ≤ 8) →
     fwdHopsOk q.params = true → r = a.fwdRegion q →
     h = { dstFen := 0, srcFen := fenOf (a.region r).chip.routerId 0, cls := 4, mode := 2, interGroup := bits (byteAt q.params 0) 3 0, unit := 3, opcode := Ocm.type (q.params.drop 8), laSet := bits (field q.params 0 8) 63 8 } →
      Answers (.mgmtForward path tag) s (fun d => d = (((a.takeId.addCall
        ⟨a.nextId, some (q.path, q.tag), 0, 0, Ocm.tag (q.params.drop 8), 0, a.wardenNow, 0, false⟩).send r 63 h (q.params.drop 8)).modExec path tag
          (fun x => { x with a := a.nextId, b := 0, data := [] })).answerBad 256)) ∧
  -- CMD_ABORT (R446)
  (∀ (s : State) (path : Path) (tag : Nat) (q : Request) (ptr : Nat) (x : Exec),
     Starts s (Form.fixed 0x0E06 8 [(16, 63)] 0) path tag q ptr →
     (s.dev.started q ptr).abortable q.path (abortTag q.params) = some x → x.aborting = false →
      Answers (.cmdAbort path tag) s (fun d => d = (((s.dev.started q ptr).abortExec x).count Ctr.cmdsAborted).finish path tag Ocm.ok []))

/-- Register and counter commands and BAR0 writes answer their states (R7, R449, R450, R451, R452, R544, R548).
Each clause names the conditions on the state and the operands, and what the next state is.
The model's choice, not the rules': log entries 22, 27, 47 and 53 (27: 4-byte writes; 47: numbers of counters; 53: reads of a stopped island). -/
def Obligations.RegisterAccessCommandsComplete : Prop :=
  -- REG_READ (R449)
  (∀ (s : State) (path : Path) (tag : Nat) (q : Request) (ptr addr n : Nat) (a : Dev), Starts s regReadForm path tag q ptr →
     a = s.dev.started q ptr → addr = field q.params 0 8 → n = regCount q.params → a.addrOk addr = true → (1 ≤ n ∧ n ≤ 256) →
      Answers (.regRead path tag) s (fun d =>
        d = (forEach (List.range n) (fun i d => d.afterRead (addrEp addr) (regOf addr i)) a).finish path tag Ocm.ok
          ((List.range n).flatMap (fun i => leBytes 8 (a.regValue s.fuses (addrEp addr) (regOf addr i)))))) ∧
  -- REG_WRITE (R450)
  (∀ (s : State) (path : Path) (tag : Nat) (q : Request) (ptr addr n : Nat) (a : Dev), Starts s regWriteForm path tag q ptr →
     a = s.dev.started q ptr → addr = field q.params 0 8 → n = regCount q.params → a.addrOk addr = true → (1 ≤ n ∧ n ≤ 256) →
      Answers (.regWrite path tag) s (fun d => d = (forEach (List.range n) (fun i d =>
        d.writeReg (addrEp addr) (regOf addr i) (BitVec.ofNat 64 (field q.params (16 + 8 * i) 8))) a).finish path tag Ocm.ok [])) ∧
  -- REG_MODIFY (R450)
  (∀ (s : State) (path : Path) (tag : Nat) (q : Request) (ptr addr : Nat) (a : Dev) (old new mask : Reg),
     Starts s regModifyForm path tag q ptr → a = s.dev.started q ptr → addr = field q.params 0 8 → a.addrOk addr = true →
     old = BitVec.ofNat 64 (a.regValue s.fuses (addrEp addr) (regOf addr 0)) → mask = BitVec.ofNat 64 (field q.params 8 8) →
     new = (old &&& ~~~mask) ||| (BitVec.ofNat 64 (field q.params 16 8) &&& mask) →
      Answers (.regModify path tag) s (fun d => d = ((a.afterRead (addrEp addr) (regOf addr 0)).writeReg (addrEp addr) (regOf addr 0)
        new).finish path tag Ocm.ok (leBytes 8 old.toNat ++ leBytes 8 new.toNat))) ∧
  -- COUNTER_READ (R451)
  (∀ (s : State) (path : Path) (tag : Nat) (q : Request) (ptr first n : Nat) (a : Dev), Starts s counterReadForm path tag q ptr →
     a = s.dev.started q ptr → first = counterFirst q.params → n = counterCount q.params → (1 ≤ n ∧ n ≤ 256) →
      Answers (.counterRead path tag) s (fun d =>
        d = (if bit (byteAt q.params 6) 0 then a.clearCounters first n else a).finish path tag Ocm.ok
          ((List.range n).flatMap (fun i => leBytes 8 (a.counterValue (first + i)))))) ∧
  -- COUNTER_CLEAR (R452)
  (∀ (s : State) (path : Path) (tag : Nat) (q : Request) (ptr n : Nat), Starts s counterClearForm path tag q ptr →
     n = clearCount q.params → (1 ≤ n ∧ n ≤ 1048576) →
      Answers (.counterClear path tag) s (fun d =>
        d = ((s.dev.started q ptr).clearCounters (counterFirst q.params) n).finish path tag Ocm.ok [])) ∧
  -- REGISTER_WRITE (R7)
  (∀ (s : State) (ep : Fin 16) (off : Nat) (value : Reg) (a : RegAt), s.dev.epUp ep = true → s.dev.barOpen ep = true →
     a = barReg off → (∀ o, a ≠ .aperture o) → off % 8 = 0 → (needsPriv off = false ∨ s.dev.priv ep = true) →
     s.dev.barReaches ep a = true →
      Answers (.registerWrite ep (.write off 8 value)) s (fun d => d = s.dev.writeReg ep a value) ∧
      Answers (.registerWrite ep (.read off 8)) s (fun d =>
        d = s.dev.sendData ep (some (leBytes 8 (s.dev.regValue s.fuses ep a)))) ∧
      (∀ at_ size, Answers (.registerWrite ep (.readDoorbells at_ size)) s (fun d => d = s.dev.sendData ep (some (zeros size))))) ∧
  -- EVT_PEND_CLEAR (R548)
  (∀ (s : State) (ep : Fin 16) (word : Fin 22) (value : Reg), s.dev.epUp ep = true → s.dev.barOpen ep = true →
     s.dev.wardenRuns = true →
      Answers (.evtPendClear ep word value) s (fun d => d = s.dev.pendClear ep word value.toNat)) ∧
  -- COUNTER_WRITE_CLEAR (R544)
  (∀ (s : State) (ep : Fin 16) (n size : Nat), s.dev.epUp ep = true → s.dev.barOpen ep = true → s.dev.priv ep = true → n < 2 ^ 19 →
     s.dev.countersDown n 1 = false → (size = 4 ∨ size = 8) →
      Answers (.counterWriteClear ep (8 * n) size) s (fun d => d = s.dev.clearCounter n))

/-- The cage scan, the CAGE commands and the six steps of CLOCK_SWITCH answer their states (R67, R453, R454, R455).
Each clause names the conditions on the state and the operands, and what the next state is.
The model's choice, not the rules': log entries 22, 37, 38 and 48 (37: the frame in which a CAGE_SET is applied; 38 and 48: one row of CLOCK_SWITCH is one of its six steps, and its measurements are its operand). -/
def Obligations.CageAndClockCommandsComplete : Prop :=
  -- CAGE_SCAN_FRAME (R67)
  (∀ (s : State) (din : BitVec 512), s.dev.wardenRuns = true → s.dev.warden.cageSets = [] → s.dev.gatesRun = true →
      Answers (.cageScanFrame din) s (fun d => ∃ e : Dev,
        e = forEach allCages (fun c d =>
          if (d.cage c).dropPower then d.modCage c (fun y => { y with pwrEn := false, dropPower := false }) else d) s.dev ∧
        d = forEach allCages (fun c d => d.cageInput c (bits din.toNat (4 * c + 3) (4 * c))) (e.emit (.cageFrame e.frameOut)))) ∧
  -- CAGE_SET (R453)
  (∀ (s : State) (path : Path) (tag : Nat) (q : Request) (ptr : Nat),
     Starts s (Form.fixed 0x0E10 24 [(133, 191)] 16) path tag q ptr → (s.dev.started q ptr).gatesRun = true →
      Answers (.cageSet path tag) s (fun d =>
        d = ((s.dev.started q ptr).modExec path tag (fun x => { x with a := 0, b := 0, data := [] })).answerBad 256)) ∧
  -- CAGE_STATUS (R454)
  (∀ (s : State) (path : Path) (tag : Nat) (q : Request) (ptr : Nat), Starts s (Form.fixed 0x0E11 0 [] 128) path tag q ptr →
      Answers (.cageStatus path tag) s (fun d => d = (s.dev.started q ptr).finish path tag Ocm.ok
        (allCages.flatMap (fun c => leBytes 1 ((s.dev.started q ptr).cage c).status)))) ∧
  -- CAGE_PG_TIMEOUT (R454)
  (∀ (s : State) (cage : Fin 128), s.dev.wardenRuns = true → (s.dev.cage cage).pwrEn = true → (s.dev.cage cage).pwrGood = false →
     (s.dev.cage cage).since + s.dev.warden.cagePgWait ≤ s.dev.wardenNow →
      Answers (.cagePgTimeout cage) s (fun d => d = (s.dev.modCage cage (fun x => { x with pwrEn := false, fault := true })).raise Isl.warden
        (Src.cage cage 1) 0 0)) ∧
  -- CLOCK_SWITCH (R455)
  (∀ (s : State) (path : Path) (tag : Nat) (run : ClockRun) (q : Request) (ptr : Nat) (a : Dev),
     s.dev.warden.exec path tag = none → Starts s (Form.fixed 0x0E20 0 [] 16) path tag q ptr → a = s.dev.started q ptr →
     a.warden.clockTurn q = true → a.warden.allRun = false → run.ppm.natAbs ≤ 150 →
      Answers (.clockSwitch path tag run) s (fun d => d = ((a.modWarden (fun w => { w with nref := run.ppm })).modExec path tag (fun x =>
        { x with a := 1, b := 0, data := [] })).answerBad 256)) ∧
  -- CLOCK_SWITCH (R455)
  (∀ (s : State) (path : Path) (tag : Nat) (run : ClockRun) (q : Request) (ptr : Nat) (a : Dev),
     s.dev.warden.exec path tag = none → Starts s (Form.fixed 0x0E20 0 [] 16) path tag q ptr → a = s.dev.started q ptr →
     a.warden.clockTurn q = true → a.warden.allRun = false → 150 < run.ppm.natAbs →
      Answers (.clockSwitch path tag run) s (fun d => d = ((a.modWarden (fun w => { w with nref := run.ppm, done := true })).raise Isl.warden
        (Src.chip 5) 0 0).finish path tag Ocm.hardwareFault [])) ∧
  -- CLOCK_SWITCH (R455)
  (∀ (s : State) (path : Path) (tag : Nat) (run : ClockRun) (x : Exec), s.dev.wardenRuns = true →
     s.dev.warden.exec path tag = some x → x.opcode = 0x0E20 → s.dev.warden.clockTurn x.req = true → x.a = 1 →
      Answers (.clockSwitch path tag run) s (fun d => d = (s.dev.modExec path tag (fun x =>
        { x with a := 2, data := []
                 b := maskOf (allRegions.filter (fun r => !s.dev.warden.regionUp r && run.pllFails.any (fun x => x.val == r))) })).answerBad 256)) ∧
  -- CLOCK_SWITCH (R455)
  (∀ (s : State) (path : Path) (tag : Nat) (run : ClockRun) (x : Exec) (bad : List Nat), s.dev.wardenRuns = true →
     s.dev.warden.exec path tag = some x → x.opcode = 0x0E20 → s.dev.warden.clockTurn x.req = true → x.a = 2 →
     bad = allRegions.filter (fun r => bit x.b r || (!bit s.dev.warden.hbm r && run.hbmFails.any (fun x => x.val == r))) →
      Answers (.clockSwitch path tag run) s (fun d => d = ((s.dev.modWarden (fun w => { w with
        hbm := maskOf (allRegions.filter (fun r => bit w.hbm r || !bad.contains r)) })).modExec path tag (fun x =>
          { x with a := 3, b := maskOf bad, data := [] })).answerBad 256)) ∧
  -- CLOCK_SWITCH (R455)
  (∀ (s : State) (path : Path) (tag : Nat) (run : ClockRun) (x : Exec) (up fresh : List Nat), s.dev.wardenRuns = true →
     s.dev.warden.exec path tag = some x → x.opcode = 0x0E20 → s.dev.warden.clockTurn x.req = true → x.a = 3 →
     up = s.dev.warden.belfryNext x.b → fresh = up.filter (fun r => !bit s.dev.warden.belfry r) →
      Answers (.clockSwitch path tag run) s (fun d => d = ((forEach fresh (fun r d => d.startRegion r) (s.dev.modWarden (fun w =>
        { w with belfry := maskOf up, buttress := buttressOf up }))).modExec path tag (fun y =>
          { y with a := 4, b := x.b + 16 * maskOf fresh, data := [] })).answerBad 256)) ∧
  -- CLOCK_SWITCH (R455)
  (∀ (s : State) (path : Path) (tag : Nat) (run : ClockRun) (x : Exec) (bs : List Nat), s.dev.wardenRuns = true →
     s.dev.warden.exec path tag = some x → x.opcode = 0x0E20 → s.dev.warden.clockTurn x.req = true → x.a = 4 →
     bs = (allRegions.filter (fun r => bit s.dev.warden.belfry r)).flatMap blocksOf →
      Answers (.clockSwitch path tag run) s (fun d => d = ((forEach (bs.filter (fun b => !bit s.dev.warden.engines b)) (fun b d => d.setBlock b .resetting)
        (s.dev.modWarden (fun w => { w with engines := maskOf bs }))).modExec path tag (fun y => { y with a := 5, b := x.b, data := [] })).answerBad 256)) ∧
  -- CLOCK_SWITCH (R455)
  (∀ (s : State) (path : Path) (tag : Nat) (run : ClockRun) (x : Exec) (a : Dev), s.dev.wardenRuns = true →
     s.dev.warden.exec path tag = some x → x.opcode = 0x0E20 → s.dev.warden.clockTurn x.req = true → x.a = 5 →
     a = (s.dev.modWarden (fun w => { w with pll := true, done := true })).modExec x.req.path x.req.tag (fun x => { x with b := 0 }) →
      Answers (.clockSwitch path tag run) s (fun d => ∃ e : Dev,
        e = forEach (allRegions.filter (fun r => bit x.b (4 + r))) (fun r d => d.startPorts r) a ∧
        (bits x.b 3 0 = 0 → d = e.finish path tag Ocm.ok []) ∧
        (bits x.b 3 0 ≠ 0 → d = (e.raise Isl.warden (Src.chip 5) 0 0).finish path tag Ocm.hardwareFault [])))

/-- The TWIN commands, heartbeats and twin timers answer the state of chapter 15 (R463, R464, R465, R467, R472, R476, R477).
Each clause names the conditions on the state and the operands, and what the next state is.
The model's choice, not the rules': log entries 8, 22 and 39 (8: the TAG of a heartbeat is a free value; 39: the last-issued time, the order of silence, death and heartbeat, and TWIN_BOOT). -/
def Obligations.TwinCommandsAndEventsComplete : Prop :=
  -- TWIN_SET (R476)
  (∀ (s : State) (path : Path) (tag : Nat) (q : Request) (ptr : Nat) (a : Dev),
     Starts s (Form.fixed 0x0F01 40 twinSetZero 0) path tag q ptr → a = (s.dev.started q ptr).silenceFence →
     a.twinSetOk q.params = true → a.chip.idValid = true → a.twin.state ≠ .taken →
      Answers (.twinSet path tag) s (fun d =>
        d = (a.modTwin (fun t => (t.load q.params).setState q.params a.wardenNow)).finish path tag Ocm.ok [])) ∧
  -- TWIN_STATUS (R477)
  (∀ (s : State) (path : Path) (tag : Nat) (q : Request) (ptr : Nat), Starts s (Form.fixed 0x0F02 0 [] 40) path tag q ptr →
      Answers (.twinStatus path tag) s (fun d =>
        d = (s.dev.started q ptr).finish path tag Ocm.ok (s.dev.started q ptr).twin.status)) ∧
  -- TWIN_TAKEOVER_TAKE (R467)
  (∀ (s : State) (path : Path) (tag : Nat) (q : Request) (ptr : Nat) (a : Dev), Starts s twinForm path tag q ptr →
     byteAt q.params 0 = 1 → a = (s.dev.started q ptr).silenceFence → (a.twin.state = .joining ∨ a.twin.state = .paired) →
      Answers (.twinTakeoverTake path tag) s (fun d => d = a.takeOver.finish path tag Ocm.ok (leBytes 8 a.takeOver.twin.info))) ∧
  -- TWIN_TAKEOVER_RELEASE (R477)
  (∀ (s : State) (path : Path) (tag : Nat) (q : Request) (ptr : Nat) (a b : Dev), Starts s twinForm path tag q ptr →
     a = s.dev.started q ptr → byteAt q.params 0 = 2 → a.twin.state = .taken →
     (b = a.dropAlt.modTwin (fun t => { t with state := if a.heardLately then .paired else .joining, windowStart := t.lastHeard.getD a.wardenNow, windowOpen := true })) →
      Answers (.twinTakeoverRelease path tag) s (fun d => d = b.finish path tag Ocm.ok (leBytes 8 b.twin.info))) ∧
  -- TWIN_HEARTBEAT (R464)
  (∀ (s : State) (path : Path) (tag : Nat) (q : Request) (ptr : Nat) (a : Dev),
     Starts s (Form.fixed 0x0F04 16 [(62, 63), (68, 71), (88, 95), (110, 111)] 0) path tag q ptr → a = s.dev.started q ptr →
     a.twin.state ≠ .off → field q.params 0 6 = a.twin.peerSerial → bits (field q.params 6 2) 13 0 = a.twin.peerRouter →
      Answers (.twinHeartbeat path tag) s (fun d => d = (a.heartbeatHeard q).finish path tag Ocm.ok [])) ∧
  -- HEARTBEAT_ISSUE (R463)
  (∀ (s : State) (a : Dev) (pkt : List Byte) (hd : Hdr), s.dev.wardenRuns = true → a = s.dev.silenceFence → a.twin.state ≠ .off →
     a.twin.lastIssued + a.twin.period ≤ a.wardenNow →
     pkt = Ocm.build 1 0 0x0F04 ((Config.unstated a.free).toNat % 65536) 0 0 a.heartbeat →
     hd = { srcFen := fenOf a.chip.routerId 0, cls := 4, unit := 3, opcode := 1 } → a.twin.fabricHb = false →
      Answers .heartbeatIssue s (fun d => d = ((forEach [a.twin.portA, a.twin.portB] (fun p d =>
        d.send (p / 32) 63 { hd with mode := 2, interGroup := 1, laSet := p } pkt) a.draw).count Ctr.hbSent).modTwin (fun t =>
          { t with hbSeq := (t.hbSeq + 1) % 65536, lastIssued := a.wardenNow }))) ∧
  -- TWIN_DEATH (R465)
  (∀ (s : State) (a : Dev), s.dev.wardenRuns = true → a = s.dev.silenceFence → a.windowOver = true → a.twin.auto = false →
      Answers .twinDeath s (fun d => d = ((a.modTwin (fun t =>
        { t with peerDead := true, peerHeard := false, windowOpen := false })).raise Isl.warden (Src.chip 2) 0 0).count Ctr.twinDeaths)) ∧
  -- HEARTBEAT_SILENCE_FENCE (R472)
  (∀ (s : State), s.dev.wardenRuns = true → (s.dev.twin.state = .joining ∨ s.dev.twin.state = .paired) →
     s.dev.twin.lastIssued + s.dev.twin.deadTime ≤ s.dev.wardenNow →
      Answers .heartbeatSilenceFence s (fun d => d = s.dev.enterFenced 2))

/-- Engine dispatch and the BLOCK commands answer the state of chapter 15 (R480, R481, R482).
Each clause names the conditions on the state and the operands, and what the next state is.
The model's choice, not the rules': log entries 22, 23, 40 and 51 (40: of two items of equal age the one queued first; 23: an abort in RESETTING; 51: when a payload is written). -/
def Obligations.EngineBlockCommandsComplete : Prop :=
  -- ENGINE_DISPATCH (R480)
  (∀ (s : State) (b : Fin 64) (item : Item) (e : Nat) (a : Dev), s.dev.blockRuns b = true → a = s.dev.sweepItems b →
     (a.block b).state = .run → minBy (fun (i : Item) => i.stamp) (a.block b).queue = some item → a.freeEngine b = some e →
      Answers (.engineDispatch b) s (fun d => d = (a.modBlock b (fun x =>
        { x with queue := x.queue.erase item, running := x.running ++ [(e, item)], dispatchPtr := (e + 1) % 16 })).storeWrite (b / 16) item.id)) ∧
  -- BLOCK_RESET (R482)
  (∀ (s : State) (path : Path) (tag : Nat) (q : Request) (ptr : Nat) (a : Dev),
     Starts s (blockForm 0x0F10 [(40, 63), (96, 127)]) path tag q ptr → a = s.dev.started q ptr → field q.params 0 4 ≤ 1000000 →
     a.blockHeld q.index = false →
      Answers (.blockReset path tag) s (fun d => d = ((a.migrate q.index (stepLimit q.params) (a.block q.index).version (a.block q.index).code false).modExec path tag
        (fun x => { x with a := q.index, b := 0, data := [] })).answerBad 256)) ∧
  -- BLOCK_LOAD (R482)
  (∀ (s : State) (path : Path) (tag : Nat) (q : Request) (ptr slot version : Nat) (a : Dev),
     Starts s (blockForm 0x0F11 [(33, 39), (40, 63), (96, 127)]) path tag q ptr → a = s.dev.started q ptr →
     slot = bits (byteAt q.params 4) 0 0 → version = hdrVersion (slotHeader s.flash slot) → field q.params 0 4 ≤ 1000000 →
     a.blockHeld q.index = false → imageFail s.flash s.fuses slot false = 0 →
     (field q.params 8 4 = 0 ∨ field q.params 8 4 = version) →
     ((a.versionsOf (q.index / 16)).filter (fun v => v != version)).length < 2 →
      Answers (.blockLoad path tag) s (fun d => d = ((a.migrate q.index (stepLimit q.params) version (slotSection s.flash slot 32) true).modExec path tag
        (fun x => { x with a := q.index, b := 0, data := [] })).answerBad 256)) ∧
  -- BLOCK_MIGRATION_END (R481)
  (∀ (s : State) (b : Fin 64) (a : Dev), s.dev.regionRuns (b / 16) = true → a = s.dev.sweepItems b →
     (a.block b).state = .migrating → ((a.block b).running = [] ∨ (a.block b).limit ≤ a.belfryNow (b / 16)) →
      Answers (.blockMigrationEnd b) s (fun d => d = (a.abandonSteps b (fun _ => true)).setBlock b .resetting)) ∧
  -- BLOCK_CODE_LOADED (R481)
  (∀ (s : State) (b : Fin 64) (x : Exec) (a c : Dev), s.dev.blockRuns b = true → s.dev.regionRuns (b / 16) = true →
     s.dev.blockCommand b = some x → (s.dev.block b).state = .resetting →
     a = (s.dev.modBlock b (fun y => { y with version := y.loading, code := y.newCode, newCode := [] })).setBlock b .run →
     c = (a.count (if x.opcode = 0x0F10 then Ctr.blockResets (b / 16) else Ctr.blockLoads (b / 16))).finishAll x.opcode b 0 Ocm.ok (a.block b).reply →
     c.blockBad b = false → x.aborting = false →
      Answers (.blockCodeLoaded b true) s (fun d => d = c))

/-- The REGION commands answer their states (R485, R486, R487).
Each clause names the conditions on the state and the operands, and what the next state is.
The model's choice, not the rules': log entries 22 and 41 (41: what a drain counts as left). -/
def Obligations.RegionResetAndResumeComplete : Prop :=
  -- REGION_DRAIN (R485)
  (∀ (s : State) (path : Path) (tag : Nat) (q : Request) (ptr t : Nat) (a : Dev),
     Starts s (regionForm 0x0F20 8 [(32, 63)] 8) path tag q ptr → a = s.dev.started q ptr → t = field q.params 0 4 →
     (1 ≤ t ∧ t ≤ 1000000) → (a.region q.index).state = .run →
      Answers (.regionDrain path tag) s (fun d => ∃ b : Dev, b = a.setRState q.index .draining ∧
        d = (((b.modRegion q.index (fun x => { x with drainEnd := a.belfryNow q.index + 1000 * t })).relive q.index).modExec path tag
          (fun x => { x with a := q.index, b := 0, data := [] })).answerBad 256)) ∧
  -- REGION_DRAINED (R485)
  (∀ (s : State) (r : Fin 4) (a : Dev), s.dev.regionRuns r = true → (s.dev.region r).state = .draining →
     (s.dev.emptied r = true ∨ (s.dev.region r).drainEnd ≤ s.dev.belfryNow r) →
     a = (s.dev.setRState r .drained).count (Ctr.regionDrains r) →
      Answers (.regionDrained r) s (fun d =>
        d = a.finishAll 0x0F20 r 0 Ocm.ok (leBytes 4 (a.egressLeft r) ++ leBytes 4 (a.unitsLeft r)))) ∧
  -- REGION_RESET (R486)
  (∀ (s : State) (path : Path) (tag : Nat) (q : Request) (ptr : Nat) (a : Dev),
     Starts s (regionForm 0x0F21 8 [(1, 63)] 8) path tag q ptr → a = s.dev.started q ptr →
     ((a.region q.index).state = .draining ∨ (a.region q.index).state = .drained ∨ ((a.region q.index).state = .run ∧ bit (byteAt q.params 0) 0 = true)) →
      Answers (.regionReset path tag) s (fun d => d = ((a.regionReset q.index (bit (byteAt q.params 0) 0)).modExec path tag
        (fun x => { x with a := q.index, b := 0, data := [] })).answerBad 256)) ∧
  -- REGION_READY (R486)
  (∀ (s : State) (r : Fin 4) (stillBad : List Nat), s.dev.belfryRuns r = true → (s.dev.region r).state = .resetting →
      Answers (.regionReady r stillBad) s (fun d => d = s.dev.regionReady r stillBad ∧
        ∃ a b c e : Dev, a = Dev.startRegion { s.dev with quarantine := s.dev.quarantine.retested r stillBad } r ∧
          b = forEach (blocksOf r) (fun b d => if (d.block b).state = .resetting ∧ d.boot.engineLoaded = true then d.runLoaded b else d) a ∧
          c = forEach (allRegions.filter (fun q => q != r.val && b.buttressRuns r q)) (fun q d =>
            (d.raise (Isl.belfry r) (Src.region r 18) 0 q).raise (Isl.belfry q) (Src.region q 18) 0 r) b ∧
          e = forEach (List.range 128) (fun p d => d.setLive r p) ((c.setRState r .ready).count (Ctr.regionResets r)) ∧
          d = forEach (e.warden.executing.filter (fun x => x.opcode == 0x0F21 && x.a == r.val)) (fun x d =>
            if x.aborting then d.finish x.req.path x.req.tag Ocm.aborted []
            else d.finish x.req.path x.req.tag Ocm.ok (leBytes 8 (e.region r).cellsLost)) e)) ∧
  -- REGION_RESUME (R487)
  (∀ (s : State) (path : Path) (tag : Nat) (q : Request) (ptr : Nat) (a : Dev),
     Starts s (regionForm 0x0F22 0 [] 0) path tag q ptr → a = s.dev.started q ptr →
     ((a.region q.index).state = .drained ∨ (a.region q.index).state = .ready) →
      Answers (.regionResume path tag) s (fun d => d = ((a.setRState q.index .run).relive q.index).finish path tag Ocm.ok []))

/-- The power state commands answer the state of chapter 16 (R495, R498, R503, R509).
Each clause names the conditions on the state and the operands, and what the next state is.
The model's choice, not the rules': log entries 9, 12, 16 and 42 (12: ticks of the Lantern; 16: when a removal ends; 42: how an entry ends, and wakes in its window). -/
def Obligations.PowerStateCommandsComplete : Prop :=
  -- POWER_SET (R495)
  (∀ (s : State) (path : Path) (tag : Nat) (q : Request) (ptr target : Nat) (a : Dev),
     Starts s (Form.fixed 0x1001 8 [(3, 63)] 0) path tag q ptr → a = s.dev.started q ptr → target = bits (byteAt q.params 0) 1 0 →
     2 ≤ target → a.powerRefused target (bit (byteAt q.params 0) 2) = false →
      Answers (.powerSet path tag) s (fun d => d = (a.sleepAll.modLantern (fun l =>
        { l with entering := some ⟨target, a.lanternNow, none⟩ })).finish path tag Ocm.ok [])) ∧
  -- POWER_ENTRY_WINDOW_OPEN (R495)
  (∀ (s : State) (e : Entry) (a : Dev), s.dev.lanternRuns = true → s.dev.lantern.entering = some e → e.window = none →
     a = s.dev.sleepAll.parkSteps →
      Answers .powerEntryWindowOpen s (fun d => d = Dev.modLantern
        (if e.target = 3 then a.modLantern (fun l => { l with retained := a.retention, retainValid := true }) else a)
        (fun l => { l with entering := some { e with window := some s.dev.lanternNow } }))) ∧
  -- POWER_ENTRY_WINDOW_END (R495)
  (∀ (s : State) (target start w : Nat), s.dev.lanternRuns = true → s.dev.lantern.entering = some ⟨target, start, some w⟩ →
     w + 320 ≤ s.dev.lanternNow →
      Answers .powerEntryWindowEnd s (fun d => d = s.dev.sleepAll.entryEnd target)) ∧
  -- LINK_PATTERN_DETECTED (R498)
  (∀ (s : State) (p : Fin 128) (bursts gaps : List Nat), s.dev.lanternRuns = true → isPattern bursts gaps = true →
      Answers (.linkPatternDetected p bursts gaps) s (fun d => d = s.dev.wake 5 p)) ∧
  -- POWER_EXIT_DONE (R503)
  (∀ (s : State) (f t : Nat) (a : Dev), s.dev.lanternRuns = true → s.dev.lantern.exiting = some (f, t) →
     (f ≠ 3 ∨ s.dev.boot.stage = .running) → a = s.dev.modLantern (fun l => { l with state := 0, exiting := none }) →
      Answers .powerExitDone s (fun d => d = Dev.raise
        (if f = 2 then forEach (List.range 128) (fun p d => if d.portRuns p then d.releaseStored p else d) a else a)
        Isl.lantern (Src.chip 1) (Dev.lantern (if f = 2 then
          forEach (List.range 128) (fun p d => if d.portRuns p then d.releaseStored p else d) a else a)).wakeSrc.primary 0)) ∧
  -- WAKE_CONFIG (R509)
  (∀ (s : State) (path : Path) (tag : Nat) (q : Request) (ptr : Nat), Starts s wakeForm path tag q ptr →
     sendsPattern q.params = false →
      Answers (.wakeConfig path tag) s (fun d => d = ((s.dev.started q ptr).modLantern (fun l =>
        { l with wakeCtrl := BitVec.ofNat 64 (field q.params 0 8 &&& wakeCtrlMask), linkEnLo := BitVec.ofNat 64 (field q.params 8 8),
                 linkEnHi := BitVec.ofNat 64 (field q.params 16 8) })).finish path tag Ocm.ok [])) ∧
  -- LINK_PATTERN_SEND (R509)
  (∀ (s : State) (path : Path) (tag : Nat) (q : Request) (ptr p : Nat) (a : Dev), Starts s wakeForm path tag q ptr →
     sendsPattern q.params = true → p = patternPort q.params → a = s.dev.started q ptr → a.lantern.state < 2 →
     ((a.port p).train.state = .disabled ∨ (a.port p).train.state = .detect ∨ (a.port p).train.state = .backoff) →
      Answers (.linkPatternSend path tag) s (fun d => ∃ b : Dev, b = a.emit (.ckOut p 3) ∧
        d = Dev.finish (if (b.port p).enable && b.mayTrain p then b.toDetect p causeRequest else b.toDisabled p (!(b.port p).enable)) path tag Ocm.ok [])) ∧
  -- POWER_STATUS (R509)
  (∀ (s : State) (path : Path) (tag : Nat) (q : Request) (ptr : Nat) (a : Dev),
     Starts s (Form.fixed 0x1002 0 [] 40) path tag q ptr → a = s.dev.started q ptr →
      Answers (.powerStatus path tag) s (fun d => d = a.finish path tag Ocm.ok (leBytes 8 a.pwrState ++ leBytes 8 a.lantern.wakeSrc.word ++
        leBytes 8 a.lantern.wakeCtrl.toNat ++ leBytes 8 a.lantern.linkEnLo.toNat ++ leBytes 8 a.lantern.linkEnHi.toNat)))

/-- Start-up, attestation and CHIP_RESET answer the state of chapter 17 (R512, R516, R528, R529, R530).
Each clause names the conditions on the state and the operands, and what the next state is.
The model's choice, not the rules': log entries 4, 5, 6, 44 and 48 (4: unwritten flash reads 0xFF; 5 and 6: keys, digests and signatures are opaque; 44: readings of start-up; 48: ATTEST takes two rows). -/
def Obligations.StartupAndAttestationComplete : Prop :=
  -- BOOT_START (R512)
  (∀ (s : State) (readFails : List Bool) (x : Boot × List (Nat × List Byte)) (a b c : Dev), s.dev.boot.stage = .released →
     x = s.chooseBoot readFails → a = Dev.loadRecord { s.dev with boot := x.1 } x.2 →
     (b = if a.lantern.retainValid && !x.1.recovery then a.restore else a) →
     (c = if x.1.recovery then b.raise Isl.warden (Src.chip 0) 1 0 else b) →
      Answers (.bootStart readFails) s (fun d =>
        d = Dev.bringUp (if x.1.configDefault then c.raise Isl.warden (Src.chip 0) 3 0 else c))) ∧
  -- ENGINE_CODE_LOAD (R516)
  (∀ (s : State) (readFail : Bool) (a : Dev), s.dev.wardenRuns = true → s.dev.gatesRun = true → s.dev.unloaded ≠ [] →
     s.dev.boot.recovery = false → s.dev.boot.engineLoaded = false → s.dev.boot.engineFail = false →
     a = forEach (List.range 64) (fun b d => d.modBlock b (fun x => { x with version := s.dev.boot.version, code := slotSection s.flash s.dev.boot.slot 32 })) { s.dev with boot := { s.dev.boot with engineLoaded := true } } →
      Answers (.engineCodeLoad readFail) s (fun d =>
        (readFail = false → engineGood s.flash s.dev.boot.slot = true → d = forEach a.unloaded (fun b d => d.runLoaded b) a) ∧
        (readFail = true ∨ engineGood s.flash s.dev.boot.slot = false → ∃ e : Dev,
          e = forEach (List.range 64) (fun b d => (d.setBlock b .off).moveItems b) s.dev ∧
          d = Dev.raise { e with boot := { e.boot with engineFail := true } } Isl.warden (Src.chip 0) 2 0))) ∧
  -- ATTEST (R529)
  (∀ (s : State) (path : Path) (tag : Nat) (q : Request) (ptr : Nat), s.dev.warden.exec path tag = none →
     Starts s (Form.fixed 0x1110 32 [] 644) path tag q ptr →
      Answers (.attest path tag) s (fun d =>
        d = ((s.dev.started q ptr).modExec path tag (fun x => { x with a := 0, b := 0, data := [] })).answerBad 256)) ∧
  -- ATTEST (R529)
  (∀ (s : State) (path : Path) (tag : Nat) (x : Exec) (b : List Byte), s.dev.wardenRuns = true →
     s.dev.warden.exec path tag = some x → x.opcode = 0x1110 → b = s.report x.req.params →
      Answers (.attest path tag) s (fun d => d = s.dev.finish path tag Ocm.ok (b ++ Config.identitySign b ++ zeros 2))) ∧
  -- IDENTITY_CERT (R528)
  (∀ (s : State) (path : Path) (tag : Nat) (q : Request) (ptr : Nat), Starts s (Form.fixed 0x1111 0 [] 196) path tag q ptr →
      Answers (.identityCert path tag) s (fun d => d = (s.dev.started q ptr).finish path tag Ocm.ok certBytes)) ∧
  -- CHIP_RESET (R530)
  (∀ (s : State) (path : Path) (tag : Nat) (q : Request) (ptr delay : Nat) (a : Dev),
     Starts s (Form.fixed 0x1120 8 [(32, 63)] 0) path tag q ptr → a = s.dev.started q ptr →
     (delay = if field q.params 0 4 = 0 then 100 else field q.params 0 4) → (100 ≤ delay ∧ delay ≤ 1000000) →
      Answers (.chipReset path tag) s (fun d => d = Dev.finish { a with boot := { a.boot with resetAt := some (a.wardenNow + 1000 * delay) } }
        path tag Ocm.ok [])) ∧
  -- CHIP_RESET_DELAY_END (R530)
  (∀ (s : State) (t : Nat), s.dev.wardenRuns = true → s.dev.boot.resetAt = some t → t ≤ s.dev.wardenNow →
      Answers .chipResetDelayEnd s (fun d =>
        d = s.dev.resetAll 2 (allRegions.foldl (fun n r => n + (s.dev.region r).cellsUsed) 0)))

/-- The flash and image commands answer the state of chapter 17 (R525, R526, R527).
Each clause names the conditions on the state and the operands, and what the next state is.
The model's choice, not the rules': log entries 4, 6, 8, 44 and 48 (4: unwritten flash reads 0xFF, and a program clears bits alone; 8: a page or sector that the flash reports as failed holds free values; 48: one row is one sector, one page or one stage). -/
def Obligations.FlashAndImageCommandsComplete : Prop :=
  -- FLASH_READ (R525)
  (∀ (s : State) (path : Path) (tag : Nat) (q : Request) (ptr : Nat), Starts s readForm path tag q ptr →
     (4 ≤ flashLen q.params ∧ flashLen q.params ≤ 4080 ∧ flashLen q.params % 4 = 0) →
     (flashAddr q.params % 4 = 0 ∧ flashAddr q.params < 2 ^ 26) →
      Answers (.flashRead path tag) s (fun d => d = (s.dev.started q ptr).finish path tag Ocm.ok
        (flashRead s.flash (flashAddr q.params) (flashLen q.params)))) ∧
  -- FLASH_ERASE (R526)
  (∀ (s : State) (path : Path) (tag : Nat) (q : Request) (ptr a n : Nat) (b : Dev), s.dev.warden.exec path tag = none →
     Starts s (Form.fixed 0x1102 8 [] 0) path tag q ptr → a = flashAddr q.params → n = flashLen q.params → a % 4096 = 0 →
     (1 ≤ n ∧ n ≤ 16384) → (s.dev.started q ptr).boot.protects a (4096 * n) = false →
     b = (s.dev.started q ptr).emit (.spi 0 a []) →
      ∃ d : Dev, exec (.flashErase path tag false) s = .next { s with
          dev := d, flash := s.flash.filter (fun c => !(a ≤ c.1 && c.1 < a + 4096)) } ∧
        (n = 1 → d = b.finish path tag Ocm.ok []) ∧
        (1 < n → d = (b.modExec path tag (fun x => { x with a := 1, b := 0, data := [] })).answerBad 256)) ∧
  -- FLASH_ERASE (R526)
  (∀ (s : State) (path : Path) (tag : Nat) (x : Exec) (a n : Nat) (b : Dev), s.dev.wardenRuns = true →
     s.dev.warden.exec path tag = some x → x.opcode = 0x1102 → a = flashAddr x.req.params + 4096 * x.a →
     n = flashLen x.req.params → b = s.dev.emit (.spi 0 a []) →
      ∃ d : Dev, exec (.flashErase path tag false) s = .next { s with
          dev := d, flash := s.flash.filter (fun c => !(a ≤ c.1 && c.1 < a + 4096)) } ∧
        (n ≤ x.a + 1 → d = b.finish path tag Ocm.ok []) ∧
        (x.a + 1 < n → d = (b.modExec path tag (fun y => { y with a := x.a + 1, b := 0, data := [] })).answerBad 256)) ∧
  -- FLASH_ERASE (R526)
  (∀ (s t : State) (path : Path) (tag : Nat) (x : Exec) (a : Nat), s.dev.wardenRuns = true → s.dev.warden.exec path tag = some x →
     x.opcode = 0x1102 → a = flashAddr x.req.params + 4096 * x.a →
     t = State.spoil { s with dev := s.dev.emit (.spi 0 a []) } a 4096 →
      exec (.flashErase path tag true) s = .next { t with dev := t.dev.finish path tag Ocm.hardwareFault [] }) ∧
  -- FLASH_WRITE (R526)
  (∀ (s t : State) (path : Path) (tag : Nat) (q : Request) (ptr a n : Nat) (data page : List Byte),
     s.dev.warden.exec path tag = none → Starts s writeForm path tag q ptr → a = flashAddr q.params → n = flashLen q.params →
     (a % 4 = 0 ∧ n % 4 = 0 ∧ n ≤ 3944 ∧ n ≠ 0) → (s.dev.started q ptr).boot.protects a n = false →
     data = sliceBytes q.params 8 n → page = data.take (256 - a % 256) →
     t = State.program { s with dev := s.dev.started q ptr } a page → Sys2Proof.Machine.flashRead t.flash a page.length = page →
      ∃ d : Dev, exec (.flashWrite path tag false) s = .next { t with dev := d } ∧
        (data.drop page.length = [] → d = t.dev.finish path tag Ocm.ok []) ∧
        (data.drop page.length ≠ [] → d = (t.dev.modExec path tag (fun x =>
          { x with a := a + page.length, b := 0, data := data.drop page.length })).answerBad 256)) ∧
  -- FLASH_WRITE (R526)
  (∀ (s t : State) (path : Path) (tag : Nat) (x : Exec) (page : List Byte), s.dev.wardenRuns = true →
     s.dev.warden.exec path tag = some x → x.opcode = 0x1103 → page = x.data.take (256 - x.a % 256) → t = s.program x.a page →
     Sys2Proof.Machine.flashRead t.flash x.a page.length = page →
      ∃ d : Dev, exec (.flashWrite path tag false) s = .next { t with dev := d } ∧
        (x.data.drop page.length = [] → d = t.dev.finish path tag Ocm.ok []) ∧
        (x.data.drop page.length ≠ [] → d = (t.dev.modExec path tag (fun y =>
          { y with a := x.a + page.length, b := 0, data := x.data.drop page.length })).answerBad 256)) ∧
  -- FLASH_WRITE (R526)
  (∀ (s t : State) (path : Path) (tag : Nat) (x : Exec), s.dev.wardenRuns = true → s.dev.warden.exec path tag = some x →
     x.opcode = 0x1103 → t = s.spoil x.a (x.data.take (256 - x.a % 256)).length →
      exec (.flashWrite path tag true) s = .next { t with dev := t.dev.finish path tag Ocm.hardwareFault [] }) ∧
  -- IMAGE_ACTIVATE (R527)
  (∀ (s : State) (path : Path) (tag : Nat) (q : Request) (ptr : Nat), s.dev.warden.exec path tag = none →
     Starts s (Form.fixed 0x1104 8 [(3, 63)] 8) path tag q ptr →
     imageFail s.flash s.fuses (bits (byteAt q.params 0) 0 0) false = 0 →
      Answers (.imageActivate path tag false) s (fun d =>
        d = ((s.dev.started q ptr).modExec path tag (fun x => { x with a := 0, b := 0, data := [] })).answerBad 256)) ∧
  -- IMAGE_ACTIVATE (R527)
  (∀ (s t : State) (path : Path) (tag : Nat) (readFail : Bool) (x : Exec) (slot : Nat), s.dev.wardenRuns = true →
     s.dev.warden.exec path tag = some x → x.opcode = 0x1104 → slot = bits (byteAt x.req.params 0) 0 0 →
     (bit (byteAt x.req.params 0) 2 = false ∨ (s.fuses.ownerFused = false ∧ s.dev.boot.ownerKey.isEmpty = false)) →
     t = (s.writeDir slot).burn (bit (byteAt x.req.params 0) 1) (bit (byteAt x.req.params 0) 2) →
      exec (.imageActivate path tag readFail) s = .next { t with dev := t.dev.finish path tag Ocm.ok (leBytes 8 t.fuses.status) })

/-- Memory errors and the error window answer the state of chapter 18 (R533, R534, R536, R537).
Each clause names the conditions on the state and the operands, and what the next state is.
The model's choice, not the rules': log entries 9, 14 and 45 (9 and 45: a window that has ended is judged before an error counts; 14: numbers of banks; 45: what is disposed of). -/
def Obligations.ErrorEventsComplete : Prop :=
  -- SECDED_CORRECTION (R533)
  (∀ (s : State) (r : Fin 4), s.dev.scopeRuns (.region r) = true → s.dev.wardenRuns = true →
      Answers (.secdedCorrection (.region r) true) s (fun d => ∃ a : Dev, a = (s.dev.count (Ctr.hbmCorrected r)).errorWindowEnd ∧
        d = { a with errRise := tput a.errRise r ((tgetD a.errRise r (0, 0)).1, (tgetD a.errRise r (0, 0)).2 + 1) }) ∧
      Answers (.secdedCorrection (.region r) false) s (fun d => ∃ a : Dev, a = (s.dev.count (Ctr.secdedCorrected r)).errorWindowEnd ∧
        d = { a with errRise := tput a.errRise r ((tgetD a.errRise r (0, 0)).1 + 1, (tgetD a.errRise r (0, 0)).2) }) ∧
      (∀ hbm, Answers (.secdedCorrection .chip hbm) s (fun d => d = s.dev.count Ctr.chipSecdedCorrected)) ∧
      (∀ b : Fin 64, s.dev.blockRuns b = true → ∀ hbm, Answers (.secdedCorrection (.block b) hbm) s (fun d => ∃ a : Dev,
        a = (s.dev.count (Ctr.blockSecdedCorrected b)).errorWindowEnd ∧
        d = { a with errRise := tput a.errRise (b / 16 : Nat) ((tgetD a.errRise (b / 16 : Nat) (0, 0)).1 + 1,
                       (tgetD a.errRise (b / 16 : Nat) (0, 0)).2) }))) ∧
  -- UNCORRECTABLE_ERROR (R534)
  (∀ (s : State) (scope : ErrScope) (what : ErrData) (a : Dev), s.dev.scopeRuns scope = true → s.dev.silentError what = false →
     a = s.dev.count (dropsCtr scope) →
      Answers (.uncorrectableError scope what) s (fun d =>
        (scope = .chip → d = (a.raise Isl.warden (Src.chip 8) 0 0).dispose what) ∧
        (∀ r, scope = .region r → cellError what = false → d = (a.raise (Isl.belfry r) (Src.region r 7) 0 0).dispose what) ∧
        (∀ r, scope = .region r → cellError what = true → d = a.dispose what) ∧
        (∀ b, scope = .block b → d = a.dispose what))) ∧
  -- SPARE_COPY (R536)
  (∀ (s : State) (r : Fin 4) (array bank : Nat) (dropped : List ErrData), s.dev.scopeRuns (.region r) = true →
     s.dev.quarantine.copying.contains (r.val, array, bank) = true →
      Answers (.spareCopy r array bank dropped) s (fun d =>
        d = (forEach dropped (fun w d => d.uncorrectable (.region r) w) s.dev).modQuarantine (fun z =>
          { z with copying := z.copying.erase (r.val, array, bank) }))) ∧
  -- ERROR_WINDOW_END (R537)
  (∀ (s : State) (a : Dev) (n : Nat), s.dev.wardenRuns = true → n = (s.dev.wardenNow - s.dev.errStart) / 1000000000 → 1 ≤ n →
     a = forEach allRegions (fun r d => (d.limitEvent r 4 r (tgetD d.errRise r (0, 0)).1 d.corrLimit).limitEvent r 5 (4 + r) (tgetD d.errRise r (0, 0)).2 d.hbmCorrLimit) s.dev →
      Answers .errorWindowEnd s (fun d => d = { a with errStart := a.errStart + 1000000000 * n, errRise := [] }))

/-- Events, hold-off and the event commands answer the state of chapter 18 (R539, R549, R553, R554).
Each clause names the conditions on the state and the operands, and what the next state is.
The model's choice, not the rules': log entry 46 (a raise counts when the Warden registers it, and what an injected one counts in). -/
def Obligations.EventCommandsComplete : Prop :=
  -- EVENT_RAISE (R549)
  (∀ (s : State) (x : Raise) (rest : List Raise), s.dev.wardenRuns = true → s.dev.raises = x :: rest →
      Answers .eventRaise s (fun d => d = ((((Dev.count { s.dev with raises := rest } Ctr.eventsRaised).modEvents (fun v =>
        { v with pending := putBit v.pending x.source true, setAt := s.dev.wardenNow,
                 setMask := putBit (if v.setAt = s.dev.wardenNow then v.setMask else 0) x.source true })).recordRaise x).refreshSummaries))) ∧
  -- HOLDOFF_END (R549)
  (∀ (s : State) (src : Fin 1408) (w : Window), s.dev.wardenRuns = true → tget s.dev.events.windows src = some w →
     w.ends ≤ s.dev.wardenNow →
      Answers (.holdoffEnd src) s (fun d => d = s.dev.endWindow src true)) ∧
  -- EVENT_MAP_SET (R553)
  (∀ (s : State) (path : Path) (tag : Nat) (q : Request) (ptr : Nat) (a : Dev) (entries : List (Nat × Nat)),
     Starts s mapSetForm path tag q ptr → a = s.dev.started q ptr →
     entries = (List.range (mapCount q.params)).map (fun i => (mapFirst q.params + i, field q.params (8 + 8 * i) 8)) →
     (1 ≤ mapCount q.params ∧ mapCount q.params ≤ 509) → mapFirst q.params + mapCount q.params ≤ 1408 →
     entries.all (fun x => a.mapOk x.2) = true →
      Answers (.eventMapSet path tag) s (fun d =>
        d = (forEach entries (fun x d => d.setMap x.1 x.2) a).refreshSummaries.finish path tag Ocm.ok [])) ∧
  -- EVENT_MAP_READ (R553)
  (∀ (s : State) (path : Path) (tag : Nat) (q : Request) (ptr : Nat) (a : Dev), Starts s mapReadForm path tag q ptr →
     a = s.dev.started q ptr → (1 ≤ mapCount q.params ∧ mapCount q.params ≤ 510) → mapFirst q.params + mapCount q.params ≤ 1408 →
      Answers (.eventMapRead path tag) s (fun d => d = a.finish path tag Ocm.ok
        ((List.range (mapCount q.params)).flatMap (fun i => leBytes 8 (a.evtMap (mapFirst q.params + i)))))) ∧
  -- EVENT_INJECT (R554)
  (∀ (s : State) (path : Path) (tag : Nat) (q : Request) (ptr : Nat) (a : Dev),
     Starts s (Form.fixed 0x1204 16 [(32, 63)] 0) path tag q ptr → a = s.dev.started q ptr →
     Src.reserved (field q.params 0 2) = false →
      Answers (.eventInject path tag) s (fun d => d = Dev.finish { a with raises := a.raises ++
        [⟨Isl.warden, field q.params 0 2, field q.params 2 2, field q.params 8 8, a.wardenNow, true⟩] } path tag Ocm.ok [])) ∧
  -- QUARANTINE_READ (R539)
  (∀ (s : State) (path : Path) (tag : Nat) (q : Request) (ptr : Nat) (a : Dev),
     Starts s { Form.fixed 0x1203 0 [] 16 with down := Dev.placeDown } path tag q ptr → a = s.dev.started q ptr →
     (a.quarantine.reply q.level q.index).length ≤ q.replyMax →
      Answers (.quarantineRead path tag) s (fun d => d = a.finish path tag Ocm.ok (a.quarantine.reply q.level q.index)))

/-! ## The HBM -/

/-- From every state in which each region's HBM is in its canonical form (addresses rise, no cell lists the 0 that an unlisted byte
reads as, log entry 4), a step leaves each region's HBM so. -/
def Obligations.EveryStepKeepsTheHbmForm : Prop :=
  ∀ s t : State, (∀ r : Nat, Memory.wf hbmDefault (s.dev.region r).hbm = true) → step s = .next t →
    ∀ r : Nat, Memory.wf hbmDefault (t.dev.region r).hbm = true

/-- After reset each region's HBM is in its canonical form. -/
def Obligations.ResetMeetsTheHbmForm : Prop := ∀ r : Nat, Memory.wf hbmDefault (State.reset.dev.region r).hbm = true
end

