-- ==== Sys2Proof/Laws/Bits.lean ====
section
/-! SUPPORT. Laws of bits: a bit is `testBit`, what setting a bit reads as, and that bytes and two's complement read back. -/

namespace Sys2Proof.Machine

theorem bit_eq_testBit (x i : Nat) : bit x i = x.testBit i := by
  have h : i + 1 - i = 1 := by omega
  simp [bit, bits, Nat.testBit, h, Nat.one_and_eq_mod_two]

@[simp] theorem bit_putBit_same (x i : Nat) (b : Bool) : bit (putBit x i b) i = b := by
  unfold putBit
  by_cases h : bit x i = b
  · simp [h]
  · have hx : bit x i = !b := by revert h; cases bit x i <;> cases b <;> decide
    simp only [beq_iff_eq, h, if_false]
    cases b
    · have ht : x.testBit i = true := by rw [← bit_eq_testBit, hx]; rfl
      have hge : 2 ^ i ≤ x := Nat.ge_two_pow_of_testBit ht
      have hs : (2 ^ i + (x - 2 ^ i)).testBit i = !(x - 2 ^ i).testBit i := Nat.testBit_two_pow_add_eq _ _
      rw [Nat.add_sub_cancel' hge, ht] at hs
      simp only [Bool.false_eq_true, if_false]
      rw [bit_eq_testBit]
      cases hc : (x - 2 ^ i).testBit i
      · rfl
      · rw [hc] at hs; exact absurd hs (by decide)
    · have ht : x.testBit i = false := by rw [← bit_eq_testBit, hx]; rfl
      simp only [if_true]
      rw [bit_eq_testBit, Nat.add_comm, Nat.testBit_two_pow_add_eq, ht]
      rfl

theorem testBit_add_two_pow_other {z i j : Nat} (hz : z.testBit i = false) (h : j ≠ i) : (2 ^ i + z).testBit j = z.testBit j := by
  rcases Nat.lt_or_gt_of_ne h with h | h
  · exact Nat.testBit_two_pow_add_gt h z
  · obtain ⟨n, rfl⟩ : ∃ n, j = i + (n + 1) := ⟨j - i - 1, by omega⟩
    have e : ∀ y : Nat, y.testBit (i + (n + 1)) = (y / 2 ^ i / 2).testBit n := by
      intro y
      rw [← Nat.testBit_succ, Nat.testBit_div_two_pow, Nat.add_comm]
    rw [e, e, Nat.add_div_left _ (Nat.two_pow_pos i)]
    have he : z / 2 ^ i % 2 = 0 := by
      rw [Nat.testBit_eq_decide_div_mod_eq] at hz
      simp at hz; omega
    congr 1; omega
/-- The other bits stay as they are. -/
theorem bit_putBit_other (x : Nat) {i j : Nat} (h : j ≠ i) (b : Bool) : bit (putBit x i b) j = bit x j := by
  unfold putBit
  by_cases hb : bit x i = b
  · simp [hb]
  · simp only [beq_iff_eq, hb, if_false]
    rw [bit_eq_testBit, bit_eq_testBit]
    rw [bit_eq_testBit] at hb
    cases b
    · have ht : x.testBit i = true := by simpa using hb
      have hge : 2 ^ i ≤ x := Nat.ge_two_pow_of_testBit ht
      have hs : (2 ^ i + (x - 2 ^ i)).testBit i = !(x - 2 ^ i).testBit i := Nat.testBit_two_pow_add_eq _ _
      rw [Nat.add_sub_cancel' hge, ht] at hs
      have h0 : (x - 2 ^ i).testBit i = false := by revert hs; cases (x - 2 ^ i).testBit i <;> decide
      have := testBit_add_two_pow_other h0 h
      rw [Nat.add_sub_cancel' hge] at this
      simpa using this.symm
    · have ht : x.testBit i = false := by simpa using hb
      rw [if_pos rfl, Nat.add_comm]
      exact testBit_add_two_pow_other ht h

/-! ## Bytes and two's complement -/

@[simp] theorem leBytes_length (n x : Nat) : (leBytes n x).length = n := by
  induction n generalizing x with
  | zero => rfl
  | succ n ih => simp [leBytes, ih]
theorem leNat_leBytes (n x : Nat) : leNat (leBytes n x) = x % 256 ^ n := by
  induction n generalizing x with
  | zero => simp [leBytes, leNat, Nat.mod_one]
  | succ n ih =>
    simp only [leBytes, leNat, ih, BitVec.toNat_ofNat]
    rw [Nat.pow_succ 256 n, Nat.mul_comm (256 ^ n) 256, Nat.mod_mul]
theorem field_leBytes {n x : Nat} (h : x < 256 ^ n) : field (leBytes n x) 0 n = x := by
  have hl := leBytes_length n x
  simp only [field, sliceBytes, List.drop_zero]
  rw [List.take_of_length_le (by omega), hl, Nat.sub_self, List.replicate_zero, List.append_nil, leNat_leBytes, Nat.mod_eq_of_lt h]

theorem toSigned_ofSigned {w : Nat} (hw : 0 < w) {v : Int} (h1 : -(2 ^ (w - 1) : Int) ≤ v) (h2 : v < (2 ^ (w - 1) : Int)) :
    toSigned w (ofSigned w v) = v := by
  obtain ⟨k, rfl⟩ : ∃ k, w = k + 1 := ⟨w - 1, by omega⟩
  simp only [Nat.add_sub_cancel] at h1 h2
  have hp : (2 ^ (k + 1) : Int) = 2 * 2 ^ k := by rw [Int.pow_succ]; omega
  have hpn : (2 ^ (k + 1) : Nat) = 2 * 2 ^ k := by rw [Nat.pow_succ]; omega
  have hc : ((2 ^ k : Nat) : Int) = (2 : Int) ^ k := by simp
  simp only [toSigned, ofSigned, Nat.add_sub_cancel, bit_eq_testBit]
  generalize hP : (2 ^ k : Nat) = P at *
  have hPpos : 0 < P := by rw [← hP]; exact Nat.two_pow_pos k
  rw [hpn]
  have e1 : Int.ofNat (2 * P) = 2 * (P : Int) := by simp
  rw [e1]
  by_cases hv : 0 ≤ v
  · have hm : (v % (2 * (P : Int))).toNat = v.toNat := by rw [Int.emod_eq_of_lt hv (by omega)]
    rw [hm]
    have ht : v.toNat < 2 ^ k := by rw [hP]; omega
    rw [Nat.testBit_lt_two_pow ht]
    simp only [Bool.false_eq_true, if_false, Int.ofNat_eq_natCast]
    rw [Nat.mod_eq_of_lt (by omega)]
    omega
  · have hm : v % (2 * (P : Int)) = v + 2 * P := by
      rw [← Int.add_emod_right, Int.emod_eq_of_lt (by omega) (by omega)]
    rw [hm]
    have ht : ∃ j, (v + 2 * (P : Int)).toNat = 2 ^ k + j ∧ j < 2 ^ k := ⟨(v + P).toNat, by rw [hP]; omega, by rw [hP]; omega⟩
    obtain ⟨j, hj, hjl⟩ := ht
    rw [hj, Nat.testBit_two_pow_add_eq, Nat.testBit_lt_two_pow hjl]
    simp only [Bool.not_false, if_true]
    rw [hP] at hj hjl ⊢
    rw [Nat.mod_eq_of_lt (by omega)]
    simp only [Int.ofNat_eq_natCast]
    omega

theorem ofSigned_lt (w : Nat) (v : Int) : ofSigned w v < 2 ^ w := by
  unfold ofSigned
  have h : 0 < (2 ^ w : Nat) := Nat.two_pow_pos w
  have h1 := Int.emod_nonneg v (b := Int.ofNat (2 ^ w)) (by simp only [Int.ofNat_eq_natCast]; omega)
  have h2 := Int.emod_lt_of_pos v (b := Int.ofNat (2 ^ w)) (by simp only [Int.ofNat_eq_natCast]; omega)
  simp only [Int.ofNat_eq_natCast] at *
  omega


end Sys2Proof.Machine
end

