-- ==== Sys2Proof/Laws/Table.lean ====
section
/-! SUPPORT. Laws of tables and memories: a read after a write, and that every memory operation keeps the canonical form. -/

namespace Sys2Proof.Machine

/-! ## Tables -/

/-- Entries chosen by key: a key that is chosen keeps its value, one that is not has none. -/
theorem tget_filter_key {α : Type} (t : Tbl α) (p : Nat → Bool) (k : Nat) :
    tget (t.filter (fun e => p e.1)) k = if p k then tget t k else none := by
  induction t with
  | nil => simp [tget]
  | cons e t ih => by_cases hk : e.1 = k <;> by_cases hp : p e.1 = true <;> simp_all [tget]

/-- A lookup in one table and then another. -/
theorem tget_append {α : Type} (s t : Tbl α) (k : Nat) : tget (s ++ t) k = (tget s k).or (tget t k) := by
  induction s with
  | nil => rfl
  | cons e s ih => by_cases hk : e.1 = k <;> simp_all [tget]

@[simp] theorem tget_tput_same {α : Type} (t : Tbl α) (k : Nat) (x : α) : tget (tput t k x) k = some x := by
  have h := tget_filter_key t (fun j => decide (j < k)) k
  simp_all [tput, tget_append, tget]

@[simp] theorem tget_tput_other {α : Type} (t : Tbl α) {k m : Nat} (x : α) (h : m ≠ k) : tget (tput t k x) m = tget t m := by
  have h1 := tget_filter_key t (fun j => decide (j < k)) m
  have h2 := tget_filter_key t (fun j => decide (k < j)) m
  simp only [tput, tget_append, tget, h.symm, if_false, h1, h2]
  rcases Nat.lt_or_gt_of_ne h with hlt | hlt <;> simp [hlt, Nat.lt_asymm hlt]

@[simp] theorem tgetD_tput_same {α : Type} (t : Tbl α) (k : Nat) (x d : α) : tgetD (tput t k x) k d = x := by simp [tgetD]

@[simp] theorem tgetD_tput_other {α : Type} (t : Tbl α) {k m : Nat} (x d : α) (h : m ≠ k) :
    tgetD (tput t k x) m d = tgetD t m d := by simp [tgetD, h]

@[simp] theorem tget_tdrop_same {α : Type} (t : Tbl α) (k : Nat) : tget (tdrop t k) k = none := by
  induction t with
  | nil => rfl
  | cons e t ih =>
    by_cases h : e.1 = k
    · simpa [tdrop, h] using ih
    · simpa [tdrop, h, tget] using ih

@[simp] theorem tget_tdrop_other {α : Type} (t : Tbl α) {k m : Nat} (h : m ≠ k) : tget (tdrop t k) m = tget t m := by
  induction t with
  | nil => rfl
  | cons e t ih =>
    by_cases he : e.1 = k
    · have hm : e.1 ≠ m := fun hx => h (hx.symm.trans he)
      simpa [tdrop, he, tget, Ne.symm h] using ih
    · by_cases hm : e.1 = m
      · simp [tdrop, tget, hm, h]
      · simpa [tdrop, he, tget, hm] using ih

@[simp] theorem tgetD_tdrop_same {α : Type} (t : Tbl α) (k : Nat) (d : α) : tgetD (tdrop t k) k d = d := by simp [tgetD]

@[simp] theorem tgetD_tdrop_other {α : Type} (t : Tbl α) {k m : Nat} (d : α) (h : m ≠ k) :
    tgetD (tdrop t k) m d = tgetD t m d := by simp [tgetD, h]

theorem tget_tmod_same {α : Type} (t : Tbl α) (k : Nat) (f : α → α) : tget (tmod t k f) k = (tget t k).map f := by
  induction t with
  | nil => rfl
  | cons e t ih =>
    by_cases h : e.1 = k
    · simp [tmod, tget, h]
    · simpa [tmod, tget, h] using ih

theorem tget_tmod_other {α : Type} (t : Tbl α) {k m : Nat} (f : α → α) (h : m ≠ k) : tget (tmod t k f) m = tget t m := by
  induction t with
  | nil => rfl
  | cons e t ih =>
    by_cases he : e.1 = k
    · simpa [tmod, tget, he, Ne.symm h] using ih
    · by_cases hm : e.1 = m
      · simp [tmod, tget, hm, h]
      · simpa [tmod, tget, he, hm] using ih

/-! ## Memories -/

/-- The first cell of a memory lies above an address. -/
def Memory.above (a : Nat) : List Host.Cell → Prop
  | [] => True
  | c :: _ => a < c.1

theorem Memory.wf_cons {d : Byte} {c : Host.Cell} {m : List Host.Cell} :
    Memory.wf d (c :: m) = true ↔ c.2 ≠ d ∧ Memory.above c.1 m ∧ Memory.wf d m = true := by
  cases m with
  | nil => simp [Memory.wf, Memory.above]
  | cons e m => simp [Memory.wf, Memory.above, and_assoc]

theorem Memory.read_above {d : Byte} {m : List Host.Cell} {a : Nat} (h : Memory.wf d m = true) (ha : Memory.above a m) :
    Memory.read d m a = d := by
  induction m with
  | nil => rfl
  | cons c m ih =>
    obtain ⟨-, hc, hm⟩ := Memory.wf_cons.1 h
    have hlt : a < c.1 := ha
    have : Memory.above a m := by
      cases m with
      | nil => trivial
      | cons e m => exact Nat.lt_trans hlt hc
    simp [Memory.read, (Nat.ne_of_lt hlt).symm, ih hm this]

/-- A read after a write of the same byte gives the byte written. -/
theorem Memory.read_write_same {d : Byte} {m : List Host.Cell} (h : Memory.wf d m = true) (a : Nat) (b : Byte) :
    Memory.read d (Memory.write d m a b) a = b := by
  induction m with
  | nil => by_cases hb : b = d <;> simp [Memory.write, Memory.read, hb]
  | cons c m ih =>
    obtain ⟨-, hc, hm⟩ := Memory.wf_cons.1 h
    simp only [Memory.write]
    split
    · rename_i hlt
      by_cases hb : b = d
      · have := Memory.read_above h (a := a) hlt; simp [hb, this]
      · simp [hb, Memory.read]
    · split
      · rename_i heq
        by_cases hb : b = d
        · simp [hb, Memory.read_above hm (a := a) (heq ▸ hc)]
        · simp [hb, Memory.read]
      · rename_i hne; simp [Memory.read, Ne.symm hne, ih hm]

/-- A write leaves every other byte alone. -/
theorem Memory.read_write_other {d : Byte} (m : List Host.Cell) {a x : Nat} (b : Byte) (hx : x ≠ a) :
    Memory.read d (Memory.write d m a b) x = Memory.read d m x := by
  induction m with
  | nil => by_cases hb : b = d <;> simp [Memory.write, Memory.read, hb, hx.symm]
  | cons c m ih =>
    simp only [Memory.write]
    split
    · by_cases hb : b = d <;> simp [hb, Memory.read, hx.symm]
    · split
      · rename_i heq; by_cases hb : b = d <;> simp [hb, Memory.read, ← heq, hx.symm]
      · simp [Memory.read, ih]

theorem Memory.write_above {d : Byte} {m : List Host.Cell} {a x : Nat} (b : Byte) (hw : Memory.wf d m = true)
    (hm : Memory.above x m) (ha : x < a) : Memory.above x (Memory.write d m a b) := by
  cases m with
  | nil => by_cases hb : b = d <;> simp [Memory.write, hb, Memory.above, ha]
  | cons c m =>
    have hc : x < c.1 := hm
    obtain ⟨-, habove, -⟩ := Memory.wf_cons.1 hw
    simp only [Memory.write]
    split
    · by_cases hb : b = d <;> simp [hb, Memory.above, ha, hc]
    · split
      · rename_i heq
        by_cases hb : b = d
        · simp only [hb, if_true]
          cases m with
          | nil => trivial
          | cons e m => exact Nat.lt_trans hc habove
        · simp [hb, Memory.above, ha]
      · simpa [Memory.above] using hc

/-- A write keeps the canonical form. -/
theorem Memory.write_wf {d : Byte} {m : List Host.Cell} (h : Memory.wf d m = true) (a : Nat) (b : Byte) :
    Memory.wf d (Memory.write d m a b) = true := by
  induction m with
  | nil => by_cases hb : b = d <;> simp [Memory.write, hb, Memory.wf]
  | cons c m ih =>
    obtain ⟨hcd, hc, hm⟩ := Memory.wf_cons.1 h
    simp only [Memory.write]
    split
    · rename_i hlt
      by_cases hb : b = d
      · simp [hb, h]
      · simp only [hb, if_false]
        exact Memory.wf_cons.2 ⟨hb, hlt, h⟩
    · split
      · rename_i heq
        by_cases hb : b = d
        · simp [hb, hm]
        · simp [hb, Memory.wf_cons, heq, hc, hm]
      · rename_i hn hne
        have hlt : c.1 < a := Nat.lt_of_le_of_ne (Nat.le_of_not_lt hn) (Ne.symm hne)
        exact Memory.wf_cons.2 ⟨hcd, Memory.write_above b hm hc hlt, ih hm⟩

/-- So does a write of several bytes. -/
theorem Memory.writeN_wf {d : Byte} {m : List Host.Cell} (h : Memory.wf d m = true) (a : Nat) (bs : List Byte) :
    Memory.wf d (Memory.writeN d m a bs) = true := by
  induction bs generalizing m a with
  | nil => exact h
  | cons b bs ih => exact ih (Memory.write_wf h a b) (a + 1)

/-- A write of several bytes leaves every byte outside them alone. -/
theorem Memory.read_writeN_other {d : Byte} (m : List Host.Cell) {a x : Nat} (bs : List Byte) (hx : x < a ∨ a + bs.length ≤ x) :
    Memory.read d (Memory.writeN d m a bs) x = Memory.read d m x := by
  induction bs generalizing m a with
  | nil => rfl
  | cons b bs ih =>
    simp only [Memory.writeN]
    have h1 : x < a + 1 ∨ a + 1 + bs.length ≤ x := by simp at hx; omega
    have h2 : x ≠ a := by simp at hx; omega
    rw [ih _ h1, Memory.read_write_other m b h2]

/-- Bytes chosen out of a memory in canonical form are in canonical form. -/
theorem Memory.filter_wf {d : Byte} {m : List Host.Cell} (p : Host.Cell → Bool) (h : Memory.wf d m = true) :
    Memory.wf d (m.filter p) = true ∧ ∀ a, Memory.above a m → Memory.above a (m.filter p) := by
  induction m with
  | nil => exact ⟨rfl, fun _ h => h⟩
  | cons c m ih =>
    obtain ⟨hcd, hc, hm⟩ := Memory.wf_cons.1 h
    obtain ⟨hw, ha⟩ := ih hm
    by_cases hp : p c
    · simp only [List.filter_cons, hp, if_true]
      exact ⟨Memory.wf_cons.2 ⟨hcd, ha _ hc, hw⟩, fun _ h => h⟩
    · simp only [List.filter_cons, hp]
      refine ⟨by simpa using hw, fun a hlt => ?_⟩
      have hlt : a < c.1 := hlt
      have : Memory.above a m := by
        cases m with
        | nil => trivial
        | cons e m => exact Nat.lt_trans hlt hc
      simpa using ha a this

/-- What several bytes were written as is what they read as. -/
theorem Memory.readN_writeN {m : List Host.Cell} {dflt : Byte} (h : Memory.wf dflt m = true) (a : Nat) (bs : List Byte) :
    Memory.readN dflt (Memory.writeN dflt m a bs) a bs.length = bs := by
  induction bs generalizing m a with
  | nil => rfl
  | cons b bs ih =>
    simp only [Memory.writeN, List.length_cons, Memory.readN]
    rw [ih (Memory.write_wf h a b), Memory.read_writeN_other _ bs (Or.inl (by omega)), Memory.read_write_same h]
theorem Memory.map_read (m : List Host.Cell) (dflt : Byte) (a n : Nat) :
    (List.range n).map (fun i => Memory.read dflt m (a + i)) = Memory.readN dflt m a n := by
  induction n generalizing a with
  | zero => rfl
  | succ n ih =>
    rw [List.range_succ_eq_map]
    simp only [List.map_cons, List.map_map, Memory.readN, ← ih (a + 1)]
    simp [Function.comp_def, Nat.add_comm, Nat.add_left_comm]

/-- Bytes chosen out by address leave the rest as they read. -/
theorem Memory.read_filter {d : Byte} {m : List Host.Cell} (p : Host.Cell → Bool) (a : Nat)
    (hp : ∀ b, p (a, b) = true) : Memory.read d (m.filter p) a = Memory.read d m a := by
  induction m with
  | nil => rfl
  | cons c m ih =>
    obtain ⟨x, b⟩ := c
    by_cases hx : x = a
    · subst hx; simp [hp b, Memory.read]
    · by_cases hpc : p (x, b) = true <;> simp [hpc, Memory.read, hx, ih]


end Sys2Proof.Machine
end

