-- ==== Sys2Proof/Laws/State.lean ====
section
/-! SUPPORT. What each update of the device leaves as it was, one lemma per field, and what each accessor reads after it. -/

namespace Sys2Proof.Machine

/-! ## One lemma per field per update -/

@[simp] theorem Dev.countBy_now (d : Dev) (n k : Nat) : (d.countBy n k).now = d.now := rfl
@[simp] theorem Dev.countBy_skews (d : Dev) (n k : Nat) : (d.countBy n k).skews = d.skews := rfl
@[simp] theorem Dev.countBy_free (d : Dev) (n k : Nat) : (d.countBy n k).free = d.free := rfl
@[simp] theorem Dev.countBy_nextId (d : Dev) (n k : Nat) : (d.countBy n k).nextId = d.nextId := rfl
@[simp] theorem Dev.countBy_out (d : Dev) (n k : Nat) : (d.countBy n k).out = d.out := rfl
@[simp] theorem Dev.countBy_raises (d : Dev) (n k : Nat) : (d.countBy n k).raises = d.raises := rfl
@[simp] theorem Dev.countBy_events (d : Dev) (n k : Nat) : (d.countBy n k).events = d.events := rfl
@[simp] theorem Dev.countBy_lantern (d : Dev) (n k : Nat) : (d.countBy n k).lantern = d.lantern := rfl
@[simp] theorem Dev.countBy_cages (d : Dev) (n k : Nat) : (d.countBy n k).cages = d.cages := rfl
@[simp] theorem Dev.countBy_ports (d : Dev) (n k : Nat) : (d.countBy n k).ports = d.ports := rfl
@[simp] theorem Dev.countBy_chip (d : Dev) (n k : Nat) : (d.countBy n k).chip = d.chip := rfl
@[simp] theorem Dev.countBy_regions (d : Dev) (n k : Nat) : (d.countBy n k).regions = d.regions := rfl
@[simp] theorem Dev.countBy_gates (d : Dev) (n k : Nat) : (d.countBy n k).gates = d.gates := rfl
@[simp] theorem Dev.countBy_eps (d : Dev) (n k : Nat) : (d.countBy n k).eps = d.eps := rfl
@[simp] theorem Dev.countBy_warden (d : Dev) (n k : Nat) : (d.countBy n k).warden = d.warden := rfl
@[simp] theorem Dev.countBy_epochs (d : Dev) (n k : Nat) : (d.countBy n k).epochs = d.epochs := rfl
@[simp] theorem Dev.countBy_twin (d : Dev) (n k : Nat) : (d.countBy n k).twin = d.twin := rfl
@[simp] theorem Dev.countBy_blocks (d : Dev) (n k : Nat) : (d.countBy n k).blocks = d.blocks := rfl
@[simp] theorem Dev.countBy_boot (d : Dev) (n k : Nat) : (d.countBy n k).boot = d.boot := rfl
@[simp] theorem Dev.countBy_errCtrl (d : Dev) (n k : Nat) : (d.countBy n k).errCtrl = d.errCtrl := rfl
@[simp] theorem Dev.countBy_errStart (d : Dev) (n k : Nat) : (d.countBy n k).errStart = d.errStart := rfl
@[simp] theorem Dev.countBy_errRise (d : Dev) (n k : Nat) : (d.countBy n k).errRise = d.errRise := rfl
@[simp] theorem Dev.countBy_errRaised (d : Dev) (n k : Nat) : (d.countBy n k).errRaised = d.errRaised := rfl
@[simp] theorem Dev.countBy_quarantine (d : Dev) (n k : Nat) : (d.countBy n k).quarantine = d.quarantine := rfl
@[simp] theorem Dev.countBy_port (d : Dev) (n k : Nat) (m : Nat) : (d.countBy n k).port m = d.port m := rfl
@[simp] theorem Dev.countBy_region (d : Dev) (n k : Nat) (m : Nat) : (d.countBy n k).region m = d.region m := rfl
@[simp] theorem Dev.countBy_gate (d : Dev) (n k : Nat) (m : Nat) : (d.countBy n k).gate m = d.gate m := rfl
@[simp] theorem Dev.countBy_ep (d : Dev) (n k : Nat) (m : Nat) : (d.countBy n k).ep m = d.ep m := rfl
@[simp] theorem Dev.countBy_block (d : Dev) (n k : Nat) (m : Nat) : (d.countBy n k).block m = d.block m := rfl
@[simp] theorem Dev.countBy_cage (d : Dev) (n k : Nat) (m : Nat) : (d.countBy n k).cage m = d.cage m := rfl
@[simp] theorem Dev.countBy_clk (d : Dev) (n k : Nat) (m : Nat) : (d.countBy n k).clk m = d.clk m := rfl
@[simp] theorem Dev.countBy_belfryNow (d : Dev) (n k : Nat) (m : Nat) : (d.countBy n k).belfryNow m = d.belfryNow m := rfl
@[simp] theorem Dev.countBy_gateNow (d : Dev) (n k : Nat) (m : Nat) : (d.countBy n k).gateNow m = d.gateNow m := rfl
@[simp] theorem Dev.countBy_wardenNow (d : Dev) (n k : Nat) : (d.countBy n k).wardenNow = d.wardenNow := rfl
@[simp] theorem Dev.countBy_lanternNow (d : Dev) (n k : Nat) : (d.countBy n k).lanternNow = d.lanternNow := rfl
@[simp] theorem Dev.count_now (d : Dev) (n : Nat) : (d.count n).now = d.now := rfl
@[simp] theorem Dev.count_skews (d : Dev) (n : Nat) : (d.count n).skews = d.skews := rfl
@[simp] theorem Dev.count_free (d : Dev) (n : Nat) : (d.count n).free = d.free := rfl
@[simp] theorem Dev.count_nextId (d : Dev) (n : Nat) : (d.count n).nextId = d.nextId := rfl
@[simp] theorem Dev.count_out (d : Dev) (n : Nat) : (d.count n).out = d.out := rfl
@[simp] theorem Dev.count_raises (d : Dev) (n : Nat) : (d.count n).raises = d.raises := rfl
@[simp] theorem Dev.count_events (d : Dev) (n : Nat) : (d.count n).events = d.events := rfl
@[simp] theorem Dev.count_lantern (d : Dev) (n : Nat) : (d.count n).lantern = d.lantern := rfl
@[simp] theorem Dev.count_cages (d : Dev) (n : Nat) : (d.count n).cages = d.cages := rfl
@[simp] theorem Dev.count_ports (d : Dev) (n : Nat) : (d.count n).ports = d.ports := rfl
@[simp] theorem Dev.count_chip (d : Dev) (n : Nat) : (d.count n).chip = d.chip := rfl
@[simp] theorem Dev.count_regions (d : Dev) (n : Nat) : (d.count n).regions = d.regions := rfl
@[simp] theorem Dev.count_gates (d : Dev) (n : Nat) : (d.count n).gates = d.gates := rfl
@[simp] theorem Dev.count_eps (d : Dev) (n : Nat) : (d.count n).eps = d.eps := rfl
@[simp] theorem Dev.count_warden (d : Dev) (n : Nat) : (d.count n).warden = d.warden := rfl
@[simp] theorem Dev.count_epochs (d : Dev) (n : Nat) : (d.count n).epochs = d.epochs := rfl
@[simp] theorem Dev.count_twin (d : Dev) (n : Nat) : (d.count n).twin = d.twin := rfl
@[simp] theorem Dev.count_blocks (d : Dev) (n : Nat) : (d.count n).blocks = d.blocks := rfl
@[simp] theorem Dev.count_boot (d : Dev) (n : Nat) : (d.count n).boot = d.boot := rfl
@[simp] theorem Dev.count_errCtrl (d : Dev) (n : Nat) : (d.count n).errCtrl = d.errCtrl := rfl
@[simp] theorem Dev.count_errStart (d : Dev) (n : Nat) : (d.count n).errStart = d.errStart := rfl
@[simp] theorem Dev.count_errRise (d : Dev) (n : Nat) : (d.count n).errRise = d.errRise := rfl
@[simp] theorem Dev.count_errRaised (d : Dev) (n : Nat) : (d.count n).errRaised = d.errRaised := rfl
@[simp] theorem Dev.count_quarantine (d : Dev) (n : Nat) : (d.count n).quarantine = d.quarantine := rfl
@[simp] theorem Dev.count_port (d : Dev) (n : Nat) (m : Nat) : (d.count n).port m = d.port m := rfl
@[simp] theorem Dev.count_region (d : Dev) (n : Nat) (m : Nat) : (d.count n).region m = d.region m := rfl
@[simp] theorem Dev.count_gate (d : Dev) (n : Nat) (m : Nat) : (d.count n).gate m = d.gate m := rfl
@[simp] theorem Dev.count_ep (d : Dev) (n : Nat) (m : Nat) : (d.count n).ep m = d.ep m := rfl
@[simp] theorem Dev.count_block (d : Dev) (n : Nat) (m : Nat) : (d.count n).block m = d.block m := rfl
@[simp] theorem Dev.count_cage (d : Dev) (n : Nat) (m : Nat) : (d.count n).cage m = d.cage m := rfl
@[simp] theorem Dev.count_clk (d : Dev) (n : Nat) (m : Nat) : (d.count n).clk m = d.clk m := rfl
@[simp] theorem Dev.count_belfryNow (d : Dev) (n : Nat) (m : Nat) : (d.count n).belfryNow m = d.belfryNow m := rfl
@[simp] theorem Dev.count_gateNow (d : Dev) (n : Nat) (m : Nat) : (d.count n).gateNow m = d.gateNow m := rfl
@[simp] theorem Dev.count_wardenNow (d : Dev) (n : Nat) : (d.count n).wardenNow = d.wardenNow := rfl
@[simp] theorem Dev.count_lanternNow (d : Dev) (n : Nat) : (d.count n).lanternNow = d.lanternNow := rfl
@[simp] theorem Dev.clearCounter_now (d : Dev) (n : Nat) : (d.clearCounter n).now = d.now := rfl
@[simp] theorem Dev.clearCounter_skews (d : Dev) (n : Nat) : (d.clearCounter n).skews = d.skews := rfl
@[simp] theorem Dev.clearCounter_free (d : Dev) (n : Nat) : (d.clearCounter n).free = d.free := rfl
@[simp] theorem Dev.clearCounter_nextId (d : Dev) (n : Nat) : (d.clearCounter n).nextId = d.nextId := rfl
@[simp] theorem Dev.clearCounter_out (d : Dev) (n : Nat) : (d.clearCounter n).out = d.out := rfl
@[simp] theorem Dev.clearCounter_raises (d : Dev) (n : Nat) : (d.clearCounter n).raises = d.raises := rfl
@[simp] theorem Dev.clearCounter_events (d : Dev) (n : Nat) : (d.clearCounter n).events = d.events := rfl
@[simp] theorem Dev.clearCounter_lantern (d : Dev) (n : Nat) : (d.clearCounter n).lantern = d.lantern := rfl
@[simp] theorem Dev.clearCounter_cages (d : Dev) (n : Nat) : (d.clearCounter n).cages = d.cages := rfl
@[simp] theorem Dev.clearCounter_ports (d : Dev) (n : Nat) : (d.clearCounter n).ports = d.ports := rfl
@[simp] theorem Dev.clearCounter_chip (d : Dev) (n : Nat) : (d.clearCounter n).chip = d.chip := rfl
@[simp] theorem Dev.clearCounter_regions (d : Dev) (n : Nat) : (d.clearCounter n).regions = d.regions := rfl
@[simp] theorem Dev.clearCounter_gates (d : Dev) (n : Nat) : (d.clearCounter n).gates = d.gates := rfl
@[simp] theorem Dev.clearCounter_eps (d : Dev) (n : Nat) : (d.clearCounter n).eps = d.eps := rfl
@[simp] theorem Dev.clearCounter_warden (d : Dev) (n : Nat) : (d.clearCounter n).warden = d.warden := rfl
@[simp] theorem Dev.clearCounter_epochs (d : Dev) (n : Nat) : (d.clearCounter n).epochs = d.epochs := rfl
@[simp] theorem Dev.clearCounter_twin (d : Dev) (n : Nat) : (d.clearCounter n).twin = d.twin := rfl
@[simp] theorem Dev.clearCounter_blocks (d : Dev) (n : Nat) : (d.clearCounter n).blocks = d.blocks := rfl
@[simp] theorem Dev.clearCounter_boot (d : Dev) (n : Nat) : (d.clearCounter n).boot = d.boot := rfl
@[simp] theorem Dev.clearCounter_errCtrl (d : Dev) (n : Nat) : (d.clearCounter n).errCtrl = d.errCtrl := rfl
@[simp] theorem Dev.clearCounter_errStart (d : Dev) (n : Nat) : (d.clearCounter n).errStart = d.errStart := rfl
@[simp] theorem Dev.clearCounter_errRise (d : Dev) (n : Nat) : (d.clearCounter n).errRise = d.errRise := rfl
@[simp] theorem Dev.clearCounter_errRaised (d : Dev) (n : Nat) : (d.clearCounter n).errRaised = d.errRaised := rfl
@[simp] theorem Dev.clearCounter_quarantine (d : Dev) (n : Nat) : (d.clearCounter n).quarantine = d.quarantine := rfl
@[simp] theorem Dev.clearCounter_port (d : Dev) (n : Nat) (m : Nat) : (d.clearCounter n).port m = d.port m := rfl
@[simp] theorem Dev.clearCounter_region (d : Dev) (n : Nat) (m : Nat) : (d.clearCounter n).region m = d.region m := rfl
@[simp] theorem Dev.clearCounter_gate (d : Dev) (n : Nat) (m : Nat) : (d.clearCounter n).gate m = d.gate m := rfl
@[simp] theorem Dev.clearCounter_ep (d : Dev) (n : Nat) (m : Nat) : (d.clearCounter n).ep m = d.ep m := rfl
@[simp] theorem Dev.clearCounter_block (d : Dev) (n : Nat) (m : Nat) : (d.clearCounter n).block m = d.block m := rfl
@[simp] theorem Dev.clearCounter_cage (d : Dev) (n : Nat) (m : Nat) : (d.clearCounter n).cage m = d.cage m := rfl
@[simp] theorem Dev.clearCounter_clk (d : Dev) (n : Nat) (m : Nat) : (d.clearCounter n).clk m = d.clk m := rfl
@[simp] theorem Dev.clearCounter_belfryNow (d : Dev) (n : Nat) (m : Nat) : (d.clearCounter n).belfryNow m = d.belfryNow m := rfl
@[simp] theorem Dev.clearCounter_gateNow (d : Dev) (n : Nat) (m : Nat) : (d.clearCounter n).gateNow m = d.gateNow m := rfl
@[simp] theorem Dev.clearCounter_wardenNow (d : Dev) (n : Nat) : (d.clearCounter n).wardenNow = d.wardenNow := rfl
@[simp] theorem Dev.clearCounter_lanternNow (d : Dev) (n : Nat) : (d.clearCounter n).lanternNow = d.lanternNow := rfl
@[simp] theorem Dev.raise_now (d : Dev) (i a b c : Nat) : (d.raise i a b c).now = d.now := rfl
@[simp] theorem Dev.raise_skews (d : Dev) (i a b c : Nat) : (d.raise i a b c).skews = d.skews := rfl
@[simp] theorem Dev.raise_free (d : Dev) (i a b c : Nat) : (d.raise i a b c).free = d.free := rfl
@[simp] theorem Dev.raise_nextId (d : Dev) (i a b c : Nat) : (d.raise i a b c).nextId = d.nextId := rfl
@[simp] theorem Dev.raise_out (d : Dev) (i a b c : Nat) : (d.raise i a b c).out = d.out := rfl
@[simp] theorem Dev.raise_counters (d : Dev) (i a b c : Nat) : (d.raise i a b c).counters = d.counters := rfl
@[simp] theorem Dev.raise_events (d : Dev) (i a b c : Nat) : (d.raise i a b c).events = d.events := rfl
@[simp] theorem Dev.raise_lantern (d : Dev) (i a b c : Nat) : (d.raise i a b c).lantern = d.lantern := rfl
@[simp] theorem Dev.raise_cages (d : Dev) (i a b c : Nat) : (d.raise i a b c).cages = d.cages := rfl
@[simp] theorem Dev.raise_ports (d : Dev) (i a b c : Nat) : (d.raise i a b c).ports = d.ports := rfl
@[simp] theorem Dev.raise_chip (d : Dev) (i a b c : Nat) : (d.raise i a b c).chip = d.chip := rfl
@[simp] theorem Dev.raise_regions (d : Dev) (i a b c : Nat) : (d.raise i a b c).regions = d.regions := rfl
@[simp] theorem Dev.raise_gates (d : Dev) (i a b c : Nat) : (d.raise i a b c).gates = d.gates := rfl
@[simp] theorem Dev.raise_eps (d : Dev) (i a b c : Nat) : (d.raise i a b c).eps = d.eps := rfl
@[simp] theorem Dev.raise_warden (d : Dev) (i a b c : Nat) : (d.raise i a b c).warden = d.warden := rfl
@[simp] theorem Dev.raise_epochs (d : Dev) (i a b c : Nat) : (d.raise i a b c).epochs = d.epochs := rfl
@[simp] theorem Dev.raise_twin (d : Dev) (i a b c : Nat) : (d.raise i a b c).twin = d.twin := rfl
@[simp] theorem Dev.raise_blocks (d : Dev) (i a b c : Nat) : (d.raise i a b c).blocks = d.blocks := rfl
@[simp] theorem Dev.raise_boot (d : Dev) (i a b c : Nat) : (d.raise i a b c).boot = d.boot := rfl
@[simp] theorem Dev.raise_errCtrl (d : Dev) (i a b c : Nat) : (d.raise i a b c).errCtrl = d.errCtrl := rfl
@[simp] theorem Dev.raise_errStart (d : Dev) (i a b c : Nat) : (d.raise i a b c).errStart = d.errStart := rfl
@[simp] theorem Dev.raise_errRise (d : Dev) (i a b c : Nat) : (d.raise i a b c).errRise = d.errRise := rfl
@[simp] theorem Dev.raise_errRaised (d : Dev) (i a b c : Nat) : (d.raise i a b c).errRaised = d.errRaised := rfl
@[simp] theorem Dev.raise_quarantine (d : Dev) (i a b c : Nat) : (d.raise i a b c).quarantine = d.quarantine := rfl
@[simp] theorem Dev.raise_counter (d : Dev) (i a b c : Nat) (m : Nat) : (d.raise i a b c).counter m = d.counter m := rfl
@[simp] theorem Dev.raise_port (d : Dev) (i a b c : Nat) (m : Nat) : (d.raise i a b c).port m = d.port m := rfl
@[simp] theorem Dev.raise_region (d : Dev) (i a b c : Nat) (m : Nat) : (d.raise i a b c).region m = d.region m := rfl
@[simp] theorem Dev.raise_gate (d : Dev) (i a b c : Nat) (m : Nat) : (d.raise i a b c).gate m = d.gate m := rfl
@[simp] theorem Dev.raise_ep (d : Dev) (i a b c : Nat) (m : Nat) : (d.raise i a b c).ep m = d.ep m := rfl
@[simp] theorem Dev.raise_block (d : Dev) (i a b c : Nat) (m : Nat) : (d.raise i a b c).block m = d.block m := rfl
@[simp] theorem Dev.raise_cage (d : Dev) (i a b c : Nat) (m : Nat) : (d.raise i a b c).cage m = d.cage m := rfl
@[simp] theorem Dev.raise_clk (d : Dev) (i a b c : Nat) (m : Nat) : (d.raise i a b c).clk m = d.clk m := rfl
@[simp] theorem Dev.raise_belfryNow (d : Dev) (i a b c : Nat) (m : Nat) : (d.raise i a b c).belfryNow m = d.belfryNow m := rfl
@[simp] theorem Dev.raise_gateNow (d : Dev) (i a b c : Nat) (m : Nat) : (d.raise i a b c).gateNow m = d.gateNow m := rfl
@[simp] theorem Dev.raise_wardenNow (d : Dev) (i a b c : Nat) : (d.raise i a b c).wardenNow = d.wardenNow := rfl
@[simp] theorem Dev.raise_lanternNow (d : Dev) (i a b c : Nat) : (d.raise i a b c).lanternNow = d.lanternNow := rfl
@[simp] theorem Dev.emit_now (d : Dev) (o : Output) : (d.emit o).now = d.now := rfl
@[simp] theorem Dev.emit_skews (d : Dev) (o : Output) : (d.emit o).skews = d.skews := rfl
@[simp] theorem Dev.emit_free (d : Dev) (o : Output) : (d.emit o).free = d.free := rfl
@[simp] theorem Dev.emit_nextId (d : Dev) (o : Output) : (d.emit o).nextId = d.nextId := rfl
@[simp] theorem Dev.emit_counters (d : Dev) (o : Output) : (d.emit o).counters = d.counters := rfl
@[simp] theorem Dev.emit_raises (d : Dev) (o : Output) : (d.emit o).raises = d.raises := rfl
@[simp] theorem Dev.emit_events (d : Dev) (o : Output) : (d.emit o).events = d.events := rfl
@[simp] theorem Dev.emit_lantern (d : Dev) (o : Output) : (d.emit o).lantern = d.lantern := rfl
@[simp] theorem Dev.emit_cages (d : Dev) (o : Output) : (d.emit o).cages = d.cages := rfl
@[simp] theorem Dev.emit_ports (d : Dev) (o : Output) : (d.emit o).ports = d.ports := rfl
@[simp] theorem Dev.emit_chip (d : Dev) (o : Output) : (d.emit o).chip = d.chip := rfl
@[simp] theorem Dev.emit_regions (d : Dev) (o : Output) : (d.emit o).regions = d.regions := rfl
@[simp] theorem Dev.emit_gates (d : Dev) (o : Output) : (d.emit o).gates = d.gates := rfl
@[simp] theorem Dev.emit_eps (d : Dev) (o : Output) : (d.emit o).eps = d.eps := rfl
@[simp] theorem Dev.emit_warden (d : Dev) (o : Output) : (d.emit o).warden = d.warden := rfl
@[simp] theorem Dev.emit_epochs (d : Dev) (o : Output) : (d.emit o).epochs = d.epochs := rfl
@[simp] theorem Dev.emit_twin (d : Dev) (o : Output) : (d.emit o).twin = d.twin := rfl
@[simp] theorem Dev.emit_blocks (d : Dev) (o : Output) : (d.emit o).blocks = d.blocks := rfl
@[simp] theorem Dev.emit_boot (d : Dev) (o : Output) : (d.emit o).boot = d.boot := rfl
@[simp] theorem Dev.emit_errCtrl (d : Dev) (o : Output) : (d.emit o).errCtrl = d.errCtrl := rfl
@[simp] theorem Dev.emit_errStart (d : Dev) (o : Output) : (d.emit o).errStart = d.errStart := rfl
@[simp] theorem Dev.emit_errRise (d : Dev) (o : Output) : (d.emit o).errRise = d.errRise := rfl
@[simp] theorem Dev.emit_errRaised (d : Dev) (o : Output) : (d.emit o).errRaised = d.errRaised := rfl
@[simp] theorem Dev.emit_quarantine (d : Dev) (o : Output) : (d.emit o).quarantine = d.quarantine := rfl
@[simp] theorem Dev.emit_counter (d : Dev) (o : Output) (m : Nat) : (d.emit o).counter m = d.counter m := rfl
@[simp] theorem Dev.emit_port (d : Dev) (o : Output) (m : Nat) : (d.emit o).port m = d.port m := rfl
@[simp] theorem Dev.emit_region (d : Dev) (o : Output) (m : Nat) : (d.emit o).region m = d.region m := rfl
@[simp] theorem Dev.emit_gate (d : Dev) (o : Output) (m : Nat) : (d.emit o).gate m = d.gate m := rfl
@[simp] theorem Dev.emit_ep (d : Dev) (o : Output) (m : Nat) : (d.emit o).ep m = d.ep m := rfl
@[simp] theorem Dev.emit_block (d : Dev) (o : Output) (m : Nat) : (d.emit o).block m = d.block m := rfl
@[simp] theorem Dev.emit_cage (d : Dev) (o : Output) (m : Nat) : (d.emit o).cage m = d.cage m := rfl
@[simp] theorem Dev.emit_clk (d : Dev) (o : Output) (m : Nat) : (d.emit o).clk m = d.clk m := rfl
@[simp] theorem Dev.emit_belfryNow (d : Dev) (o : Output) (m : Nat) : (d.emit o).belfryNow m = d.belfryNow m := rfl
@[simp] theorem Dev.emit_gateNow (d : Dev) (o : Output) (m : Nat) : (d.emit o).gateNow m = d.gateNow m := rfl
@[simp] theorem Dev.emit_wardenNow (d : Dev) (o : Output) : (d.emit o).wardenNow = d.wardenNow := rfl
@[simp] theorem Dev.emit_lanternNow (d : Dev) (o : Output) : (d.emit o).lanternNow = d.lanternNow := rfl
@[simp] theorem Dev.draw_now (d : Dev) : (d.draw).now = d.now := rfl
@[simp] theorem Dev.draw_skews (d : Dev) : (d.draw).skews = d.skews := rfl
@[simp] theorem Dev.draw_nextId (d : Dev) : (d.draw).nextId = d.nextId := rfl
@[simp] theorem Dev.draw_out (d : Dev) : (d.draw).out = d.out := rfl
@[simp] theorem Dev.draw_counters (d : Dev) : (d.draw).counters = d.counters := rfl
@[simp] theorem Dev.draw_raises (d : Dev) : (d.draw).raises = d.raises := rfl
@[simp] theorem Dev.draw_events (d : Dev) : (d.draw).events = d.events := rfl
@[simp] theorem Dev.draw_lantern (d : Dev) : (d.draw).lantern = d.lantern := rfl
@[simp] theorem Dev.draw_cages (d : Dev) : (d.draw).cages = d.cages := rfl
@[simp] theorem Dev.draw_ports (d : Dev) : (d.draw).ports = d.ports := rfl
@[simp] theorem Dev.draw_chip (d : Dev) : (d.draw).chip = d.chip := rfl
@[simp] theorem Dev.draw_regions (d : Dev) : (d.draw).regions = d.regions := rfl
@[simp] theorem Dev.draw_gates (d : Dev) : (d.draw).gates = d.gates := rfl
@[simp] theorem Dev.draw_eps (d : Dev) : (d.draw).eps = d.eps := rfl
@[simp] theorem Dev.draw_warden (d : Dev) : (d.draw).warden = d.warden := rfl
@[simp] theorem Dev.draw_epochs (d : Dev) : (d.draw).epochs = d.epochs := rfl
@[simp] theorem Dev.draw_twin (d : Dev) : (d.draw).twin = d.twin := rfl
@[simp] theorem Dev.draw_blocks (d : Dev) : (d.draw).blocks = d.blocks := rfl
@[simp] theorem Dev.draw_boot (d : Dev) : (d.draw).boot = d.boot := rfl
@[simp] theorem Dev.draw_errCtrl (d : Dev) : (d.draw).errCtrl = d.errCtrl := rfl
@[simp] theorem Dev.draw_errStart (d : Dev) : (d.draw).errStart = d.errStart := rfl
@[simp] theorem Dev.draw_errRise (d : Dev) : (d.draw).errRise = d.errRise := rfl
@[simp] theorem Dev.draw_errRaised (d : Dev) : (d.draw).errRaised = d.errRaised := rfl
@[simp] theorem Dev.draw_quarantine (d : Dev) : (d.draw).quarantine = d.quarantine := rfl
@[simp] theorem Dev.draw_counter (d : Dev) (m : Nat) : (d.draw).counter m = d.counter m := rfl
@[simp] theorem Dev.draw_port (d : Dev) (m : Nat) : (d.draw).port m = d.port m := rfl
@[simp] theorem Dev.draw_region (d : Dev) (m : Nat) : (d.draw).region m = d.region m := rfl
@[simp] theorem Dev.draw_gate (d : Dev) (m : Nat) : (d.draw).gate m = d.gate m := rfl
@[simp] theorem Dev.draw_ep (d : Dev) (m : Nat) : (d.draw).ep m = d.ep m := rfl
@[simp] theorem Dev.draw_block (d : Dev) (m : Nat) : (d.draw).block m = d.block m := rfl
@[simp] theorem Dev.draw_cage (d : Dev) (m : Nat) : (d.draw).cage m = d.cage m := rfl
@[simp] theorem Dev.draw_clk (d : Dev) (m : Nat) : (d.draw).clk m = d.clk m := rfl
@[simp] theorem Dev.draw_belfryNow (d : Dev) (m : Nat) : (d.draw).belfryNow m = d.belfryNow m := rfl
@[simp] theorem Dev.draw_gateNow (d : Dev) (m : Nat) : (d.draw).gateNow m = d.gateNow m := rfl
@[simp] theorem Dev.draw_wardenNow (d : Dev) : (d.draw).wardenNow = d.wardenNow := rfl
@[simp] theorem Dev.draw_lanternNow (d : Dev) : (d.draw).lanternNow = d.lanternNow := rfl
@[simp] theorem Dev.takeId_now (d : Dev) : (d.takeId).now = d.now := rfl
@[simp] theorem Dev.takeId_skews (d : Dev) : (d.takeId).skews = d.skews := rfl
@[simp] theorem Dev.takeId_free (d : Dev) : (d.takeId).free = d.free := rfl
@[simp] theorem Dev.takeId_out (d : Dev) : (d.takeId).out = d.out := rfl
@[simp] theorem Dev.takeId_counters (d : Dev) : (d.takeId).counters = d.counters := rfl
@[simp] theorem Dev.takeId_raises (d : Dev) : (d.takeId).raises = d.raises := rfl
@[simp] theorem Dev.takeId_events (d : Dev) : (d.takeId).events = d.events := rfl
@[simp] theorem Dev.takeId_lantern (d : Dev) : (d.takeId).lantern = d.lantern := rfl
@[simp] theorem Dev.takeId_cages (d : Dev) : (d.takeId).cages = d.cages := rfl
@[simp] theorem Dev.takeId_ports (d : Dev) : (d.takeId).ports = d.ports := rfl
@[simp] theorem Dev.takeId_chip (d : Dev) : (d.takeId).chip = d.chip := rfl
@[simp] theorem Dev.takeId_regions (d : Dev) : (d.takeId).regions = d.regions := rfl
@[simp] theorem Dev.takeId_gates (d : Dev) : (d.takeId).gates = d.gates := rfl
@[simp] theorem Dev.takeId_eps (d : Dev) : (d.takeId).eps = d.eps := rfl
@[simp] theorem Dev.takeId_warden (d : Dev) : (d.takeId).warden = d.warden := rfl
@[simp] theorem Dev.takeId_epochs (d : Dev) : (d.takeId).epochs = d.epochs := rfl
@[simp] theorem Dev.takeId_twin (d : Dev) : (d.takeId).twin = d.twin := rfl
@[simp] theorem Dev.takeId_blocks (d : Dev) : (d.takeId).blocks = d.blocks := rfl
@[simp] theorem Dev.takeId_boot (d : Dev) : (d.takeId).boot = d.boot := rfl
@[simp] theorem Dev.takeId_errCtrl (d : Dev) : (d.takeId).errCtrl = d.errCtrl := rfl
@[simp] theorem Dev.takeId_errStart (d : Dev) : (d.takeId).errStart = d.errStart := rfl
@[simp] theorem Dev.takeId_errRise (d : Dev) : (d.takeId).errRise = d.errRise := rfl
@[simp] theorem Dev.takeId_errRaised (d : Dev) : (d.takeId).errRaised = d.errRaised := rfl
@[simp] theorem Dev.takeId_quarantine (d : Dev) : (d.takeId).quarantine = d.quarantine := rfl
@[simp] theorem Dev.takeId_counter (d : Dev) (m : Nat) : (d.takeId).counter m = d.counter m := rfl
@[simp] theorem Dev.takeId_port (d : Dev) (m : Nat) : (d.takeId).port m = d.port m := rfl
@[simp] theorem Dev.takeId_region (d : Dev) (m : Nat) : (d.takeId).region m = d.region m := rfl
@[simp] theorem Dev.takeId_gate (d : Dev) (m : Nat) : (d.takeId).gate m = d.gate m := rfl
@[simp] theorem Dev.takeId_ep (d : Dev) (m : Nat) : (d.takeId).ep m = d.ep m := rfl
@[simp] theorem Dev.takeId_block (d : Dev) (m : Nat) : (d.takeId).block m = d.block m := rfl
@[simp] theorem Dev.takeId_cage (d : Dev) (m : Nat) : (d.takeId).cage m = d.cage m := rfl
@[simp] theorem Dev.takeId_clk (d : Dev) (m : Nat) : (d.takeId).clk m = d.clk m := rfl
@[simp] theorem Dev.takeId_belfryNow (d : Dev) (m : Nat) : (d.takeId).belfryNow m = d.belfryNow m := rfl
@[simp] theorem Dev.takeId_gateNow (d : Dev) (m : Nat) : (d.takeId).gateNow m = d.gateNow m := rfl
@[simp] theorem Dev.takeId_wardenNow (d : Dev) : (d.takeId).wardenNow = d.wardenNow := rfl
@[simp] theorem Dev.takeId_lanternNow (d : Dev) : (d.takeId).lanternNow = d.lanternNow := rfl
@[simp] theorem Dev.setPort_now (d : Dev) (p : Nat) (x : Port) : (d.setPort p x).now = d.now := rfl
@[simp] theorem Dev.setPort_skews (d : Dev) (p : Nat) (x : Port) : (d.setPort p x).skews = d.skews := rfl
@[simp] theorem Dev.setPort_free (d : Dev) (p : Nat) (x : Port) : (d.setPort p x).free = d.free := rfl
@[simp] theorem Dev.setPort_nextId (d : Dev) (p : Nat) (x : Port) : (d.setPort p x).nextId = d.nextId := rfl
@[simp] theorem Dev.setPort_out (d : Dev) (p : Nat) (x : Port) : (d.setPort p x).out = d.out := rfl
@[simp] theorem Dev.setPort_counters (d : Dev) (p : Nat) (x : Port) : (d.setPort p x).counters = d.counters := rfl
@[simp] theorem Dev.setPort_raises (d : Dev) (p : Nat) (x : Port) : (d.setPort p x).raises = d.raises := rfl
@[simp] theorem Dev.setPort_events (d : Dev) (p : Nat) (x : Port) : (d.setPort p x).events = d.events := rfl
@[simp] theorem Dev.setPort_lantern (d : Dev) (p : Nat) (x : Port) : (d.setPort p x).lantern = d.lantern := rfl
@[simp] theorem Dev.setPort_cages (d : Dev) (p : Nat) (x : Port) : (d.setPort p x).cages = d.cages := rfl
@[simp] theorem Dev.setPort_chip (d : Dev) (p : Nat) (x : Port) : (d.setPort p x).chip = d.chip := rfl
@[simp] theorem Dev.setPort_regions (d : Dev) (p : Nat) (x : Port) : (d.setPort p x).regions = d.regions := rfl
@[simp] theorem Dev.setPort_gates (d : Dev) (p : Nat) (x : Port) : (d.setPort p x).gates = d.gates := rfl
@[simp] theorem Dev.setPort_eps (d : Dev) (p : Nat) (x : Port) : (d.setPort p x).eps = d.eps := rfl
@[simp] theorem Dev.setPort_warden (d : Dev) (p : Nat) (x : Port) : (d.setPort p x).warden = d.warden := rfl
@[simp] theorem Dev.setPort_epochs (d : Dev) (p : Nat) (x : Port) : (d.setPort p x).epochs = d.epochs := rfl
@[simp] theorem Dev.setPort_twin (d : Dev) (p : Nat) (x : Port) : (d.setPort p x).twin = d.twin := rfl
@[simp] theorem Dev.setPort_blocks (d : Dev) (p : Nat) (x : Port) : (d.setPort p x).blocks = d.blocks := rfl
@[simp] theorem Dev.setPort_boot (d : Dev) (p : Nat) (x : Port) : (d.setPort p x).boot = d.boot := rfl
@[simp] theorem Dev.setPort_errCtrl (d : Dev) (p : Nat) (x : Port) : (d.setPort p x).errCtrl = d.errCtrl := rfl
@[simp] theorem Dev.setPort_errStart (d : Dev) (p : Nat) (x : Port) : (d.setPort p x).errStart = d.errStart := rfl
@[simp] theorem Dev.setPort_errRise (d : Dev) (p : Nat) (x : Port) : (d.setPort p x).errRise = d.errRise := rfl
@[simp] theorem Dev.setPort_errRaised (d : Dev) (p : Nat) (x : Port) : (d.setPort p x).errRaised = d.errRaised := rfl
@[simp] theorem Dev.setPort_quarantine (d : Dev) (p : Nat) (x : Port) : (d.setPort p x).quarantine = d.quarantine := rfl
@[simp] theorem Dev.setPort_counter (d : Dev) (p : Nat) (x : Port) (m : Nat) : (d.setPort p x).counter m = d.counter m := rfl
@[simp] theorem Dev.setPort_region (d : Dev) (p : Nat) (x : Port) (m : Nat) : (d.setPort p x).region m = d.region m := rfl
@[simp] theorem Dev.setPort_gate (d : Dev) (p : Nat) (x : Port) (m : Nat) : (d.setPort p x).gate m = d.gate m := rfl
@[simp] theorem Dev.setPort_ep (d : Dev) (p : Nat) (x : Port) (m : Nat) : (d.setPort p x).ep m = d.ep m := rfl
@[simp] theorem Dev.setPort_block (d : Dev) (p : Nat) (x : Port) (m : Nat) : (d.setPort p x).block m = d.block m := rfl
@[simp] theorem Dev.setPort_cage (d : Dev) (p : Nat) (x : Port) (m : Nat) : (d.setPort p x).cage m = d.cage m := rfl
theorem Dev.setPort_clk (d : Dev) (p : Nat) (x : Port) (m : Nat) (h : 128 ≤ m) : (d.setPort p x).clk m = d.clk m := by
  simp only [Dev.clk, Dev.tickPs, if_neg (Nat.not_lt.2 h)]; rfl
@[simp] theorem Dev.setPort_belfryNow (d : Dev) (p : Nat) (x : Port) (m : Nat) : (d.setPort p x).belfryNow m = d.belfryNow m := Dev.setPort_clk d p x _ (Nat.le_trans (by decide) (Nat.le_add_right _ _))
@[simp] theorem Dev.setPort_gateNow (d : Dev) (p : Nat) (x : Port) (m : Nat) : (d.setPort p x).gateNow m = d.gateNow m := Dev.setPort_clk d p x _ (Nat.le_trans (by decide) (Nat.le_add_right _ _))
@[simp] theorem Dev.setPort_wardenNow (d : Dev) (p : Nat) (x : Port) : (d.setPort p x).wardenNow = d.wardenNow := rfl
@[simp] theorem Dev.setPort_lanternNow (d : Dev) (p : Nat) (x : Port) : (d.setPort p x).lanternNow = d.lanternNow := rfl
@[simp] theorem Dev.modPort_now (d : Dev) (p : Nat) (f : Port → Port) : (d.modPort p f).now = d.now := rfl
@[simp] theorem Dev.modPort_skews (d : Dev) (p : Nat) (f : Port → Port) : (d.modPort p f).skews = d.skews := rfl
@[simp] theorem Dev.modPort_free (d : Dev) (p : Nat) (f : Port → Port) : (d.modPort p f).free = d.free := rfl
@[simp] theorem Dev.modPort_nextId (d : Dev) (p : Nat) (f : Port → Port) : (d.modPort p f).nextId = d.nextId := rfl
@[simp] theorem Dev.modPort_out (d : Dev) (p : Nat) (f : Port → Port) : (d.modPort p f).out = d.out := rfl
@[simp] theorem Dev.modPort_counters (d : Dev) (p : Nat) (f : Port → Port) : (d.modPort p f).counters = d.counters := rfl
@[simp] theorem Dev.modPort_raises (d : Dev) (p : Nat) (f : Port → Port) : (d.modPort p f).raises = d.raises := rfl
@[simp] theorem Dev.modPort_events (d : Dev) (p : Nat) (f : Port → Port) : (d.modPort p f).events = d.events := rfl
@[simp] theorem Dev.modPort_lantern (d : Dev) (p : Nat) (f : Port → Port) : (d.modPort p f).lantern = d.lantern := rfl
@[simp] theorem Dev.modPort_cages (d : Dev) (p : Nat) (f : Port → Port) : (d.modPort p f).cages = d.cages := rfl
@[simp] theorem Dev.modPort_chip (d : Dev) (p : Nat) (f : Port → Port) : (d.modPort p f).chip = d.chip := rfl
@[simp] theorem Dev.modPort_regions (d : Dev) (p : Nat) (f : Port → Port) : (d.modPort p f).regions = d.regions := rfl
@[simp] theorem Dev.modPort_gates (d : Dev) (p : Nat) (f : Port → Port) : (d.modPort p f).gates = d.gates := rfl
@[simp] theorem Dev.modPort_eps (d : Dev) (p : Nat) (f : Port → Port) : (d.modPort p f).eps = d.eps := rfl
@[simp] theorem Dev.modPort_warden (d : Dev) (p : Nat) (f : Port → Port) : (d.modPort p f).warden = d.warden := rfl
@[simp] theorem Dev.modPort_epochs (d : Dev) (p : Nat) (f : Port → Port) : (d.modPort p f).epochs = d.epochs := rfl
@[simp] theorem Dev.modPort_twin (d : Dev) (p : Nat) (f : Port → Port) : (d.modPort p f).twin = d.twin := rfl
@[simp] theorem Dev.modPort_blocks (d : Dev) (p : Nat) (f : Port → Port) : (d.modPort p f).blocks = d.blocks := rfl
@[simp] theorem Dev.modPort_boot (d : Dev) (p : Nat) (f : Port → Port) : (d.modPort p f).boot = d.boot := rfl
@[simp] theorem Dev.modPort_errCtrl (d : Dev) (p : Nat) (f : Port → Port) : (d.modPort p f).errCtrl = d.errCtrl := rfl
@[simp] theorem Dev.modPort_errStart (d : Dev) (p : Nat) (f : Port → Port) : (d.modPort p f).errStart = d.errStart := rfl
@[simp] theorem Dev.modPort_errRise (d : Dev) (p : Nat) (f : Port → Port) : (d.modPort p f).errRise = d.errRise := rfl
@[simp] theorem Dev.modPort_errRaised (d : Dev) (p : Nat) (f : Port → Port) : (d.modPort p f).errRaised = d.errRaised := rfl
@[simp] theorem Dev.modPort_quarantine (d : Dev) (p : Nat) (f : Port → Port) : (d.modPort p f).quarantine = d.quarantine := rfl
@[simp] theorem Dev.modPort_counter (d : Dev) (p : Nat) (f : Port → Port) (m : Nat) : (d.modPort p f).counter m = d.counter m := rfl
@[simp] theorem Dev.modPort_region (d : Dev) (p : Nat) (f : Port → Port) (m : Nat) : (d.modPort p f).region m = d.region m := rfl
@[simp] theorem Dev.modPort_gate (d : Dev) (p : Nat) (f : Port → Port) (m : Nat) : (d.modPort p f).gate m = d.gate m := rfl
@[simp] theorem Dev.modPort_ep (d : Dev) (p : Nat) (f : Port → Port) (m : Nat) : (d.modPort p f).ep m = d.ep m := rfl
@[simp] theorem Dev.modPort_block (d : Dev) (p : Nat) (f : Port → Port) (m : Nat) : (d.modPort p f).block m = d.block m := rfl
@[simp] theorem Dev.modPort_cage (d : Dev) (p : Nat) (f : Port → Port) (m : Nat) : (d.modPort p f).cage m = d.cage m := rfl
theorem Dev.modPort_clk (d : Dev) (p : Nat) (f : Port → Port) (m : Nat) (h : 128 ≤ m) : (d.modPort p f).clk m = d.clk m := by
  simp only [Dev.clk, Dev.tickPs, if_neg (Nat.not_lt.2 h)]; rfl
@[simp] theorem Dev.modPort_belfryNow (d : Dev) (p : Nat) (f : Port → Port) (m : Nat) : (d.modPort p f).belfryNow m = d.belfryNow m := Dev.modPort_clk d p f _ (Nat.le_trans (by decide) (Nat.le_add_right _ _))
@[simp] theorem Dev.modPort_gateNow (d : Dev) (p : Nat) (f : Port → Port) (m : Nat) : (d.modPort p f).gateNow m = d.gateNow m := Dev.modPort_clk d p f _ (Nat.le_trans (by decide) (Nat.le_add_right _ _))
@[simp] theorem Dev.modPort_wardenNow (d : Dev) (p : Nat) (f : Port → Port) : (d.modPort p f).wardenNow = d.wardenNow := rfl
@[simp] theorem Dev.modPort_lanternNow (d : Dev) (p : Nat) (f : Port → Port) : (d.modPort p f).lanternNow = d.lanternNow := rfl
@[simp] theorem Dev.modTrain_now (d : Dev) (p : Nat) (f : Train → Train) : (d.modTrain p f).now = d.now := rfl
@[simp] theorem Dev.modTrain_skews (d : Dev) (p : Nat) (f : Train → Train) : (d.modTrain p f).skews = d.skews := rfl
@[simp] theorem Dev.modTrain_free (d : Dev) (p : Nat) (f : Train → Train) : (d.modTrain p f).free = d.free := rfl
@[simp] theorem Dev.modTrain_nextId (d : Dev) (p : Nat) (f : Train → Train) : (d.modTrain p f).nextId = d.nextId := rfl
@[simp] theorem Dev.modTrain_out (d : Dev) (p : Nat) (f : Train → Train) : (d.modTrain p f).out = d.out := rfl
@[simp] theorem Dev.modTrain_counters (d : Dev) (p : Nat) (f : Train → Train) : (d.modTrain p f).counters = d.counters := rfl
@[simp] theorem Dev.modTrain_raises (d : Dev) (p : Nat) (f : Train → Train) : (d.modTrain p f).raises = d.raises := rfl
@[simp] theorem Dev.modTrain_events (d : Dev) (p : Nat) (f : Train → Train) : (d.modTrain p f).events = d.events := rfl
@[simp] theorem Dev.modTrain_lantern (d : Dev) (p : Nat) (f : Train → Train) : (d.modTrain p f).lantern = d.lantern := rfl
@[simp] theorem Dev.modTrain_cages (d : Dev) (p : Nat) (f : Train → Train) : (d.modTrain p f).cages = d.cages := rfl
@[simp] theorem Dev.modTrain_chip (d : Dev) (p : Nat) (f : Train → Train) : (d.modTrain p f).chip = d.chip := rfl
@[simp] theorem Dev.modTrain_regions (d : Dev) (p : Nat) (f : Train → Train) : (d.modTrain p f).regions = d.regions := rfl
@[simp] theorem Dev.modTrain_gates (d : Dev) (p : Nat) (f : Train → Train) : (d.modTrain p f).gates = d.gates := rfl
@[simp] theorem Dev.modTrain_eps (d : Dev) (p : Nat) (f : Train → Train) : (d.modTrain p f).eps = d.eps := rfl
@[simp] theorem Dev.modTrain_warden (d : Dev) (p : Nat) (f : Train → Train) : (d.modTrain p f).warden = d.warden := rfl
@[simp] theorem Dev.modTrain_epochs (d : Dev) (p : Nat) (f : Train → Train) : (d.modTrain p f).epochs = d.epochs := rfl
@[simp] theorem Dev.modTrain_twin (d : Dev) (p : Nat) (f : Train → Train) : (d.modTrain p f).twin = d.twin := rfl
@[simp] theorem Dev.modTrain_blocks (d : Dev) (p : Nat) (f : Train → Train) : (d.modTrain p f).blocks = d.blocks := rfl
@[simp] theorem Dev.modTrain_boot (d : Dev) (p : Nat) (f : Train → Train) : (d.modTrain p f).boot = d.boot := rfl
@[simp] theorem Dev.modTrain_errCtrl (d : Dev) (p : Nat) (f : Train → Train) : (d.modTrain p f).errCtrl = d.errCtrl := rfl
@[simp] theorem Dev.modTrain_errStart (d : Dev) (p : Nat) (f : Train → Train) : (d.modTrain p f).errStart = d.errStart := rfl
@[simp] theorem Dev.modTrain_errRise (d : Dev) (p : Nat) (f : Train → Train) : (d.modTrain p f).errRise = d.errRise := rfl
@[simp] theorem Dev.modTrain_errRaised (d : Dev) (p : Nat) (f : Train → Train) : (d.modTrain p f).errRaised = d.errRaised := rfl
@[simp] theorem Dev.modTrain_quarantine (d : Dev) (p : Nat) (f : Train → Train) : (d.modTrain p f).quarantine = d.quarantine := rfl
@[simp] theorem Dev.modTrain_counter (d : Dev) (p : Nat) (f : Train → Train) (m : Nat) : (d.modTrain p f).counter m = d.counter m := rfl
@[simp] theorem Dev.modTrain_region (d : Dev) (p : Nat) (f : Train → Train) (m : Nat) : (d.modTrain p f).region m = d.region m := rfl
@[simp] theorem Dev.modTrain_gate (d : Dev) (p : Nat) (f : Train → Train) (m : Nat) : (d.modTrain p f).gate m = d.gate m := rfl
@[simp] theorem Dev.modTrain_ep (d : Dev) (p : Nat) (f : Train → Train) (m : Nat) : (d.modTrain p f).ep m = d.ep m := rfl
@[simp] theorem Dev.modTrain_block (d : Dev) (p : Nat) (f : Train → Train) (m : Nat) : (d.modTrain p f).block m = d.block m := rfl
@[simp] theorem Dev.modTrain_cage (d : Dev) (p : Nat) (f : Train → Train) (m : Nat) : (d.modTrain p f).cage m = d.cage m := rfl
theorem Dev.modTrain_clk (d : Dev) (p : Nat) (f : Train → Train) (m : Nat) (h : 128 ≤ m) : (d.modTrain p f).clk m = d.clk m := by
  simp only [Dev.clk, Dev.tickPs, if_neg (Nat.not_lt.2 h)]; rfl
@[simp] theorem Dev.modTrain_belfryNow (d : Dev) (p : Nat) (f : Train → Train) (m : Nat) : (d.modTrain p f).belfryNow m = d.belfryNow m := Dev.modTrain_clk d p f _ (Nat.le_trans (by decide) (Nat.le_add_right _ _))
@[simp] theorem Dev.modTrain_gateNow (d : Dev) (p : Nat) (f : Train → Train) (m : Nat) : (d.modTrain p f).gateNow m = d.gateNow m := Dev.modTrain_clk d p f _ (Nat.le_trans (by decide) (Nat.le_add_right _ _))
@[simp] theorem Dev.modTrain_wardenNow (d : Dev) (p : Nat) (f : Train → Train) : (d.modTrain p f).wardenNow = d.wardenNow := rfl
@[simp] theorem Dev.modTrain_lanternNow (d : Dev) (p : Nat) (f : Train → Train) : (d.modTrain p f).lanternNow = d.lanternNow := rfl
@[simp] theorem Dev.modToll_now (d : Dev) (p : Nat) (f : Toll → Toll) : (d.modToll p f).now = d.now := rfl
@[simp] theorem Dev.modToll_skews (d : Dev) (p : Nat) (f : Toll → Toll) : (d.modToll p f).skews = d.skews := rfl
@[simp] theorem Dev.modToll_free (d : Dev) (p : Nat) (f : Toll → Toll) : (d.modToll p f).free = d.free := rfl
@[simp] theorem Dev.modToll_nextId (d : Dev) (p : Nat) (f : Toll → Toll) : (d.modToll p f).nextId = d.nextId := rfl
@[simp] theorem Dev.modToll_out (d : Dev) (p : Nat) (f : Toll → Toll) : (d.modToll p f).out = d.out := rfl
@[simp] theorem Dev.modToll_counters (d : Dev) (p : Nat) (f : Toll → Toll) : (d.modToll p f).counters = d.counters := rfl
@[simp] theorem Dev.modToll_raises (d : Dev) (p : Nat) (f : Toll → Toll) : (d.modToll p f).raises = d.raises := rfl
@[simp] theorem Dev.modToll_events (d : Dev) (p : Nat) (f : Toll → Toll) : (d.modToll p f).events = d.events := rfl
@[simp] theorem Dev.modToll_lantern (d : Dev) (p : Nat) (f : Toll → Toll) : (d.modToll p f).lantern = d.lantern := rfl
@[simp] theorem Dev.modToll_cages (d : Dev) (p : Nat) (f : Toll → Toll) : (d.modToll p f).cages = d.cages := rfl
@[simp] theorem Dev.modToll_chip (d : Dev) (p : Nat) (f : Toll → Toll) : (d.modToll p f).chip = d.chip := rfl
@[simp] theorem Dev.modToll_regions (d : Dev) (p : Nat) (f : Toll → Toll) : (d.modToll p f).regions = d.regions := rfl
@[simp] theorem Dev.modToll_gates (d : Dev) (p : Nat) (f : Toll → Toll) : (d.modToll p f).gates = d.gates := rfl
@[simp] theorem Dev.modToll_eps (d : Dev) (p : Nat) (f : Toll → Toll) : (d.modToll p f).eps = d.eps := rfl
@[simp] theorem Dev.modToll_warden (d : Dev) (p : Nat) (f : Toll → Toll) : (d.modToll p f).warden = d.warden := rfl
@[simp] theorem Dev.modToll_epochs (d : Dev) (p : Nat) (f : Toll → Toll) : (d.modToll p f).epochs = d.epochs := rfl
@[simp] theorem Dev.modToll_twin (d : Dev) (p : Nat) (f : Toll → Toll) : (d.modToll p f).twin = d.twin := rfl
@[simp] theorem Dev.modToll_blocks (d : Dev) (p : Nat) (f : Toll → Toll) : (d.modToll p f).blocks = d.blocks := rfl
@[simp] theorem Dev.modToll_boot (d : Dev) (p : Nat) (f : Toll → Toll) : (d.modToll p f).boot = d.boot := rfl
@[simp] theorem Dev.modToll_errCtrl (d : Dev) (p : Nat) (f : Toll → Toll) : (d.modToll p f).errCtrl = d.errCtrl := rfl
@[simp] theorem Dev.modToll_errStart (d : Dev) (p : Nat) (f : Toll → Toll) : (d.modToll p f).errStart = d.errStart := rfl
@[simp] theorem Dev.modToll_errRise (d : Dev) (p : Nat) (f : Toll → Toll) : (d.modToll p f).errRise = d.errRise := rfl
@[simp] theorem Dev.modToll_errRaised (d : Dev) (p : Nat) (f : Toll → Toll) : (d.modToll p f).errRaised = d.errRaised := rfl
@[simp] theorem Dev.modToll_quarantine (d : Dev) (p : Nat) (f : Toll → Toll) : (d.modToll p f).quarantine = d.quarantine := rfl
@[simp] theorem Dev.modToll_counter (d : Dev) (p : Nat) (f : Toll → Toll) (m : Nat) : (d.modToll p f).counter m = d.counter m := rfl
@[simp] theorem Dev.modToll_region (d : Dev) (p : Nat) (f : Toll → Toll) (m : Nat) : (d.modToll p f).region m = d.region m := rfl
@[simp] theorem Dev.modToll_gate (d : Dev) (p : Nat) (f : Toll → Toll) (m : Nat) : (d.modToll p f).gate m = d.gate m := rfl
@[simp] theorem Dev.modToll_ep (d : Dev) (p : Nat) (f : Toll → Toll) (m : Nat) : (d.modToll p f).ep m = d.ep m := rfl
@[simp] theorem Dev.modToll_block (d : Dev) (p : Nat) (f : Toll → Toll) (m : Nat) : (d.modToll p f).block m = d.block m := rfl
@[simp] theorem Dev.modToll_cage (d : Dev) (p : Nat) (f : Toll → Toll) (m : Nat) : (d.modToll p f).cage m = d.cage m := rfl
theorem Dev.modToll_clk (d : Dev) (p : Nat) (f : Toll → Toll) (m : Nat) (h : 128 ≤ m) : (d.modToll p f).clk m = d.clk m := by
  simp only [Dev.clk, Dev.tickPs, if_neg (Nat.not_lt.2 h)]; rfl
@[simp] theorem Dev.modToll_belfryNow (d : Dev) (p : Nat) (f : Toll → Toll) (m : Nat) : (d.modToll p f).belfryNow m = d.belfryNow m := Dev.modToll_clk d p f _ (Nat.le_trans (by decide) (Nat.le_add_right _ _))
@[simp] theorem Dev.modToll_gateNow (d : Dev) (p : Nat) (f : Toll → Toll) (m : Nat) : (d.modToll p f).gateNow m = d.gateNow m := Dev.modToll_clk d p f _ (Nat.le_trans (by decide) (Nat.le_add_right _ _))
@[simp] theorem Dev.modToll_wardenNow (d : Dev) (p : Nat) (f : Toll → Toll) : (d.modToll p f).wardenNow = d.wardenNow := rfl
@[simp] theorem Dev.modToll_lanternNow (d : Dev) (p : Nat) (f : Toll → Toll) : (d.modToll p f).lanternNow = d.lanternNow := rfl
@[simp] theorem Dev.setRegion_now (d : Dev) (r : Nat) (x : Region) : (d.setRegion r x).now = d.now := rfl
@[simp] theorem Dev.setRegion_skews (d : Dev) (r : Nat) (x : Region) : (d.setRegion r x).skews = d.skews := rfl
@[simp] theorem Dev.setRegion_free (d : Dev) (r : Nat) (x : Region) : (d.setRegion r x).free = d.free := rfl
@[simp] theorem Dev.setRegion_nextId (d : Dev) (r : Nat) (x : Region) : (d.setRegion r x).nextId = d.nextId := rfl
@[simp] theorem Dev.setRegion_out (d : Dev) (r : Nat) (x : Region) : (d.setRegion r x).out = d.out := rfl
@[simp] theorem Dev.setRegion_counters (d : Dev) (r : Nat) (x : Region) : (d.setRegion r x).counters = d.counters := rfl
@[simp] theorem Dev.setRegion_raises (d : Dev) (r : Nat) (x : Region) : (d.setRegion r x).raises = d.raises := rfl
@[simp] theorem Dev.setRegion_events (d : Dev) (r : Nat) (x : Region) : (d.setRegion r x).events = d.events := rfl
@[simp] theorem Dev.setRegion_lantern (d : Dev) (r : Nat) (x : Region) : (d.setRegion r x).lantern = d.lantern := rfl
@[simp] theorem Dev.setRegion_cages (d : Dev) (r : Nat) (x : Region) : (d.setRegion r x).cages = d.cages := rfl
@[simp] theorem Dev.setRegion_ports (d : Dev) (r : Nat) (x : Region) : (d.setRegion r x).ports = d.ports := rfl
@[simp] theorem Dev.setRegion_chip (d : Dev) (r : Nat) (x : Region) : (d.setRegion r x).chip = d.chip := rfl
@[simp] theorem Dev.setRegion_gates (d : Dev) (r : Nat) (x : Region) : (d.setRegion r x).gates = d.gates := rfl
@[simp] theorem Dev.setRegion_eps (d : Dev) (r : Nat) (x : Region) : (d.setRegion r x).eps = d.eps := rfl
@[simp] theorem Dev.setRegion_warden (d : Dev) (r : Nat) (x : Region) : (d.setRegion r x).warden = d.warden := rfl
@[simp] theorem Dev.setRegion_epochs (d : Dev) (r : Nat) (x : Region) : (d.setRegion r x).epochs = d.epochs := rfl
@[simp] theorem Dev.setRegion_twin (d : Dev) (r : Nat) (x : Region) : (d.setRegion r x).twin = d.twin := rfl
@[simp] theorem Dev.setRegion_blocks (d : Dev) (r : Nat) (x : Region) : (d.setRegion r x).blocks = d.blocks := rfl
@[simp] theorem Dev.setRegion_boot (d : Dev) (r : Nat) (x : Region) : (d.setRegion r x).boot = d.boot := rfl
@[simp] theorem Dev.setRegion_errCtrl (d : Dev) (r : Nat) (x : Region) : (d.setRegion r x).errCtrl = d.errCtrl := rfl
@[simp] theorem Dev.setRegion_errStart (d : Dev) (r : Nat) (x : Region) : (d.setRegion r x).errStart = d.errStart := rfl
@[simp] theorem Dev.setRegion_errRise (d : Dev) (r : Nat) (x : Region) : (d.setRegion r x).errRise = d.errRise := rfl
@[simp] theorem Dev.setRegion_errRaised (d : Dev) (r : Nat) (x : Region) : (d.setRegion r x).errRaised = d.errRaised := rfl
@[simp] theorem Dev.setRegion_quarantine (d : Dev) (r : Nat) (x : Region) : (d.setRegion r x).quarantine = d.quarantine := rfl
@[simp] theorem Dev.setRegion_counter (d : Dev) (r : Nat) (x : Region) (m : Nat) : (d.setRegion r x).counter m = d.counter m := rfl
@[simp] theorem Dev.setRegion_port (d : Dev) (r : Nat) (x : Region) (m : Nat) : (d.setRegion r x).port m = d.port m := rfl
@[simp] theorem Dev.setRegion_gate (d : Dev) (r : Nat) (x : Region) (m : Nat) : (d.setRegion r x).gate m = d.gate m := rfl
@[simp] theorem Dev.setRegion_ep (d : Dev) (r : Nat) (x : Region) (m : Nat) : (d.setRegion r x).ep m = d.ep m := rfl
@[simp] theorem Dev.setRegion_block (d : Dev) (r : Nat) (x : Region) (m : Nat) : (d.setRegion r x).block m = d.block m := rfl
@[simp] theorem Dev.setRegion_cage (d : Dev) (r : Nat) (x : Region) (m : Nat) : (d.setRegion r x).cage m = d.cage m := rfl
@[simp] theorem Dev.setRegion_clk (d : Dev) (r : Nat) (x : Region) (m : Nat) : (d.setRegion r x).clk m = d.clk m := rfl
@[simp] theorem Dev.setRegion_belfryNow (d : Dev) (r : Nat) (x : Region) (m : Nat) : (d.setRegion r x).belfryNow m = d.belfryNow m := rfl
@[simp] theorem Dev.setRegion_gateNow (d : Dev) (r : Nat) (x : Region) (m : Nat) : (d.setRegion r x).gateNow m = d.gateNow m := rfl
@[simp] theorem Dev.setRegion_wardenNow (d : Dev) (r : Nat) (x : Region) : (d.setRegion r x).wardenNow = d.wardenNow := rfl
@[simp] theorem Dev.setRegion_lanternNow (d : Dev) (r : Nat) (x : Region) : (d.setRegion r x).lanternNow = d.lanternNow := rfl
@[simp] theorem Dev.modRegion_now (d : Dev) (r : Nat) (f : Region → Region) : (d.modRegion r f).now = d.now := rfl
@[simp] theorem Dev.modRegion_skews (d : Dev) (r : Nat) (f : Region → Region) : (d.modRegion r f).skews = d.skews := rfl
@[simp] theorem Dev.modRegion_free (d : Dev) (r : Nat) (f : Region → Region) : (d.modRegion r f).free = d.free := rfl
@[simp] theorem Dev.modRegion_nextId (d : Dev) (r : Nat) (f : Region → Region) : (d.modRegion r f).nextId = d.nextId := rfl
@[simp] theorem Dev.modRegion_out (d : Dev) (r : Nat) (f : Region → Region) : (d.modRegion r f).out = d.out := rfl
@[simp] theorem Dev.modRegion_counters (d : Dev) (r : Nat) (f : Region → Region) : (d.modRegion r f).counters = d.counters := rfl
@[simp] theorem Dev.modRegion_raises (d : Dev) (r : Nat) (f : Region → Region) : (d.modRegion r f).raises = d.raises := rfl
@[simp] theorem Dev.modRegion_events (d : Dev) (r : Nat) (f : Region → Region) : (d.modRegion r f).events = d.events := rfl
@[simp] theorem Dev.modRegion_lantern (d : Dev) (r : Nat) (f : Region → Region) : (d.modRegion r f).lantern = d.lantern := rfl
@[simp] theorem Dev.modRegion_cages (d : Dev) (r : Nat) (f : Region → Region) : (d.modRegion r f).cages = d.cages := rfl
@[simp] theorem Dev.modRegion_ports (d : Dev) (r : Nat) (f : Region → Region) : (d.modRegion r f).ports = d.ports := rfl
@[simp] theorem Dev.modRegion_chip (d : Dev) (r : Nat) (f : Region → Region) : (d.modRegion r f).chip = d.chip := rfl
@[simp] theorem Dev.modRegion_gates (d : Dev) (r : Nat) (f : Region → Region) : (d.modRegion r f).gates = d.gates := rfl
@[simp] theorem Dev.modRegion_eps (d : Dev) (r : Nat) (f : Region → Region) : (d.modRegion r f).eps = d.eps := rfl
@[simp] theorem Dev.modRegion_warden (d : Dev) (r : Nat) (f : Region → Region) : (d.modRegion r f).warden = d.warden := rfl
@[simp] theorem Dev.modRegion_epochs (d : Dev) (r : Nat) (f : Region → Region) : (d.modRegion r f).epochs = d.epochs := rfl
@[simp] theorem Dev.modRegion_twin (d : Dev) (r : Nat) (f : Region → Region) : (d.modRegion r f).twin = d.twin := rfl
@[simp] theorem Dev.modRegion_blocks (d : Dev) (r : Nat) (f : Region → Region) : (d.modRegion r f).blocks = d.blocks := rfl
@[simp] theorem Dev.modRegion_boot (d : Dev) (r : Nat) (f : Region → Region) : (d.modRegion r f).boot = d.boot := rfl
@[simp] theorem Dev.modRegion_errCtrl (d : Dev) (r : Nat) (f : Region → Region) : (d.modRegion r f).errCtrl = d.errCtrl := rfl
@[simp] theorem Dev.modRegion_errStart (d : Dev) (r : Nat) (f : Region → Region) : (d.modRegion r f).errStart = d.errStart := rfl
@[simp] theorem Dev.modRegion_errRise (d : Dev) (r : Nat) (f : Region → Region) : (d.modRegion r f).errRise = d.errRise := rfl
@[simp] theorem Dev.modRegion_errRaised (d : Dev) (r : Nat) (f : Region → Region) : (d.modRegion r f).errRaised = d.errRaised := rfl
@[simp] theorem Dev.modRegion_quarantine (d : Dev) (r : Nat) (f : Region → Region) : (d.modRegion r f).quarantine = d.quarantine := rfl
@[simp] theorem Dev.modRegion_counter (d : Dev) (r : Nat) (f : Region → Region) (m : Nat) : (d.modRegion r f).counter m = d.counter m := rfl
@[simp] theorem Dev.modRegion_port (d : Dev) (r : Nat) (f : Region → Region) (m : Nat) : (d.modRegion r f).port m = d.port m := rfl
@[simp] theorem Dev.modRegion_gate (d : Dev) (r : Nat) (f : Region → Region) (m : Nat) : (d.modRegion r f).gate m = d.gate m := rfl
@[simp] theorem Dev.modRegion_ep (d : Dev) (r : Nat) (f : Region → Region) (m : Nat) : (d.modRegion r f).ep m = d.ep m := rfl
@[simp] theorem Dev.modRegion_block (d : Dev) (r : Nat) (f : Region → Region) (m : Nat) : (d.modRegion r f).block m = d.block m := rfl
@[simp] theorem Dev.modRegion_cage (d : Dev) (r : Nat) (f : Region → Region) (m : Nat) : (d.modRegion r f).cage m = d.cage m := rfl
@[simp] theorem Dev.modRegion_clk (d : Dev) (r : Nat) (f : Region → Region) (m : Nat) : (d.modRegion r f).clk m = d.clk m := rfl
@[simp] theorem Dev.modRegion_belfryNow (d : Dev) (r : Nat) (f : Region → Region) (m : Nat) : (d.modRegion r f).belfryNow m = d.belfryNow m := rfl
@[simp] theorem Dev.modRegion_gateNow (d : Dev) (r : Nat) (f : Region → Region) (m : Nat) : (d.modRegion r f).gateNow m = d.gateNow m := rfl
@[simp] theorem Dev.modRegion_wardenNow (d : Dev) (r : Nat) (f : Region → Region) : (d.modRegion r f).wardenNow = d.wardenNow := rfl
@[simp] theorem Dev.modRegion_lanternNow (d : Dev) (r : Nat) (f : Region → Region) : (d.modRegion r f).lanternNow = d.lanternNow := rfl
@[simp] theorem Dev.hbmWrite_now (d : Dev) (r a : Nat) (bs : List Byte) : (d.hbmWrite r a bs).now = d.now := rfl
@[simp] theorem Dev.hbmWrite_skews (d : Dev) (r a : Nat) (bs : List Byte) : (d.hbmWrite r a bs).skews = d.skews := rfl
@[simp] theorem Dev.hbmWrite_free (d : Dev) (r a : Nat) (bs : List Byte) : (d.hbmWrite r a bs).free = d.free := rfl
@[simp] theorem Dev.hbmWrite_nextId (d : Dev) (r a : Nat) (bs : List Byte) : (d.hbmWrite r a bs).nextId = d.nextId := rfl
@[simp] theorem Dev.hbmWrite_out (d : Dev) (r a : Nat) (bs : List Byte) : (d.hbmWrite r a bs).out = d.out := rfl
@[simp] theorem Dev.hbmWrite_counters (d : Dev) (r a : Nat) (bs : List Byte) : (d.hbmWrite r a bs).counters = d.counters := rfl
@[simp] theorem Dev.hbmWrite_raises (d : Dev) (r a : Nat) (bs : List Byte) : (d.hbmWrite r a bs).raises = d.raises := rfl
@[simp] theorem Dev.hbmWrite_events (d : Dev) (r a : Nat) (bs : List Byte) : (d.hbmWrite r a bs).events = d.events := rfl
@[simp] theorem Dev.hbmWrite_lantern (d : Dev) (r a : Nat) (bs : List Byte) : (d.hbmWrite r a bs).lantern = d.lantern := rfl
@[simp] theorem Dev.hbmWrite_cages (d : Dev) (r a : Nat) (bs : List Byte) : (d.hbmWrite r a bs).cages = d.cages := rfl
@[simp] theorem Dev.hbmWrite_ports (d : Dev) (r a : Nat) (bs : List Byte) : (d.hbmWrite r a bs).ports = d.ports := rfl
@[simp] theorem Dev.hbmWrite_chip (d : Dev) (r a : Nat) (bs : List Byte) : (d.hbmWrite r a bs).chip = d.chip := rfl
@[simp] theorem Dev.hbmWrite_gates (d : Dev) (r a : Nat) (bs : List Byte) : (d.hbmWrite r a bs).gates = d.gates := rfl
@[simp] theorem Dev.hbmWrite_eps (d : Dev) (r a : Nat) (bs : List Byte) : (d.hbmWrite r a bs).eps = d.eps := rfl
@[simp] theorem Dev.hbmWrite_warden (d : Dev) (r a : Nat) (bs : List Byte) : (d.hbmWrite r a bs).warden = d.warden := rfl
@[simp] theorem Dev.hbmWrite_epochs (d : Dev) (r a : Nat) (bs : List Byte) : (d.hbmWrite r a bs).epochs = d.epochs := rfl
@[simp] theorem Dev.hbmWrite_twin (d : Dev) (r a : Nat) (bs : List Byte) : (d.hbmWrite r a bs).twin = d.twin := rfl
@[simp] theorem Dev.hbmWrite_blocks (d : Dev) (r a : Nat) (bs : List Byte) : (d.hbmWrite r a bs).blocks = d.blocks := rfl
@[simp] theorem Dev.hbmWrite_boot (d : Dev) (r a : Nat) (bs : List Byte) : (d.hbmWrite r a bs).boot = d.boot := rfl
@[simp] theorem Dev.hbmWrite_errCtrl (d : Dev) (r a : Nat) (bs : List Byte) : (d.hbmWrite r a bs).errCtrl = d.errCtrl := rfl
@[simp] theorem Dev.hbmWrite_errStart (d : Dev) (r a : Nat) (bs : List Byte) : (d.hbmWrite r a bs).errStart = d.errStart := rfl
@[simp] theorem Dev.hbmWrite_errRise (d : Dev) (r a : Nat) (bs : List Byte) : (d.hbmWrite r a bs).errRise = d.errRise := rfl
@[simp] theorem Dev.hbmWrite_errRaised (d : Dev) (r a : Nat) (bs : List Byte) : (d.hbmWrite r a bs).errRaised = d.errRaised := rfl
@[simp] theorem Dev.hbmWrite_quarantine (d : Dev) (r a : Nat) (bs : List Byte) : (d.hbmWrite r a bs).quarantine = d.quarantine := rfl
@[simp] theorem Dev.hbmWrite_counter (d : Dev) (r a : Nat) (bs : List Byte) (m : Nat) : (d.hbmWrite r a bs).counter m = d.counter m := rfl
@[simp] theorem Dev.hbmWrite_port (d : Dev) (r a : Nat) (bs : List Byte) (m : Nat) : (d.hbmWrite r a bs).port m = d.port m := rfl
@[simp] theorem Dev.hbmWrite_gate (d : Dev) (r a : Nat) (bs : List Byte) (m : Nat) : (d.hbmWrite r a bs).gate m = d.gate m := rfl
@[simp] theorem Dev.hbmWrite_ep (d : Dev) (r a : Nat) (bs : List Byte) (m : Nat) : (d.hbmWrite r a bs).ep m = d.ep m := rfl
@[simp] theorem Dev.hbmWrite_block (d : Dev) (r a : Nat) (bs : List Byte) (m : Nat) : (d.hbmWrite r a bs).block m = d.block m := rfl
@[simp] theorem Dev.hbmWrite_cage (d : Dev) (r a : Nat) (bs : List Byte) (m : Nat) : (d.hbmWrite r a bs).cage m = d.cage m := rfl
@[simp] theorem Dev.hbmWrite_clk (d : Dev) (r a : Nat) (bs : List Byte) (m : Nat) : (d.hbmWrite r a bs).clk m = d.clk m := rfl
@[simp] theorem Dev.hbmWrite_belfryNow (d : Dev) (r a : Nat) (bs : List Byte) (m : Nat) : (d.hbmWrite r a bs).belfryNow m = d.belfryNow m := rfl
@[simp] theorem Dev.hbmWrite_gateNow (d : Dev) (r a : Nat) (bs : List Byte) (m : Nat) : (d.hbmWrite r a bs).gateNow m = d.gateNow m := rfl
@[simp] theorem Dev.hbmWrite_wardenNow (d : Dev) (r a : Nat) (bs : List Byte) : (d.hbmWrite r a bs).wardenNow = d.wardenNow := rfl
@[simp] theorem Dev.hbmWrite_lanternNow (d : Dev) (r a : Nat) (bs : List Byte) : (d.hbmWrite r a bs).lanternNow = d.lanternNow := rfl
@[simp] theorem Dev.modGate_now (d : Dev) (g : Nat) (f : Gate → Gate) : (d.modGate g f).now = d.now := rfl
@[simp] theorem Dev.modGate_skews (d : Dev) (g : Nat) (f : Gate → Gate) : (d.modGate g f).skews = d.skews := rfl
@[simp] theorem Dev.modGate_free (d : Dev) (g : Nat) (f : Gate → Gate) : (d.modGate g f).free = d.free := rfl
@[simp] theorem Dev.modGate_nextId (d : Dev) (g : Nat) (f : Gate → Gate) : (d.modGate g f).nextId = d.nextId := rfl
@[simp] theorem Dev.modGate_out (d : Dev) (g : Nat) (f : Gate → Gate) : (d.modGate g f).out = d.out := rfl
@[simp] theorem Dev.modGate_counters (d : Dev) (g : Nat) (f : Gate → Gate) : (d.modGate g f).counters = d.counters := rfl
@[simp] theorem Dev.modGate_raises (d : Dev) (g : Nat) (f : Gate → Gate) : (d.modGate g f).raises = d.raises := rfl
@[simp] theorem Dev.modGate_events (d : Dev) (g : Nat) (f : Gate → Gate) : (d.modGate g f).events = d.events := rfl
@[simp] theorem Dev.modGate_lantern (d : Dev) (g : Nat) (f : Gate → Gate) : (d.modGate g f).lantern = d.lantern := rfl
@[simp] theorem Dev.modGate_cages (d : Dev) (g : Nat) (f : Gate → Gate) : (d.modGate g f).cages = d.cages := rfl
@[simp] theorem Dev.modGate_ports (d : Dev) (g : Nat) (f : Gate → Gate) : (d.modGate g f).ports = d.ports := rfl
@[simp] theorem Dev.modGate_chip (d : Dev) (g : Nat) (f : Gate → Gate) : (d.modGate g f).chip = d.chip := rfl
@[simp] theorem Dev.modGate_regions (d : Dev) (g : Nat) (f : Gate → Gate) : (d.modGate g f).regions = d.regions := rfl
@[simp] theorem Dev.modGate_eps (d : Dev) (g : Nat) (f : Gate → Gate) : (d.modGate g f).eps = d.eps := rfl
@[simp] theorem Dev.modGate_warden (d : Dev) (g : Nat) (f : Gate → Gate) : (d.modGate g f).warden = d.warden := rfl
@[simp] theorem Dev.modGate_epochs (d : Dev) (g : Nat) (f : Gate → Gate) : (d.modGate g f).epochs = d.epochs := rfl
@[simp] theorem Dev.modGate_twin (d : Dev) (g : Nat) (f : Gate → Gate) : (d.modGate g f).twin = d.twin := rfl
@[simp] theorem Dev.modGate_blocks (d : Dev) (g : Nat) (f : Gate → Gate) : (d.modGate g f).blocks = d.blocks := rfl
@[simp] theorem Dev.modGate_boot (d : Dev) (g : Nat) (f : Gate → Gate) : (d.modGate g f).boot = d.boot := rfl
@[simp] theorem Dev.modGate_errCtrl (d : Dev) (g : Nat) (f : Gate → Gate) : (d.modGate g f).errCtrl = d.errCtrl := rfl
@[simp] theorem Dev.modGate_errStart (d : Dev) (g : Nat) (f : Gate → Gate) : (d.modGate g f).errStart = d.errStart := rfl
@[simp] theorem Dev.modGate_errRise (d : Dev) (g : Nat) (f : Gate → Gate) : (d.modGate g f).errRise = d.errRise := rfl
@[simp] theorem Dev.modGate_errRaised (d : Dev) (g : Nat) (f : Gate → Gate) : (d.modGate g f).errRaised = d.errRaised := rfl
@[simp] theorem Dev.modGate_quarantine (d : Dev) (g : Nat) (f : Gate → Gate) : (d.modGate g f).quarantine = d.quarantine := rfl
@[simp] theorem Dev.modGate_counter (d : Dev) (g : Nat) (f : Gate → Gate) (m : Nat) : (d.modGate g f).counter m = d.counter m := rfl
@[simp] theorem Dev.modGate_port (d : Dev) (g : Nat) (f : Gate → Gate) (m : Nat) : (d.modGate g f).port m = d.port m := rfl
@[simp] theorem Dev.modGate_region (d : Dev) (g : Nat) (f : Gate → Gate) (m : Nat) : (d.modGate g f).region m = d.region m := rfl
@[simp] theorem Dev.modGate_ep (d : Dev) (g : Nat) (f : Gate → Gate) (m : Nat) : (d.modGate g f).ep m = d.ep m := rfl
@[simp] theorem Dev.modGate_block (d : Dev) (g : Nat) (f : Gate → Gate) (m : Nat) : (d.modGate g f).block m = d.block m := rfl
@[simp] theorem Dev.modGate_cage (d : Dev) (g : Nat) (f : Gate → Gate) (m : Nat) : (d.modGate g f).cage m = d.cage m := rfl
@[simp] theorem Dev.modGate_clk (d : Dev) (g : Nat) (f : Gate → Gate) (m : Nat) : (d.modGate g f).clk m = d.clk m := rfl
@[simp] theorem Dev.modGate_belfryNow (d : Dev) (g : Nat) (f : Gate → Gate) (m : Nat) : (d.modGate g f).belfryNow m = d.belfryNow m := rfl
@[simp] theorem Dev.modGate_gateNow (d : Dev) (g : Nat) (f : Gate → Gate) (m : Nat) : (d.modGate g f).gateNow m = d.gateNow m := rfl
@[simp] theorem Dev.modGate_wardenNow (d : Dev) (g : Nat) (f : Gate → Gate) : (d.modGate g f).wardenNow = d.wardenNow := rfl
@[simp] theorem Dev.modGate_lanternNow (d : Dev) (g : Nat) (f : Gate → Gate) : (d.modGate g f).lanternNow = d.lanternNow := rfl
@[simp] theorem Dev.setEp_now (d : Dev) (e : Nat) (x : Endpoint) : (d.setEp e x).now = d.now := rfl
@[simp] theorem Dev.setEp_skews (d : Dev) (e : Nat) (x : Endpoint) : (d.setEp e x).skews = d.skews := rfl
@[simp] theorem Dev.setEp_free (d : Dev) (e : Nat) (x : Endpoint) : (d.setEp e x).free = d.free := rfl
@[simp] theorem Dev.setEp_nextId (d : Dev) (e : Nat) (x : Endpoint) : (d.setEp e x).nextId = d.nextId := rfl
@[simp] theorem Dev.setEp_out (d : Dev) (e : Nat) (x : Endpoint) : (d.setEp e x).out = d.out := rfl
@[simp] theorem Dev.setEp_counters (d : Dev) (e : Nat) (x : Endpoint) : (d.setEp e x).counters = d.counters := rfl
@[simp] theorem Dev.setEp_raises (d : Dev) (e : Nat) (x : Endpoint) : (d.setEp e x).raises = d.raises := rfl
@[simp] theorem Dev.setEp_events (d : Dev) (e : Nat) (x : Endpoint) : (d.setEp e x).events = d.events := rfl
@[simp] theorem Dev.setEp_lantern (d : Dev) (e : Nat) (x : Endpoint) : (d.setEp e x).lantern = d.lantern := rfl
@[simp] theorem Dev.setEp_cages (d : Dev) (e : Nat) (x : Endpoint) : (d.setEp e x).cages = d.cages := rfl
@[simp] theorem Dev.setEp_ports (d : Dev) (e : Nat) (x : Endpoint) : (d.setEp e x).ports = d.ports := rfl
@[simp] theorem Dev.setEp_chip (d : Dev) (e : Nat) (x : Endpoint) : (d.setEp e x).chip = d.chip := rfl
@[simp] theorem Dev.setEp_regions (d : Dev) (e : Nat) (x : Endpoint) : (d.setEp e x).regions = d.regions := rfl
@[simp] theorem Dev.setEp_gates (d : Dev) (e : Nat) (x : Endpoint) : (d.setEp e x).gates = d.gates := rfl
@[simp] theorem Dev.setEp_warden (d : Dev) (e : Nat) (x : Endpoint) : (d.setEp e x).warden = d.warden := rfl
@[simp] theorem Dev.setEp_epochs (d : Dev) (e : Nat) (x : Endpoint) : (d.setEp e x).epochs = d.epochs := rfl
@[simp] theorem Dev.setEp_twin (d : Dev) (e : Nat) (x : Endpoint) : (d.setEp e x).twin = d.twin := rfl
@[simp] theorem Dev.setEp_blocks (d : Dev) (e : Nat) (x : Endpoint) : (d.setEp e x).blocks = d.blocks := rfl
@[simp] theorem Dev.setEp_boot (d : Dev) (e : Nat) (x : Endpoint) : (d.setEp e x).boot = d.boot := rfl
@[simp] theorem Dev.setEp_errCtrl (d : Dev) (e : Nat) (x : Endpoint) : (d.setEp e x).errCtrl = d.errCtrl := rfl
@[simp] theorem Dev.setEp_errStart (d : Dev) (e : Nat) (x : Endpoint) : (d.setEp e x).errStart = d.errStart := rfl
@[simp] theorem Dev.setEp_errRise (d : Dev) (e : Nat) (x : Endpoint) : (d.setEp e x).errRise = d.errRise := rfl
@[simp] theorem Dev.setEp_errRaised (d : Dev) (e : Nat) (x : Endpoint) : (d.setEp e x).errRaised = d.errRaised := rfl
@[simp] theorem Dev.setEp_quarantine (d : Dev) (e : Nat) (x : Endpoint) : (d.setEp e x).quarantine = d.quarantine := rfl
@[simp] theorem Dev.setEp_counter (d : Dev) (e : Nat) (x : Endpoint) (m : Nat) : (d.setEp e x).counter m = d.counter m := rfl
@[simp] theorem Dev.setEp_port (d : Dev) (e : Nat) (x : Endpoint) (m : Nat) : (d.setEp e x).port m = d.port m := rfl
@[simp] theorem Dev.setEp_region (d : Dev) (e : Nat) (x : Endpoint) (m : Nat) : (d.setEp e x).region m = d.region m := rfl
@[simp] theorem Dev.setEp_gate (d : Dev) (e : Nat) (x : Endpoint) (m : Nat) : (d.setEp e x).gate m = d.gate m := rfl
@[simp] theorem Dev.setEp_block (d : Dev) (e : Nat) (x : Endpoint) (m : Nat) : (d.setEp e x).block m = d.block m := rfl
@[simp] theorem Dev.setEp_cage (d : Dev) (e : Nat) (x : Endpoint) (m : Nat) : (d.setEp e x).cage m = d.cage m := rfl
@[simp] theorem Dev.setEp_clk (d : Dev) (e : Nat) (x : Endpoint) (m : Nat) : (d.setEp e x).clk m = d.clk m := rfl
@[simp] theorem Dev.setEp_belfryNow (d : Dev) (e : Nat) (x : Endpoint) (m : Nat) : (d.setEp e x).belfryNow m = d.belfryNow m := rfl
@[simp] theorem Dev.setEp_gateNow (d : Dev) (e : Nat) (x : Endpoint) (m : Nat) : (d.setEp e x).gateNow m = d.gateNow m := rfl
@[simp] theorem Dev.setEp_wardenNow (d : Dev) (e : Nat) (x : Endpoint) : (d.setEp e x).wardenNow = d.wardenNow := rfl
@[simp] theorem Dev.setEp_lanternNow (d : Dev) (e : Nat) (x : Endpoint) : (d.setEp e x).lanternNow = d.lanternNow := rfl
@[simp] theorem Dev.modEp_now (d : Dev) (e : Nat) (f : Endpoint → Endpoint) : (d.modEp e f).now = d.now := rfl
@[simp] theorem Dev.modEp_skews (d : Dev) (e : Nat) (f : Endpoint → Endpoint) : (d.modEp e f).skews = d.skews := rfl
@[simp] theorem Dev.modEp_free (d : Dev) (e : Nat) (f : Endpoint → Endpoint) : (d.modEp e f).free = d.free := rfl
@[simp] theorem Dev.modEp_nextId (d : Dev) (e : Nat) (f : Endpoint → Endpoint) : (d.modEp e f).nextId = d.nextId := rfl
@[simp] theorem Dev.modEp_out (d : Dev) (e : Nat) (f : Endpoint → Endpoint) : (d.modEp e f).out = d.out := rfl
@[simp] theorem Dev.modEp_counters (d : Dev) (e : Nat) (f : Endpoint → Endpoint) : (d.modEp e f).counters = d.counters := rfl
@[simp] theorem Dev.modEp_raises (d : Dev) (e : Nat) (f : Endpoint → Endpoint) : (d.modEp e f).raises = d.raises := rfl
@[simp] theorem Dev.modEp_events (d : Dev) (e : Nat) (f : Endpoint → Endpoint) : (d.modEp e f).events = d.events := rfl
@[simp] theorem Dev.modEp_lantern (d : Dev) (e : Nat) (f : Endpoint → Endpoint) : (d.modEp e f).lantern = d.lantern := rfl
@[simp] theorem Dev.modEp_cages (d : Dev) (e : Nat) (f : Endpoint → Endpoint) : (d.modEp e f).cages = d.cages := rfl
@[simp] theorem Dev.modEp_ports (d : Dev) (e : Nat) (f : Endpoint → Endpoint) : (d.modEp e f).ports = d.ports := rfl
@[simp] theorem Dev.modEp_chip (d : Dev) (e : Nat) (f : Endpoint → Endpoint) : (d.modEp e f).chip = d.chip := rfl
@[simp] theorem Dev.modEp_regions (d : Dev) (e : Nat) (f : Endpoint → Endpoint) : (d.modEp e f).regions = d.regions := rfl
@[simp] theorem Dev.modEp_gates (d : Dev) (e : Nat) (f : Endpoint → Endpoint) : (d.modEp e f).gates = d.gates := rfl
@[simp] theorem Dev.modEp_warden (d : Dev) (e : Nat) (f : Endpoint → Endpoint) : (d.modEp e f).warden = d.warden := rfl
@[simp] theorem Dev.modEp_epochs (d : Dev) (e : Nat) (f : Endpoint → Endpoint) : (d.modEp e f).epochs = d.epochs := rfl
@[simp] theorem Dev.modEp_twin (d : Dev) (e : Nat) (f : Endpoint → Endpoint) : (d.modEp e f).twin = d.twin := rfl
@[simp] theorem Dev.modEp_blocks (d : Dev) (e : Nat) (f : Endpoint → Endpoint) : (d.modEp e f).blocks = d.blocks := rfl
@[simp] theorem Dev.modEp_boot (d : Dev) (e : Nat) (f : Endpoint → Endpoint) : (d.modEp e f).boot = d.boot := rfl
@[simp] theorem Dev.modEp_errCtrl (d : Dev) (e : Nat) (f : Endpoint → Endpoint) : (d.modEp e f).errCtrl = d.errCtrl := rfl
@[simp] theorem Dev.modEp_errStart (d : Dev) (e : Nat) (f : Endpoint → Endpoint) : (d.modEp e f).errStart = d.errStart := rfl
@[simp] theorem Dev.modEp_errRise (d : Dev) (e : Nat) (f : Endpoint → Endpoint) : (d.modEp e f).errRise = d.errRise := rfl
@[simp] theorem Dev.modEp_errRaised (d : Dev) (e : Nat) (f : Endpoint → Endpoint) : (d.modEp e f).errRaised = d.errRaised := rfl
@[simp] theorem Dev.modEp_quarantine (d : Dev) (e : Nat) (f : Endpoint → Endpoint) : (d.modEp e f).quarantine = d.quarantine := rfl
@[simp] theorem Dev.modEp_counter (d : Dev) (e : Nat) (f : Endpoint → Endpoint) (m : Nat) : (d.modEp e f).counter m = d.counter m := rfl
@[simp] theorem Dev.modEp_port (d : Dev) (e : Nat) (f : Endpoint → Endpoint) (m : Nat) : (d.modEp e f).port m = d.port m := rfl
@[simp] theorem Dev.modEp_region (d : Dev) (e : Nat) (f : Endpoint → Endpoint) (m : Nat) : (d.modEp e f).region m = d.region m := rfl
@[simp] theorem Dev.modEp_gate (d : Dev) (e : Nat) (f : Endpoint → Endpoint) (m : Nat) : (d.modEp e f).gate m = d.gate m := rfl
@[simp] theorem Dev.modEp_block (d : Dev) (e : Nat) (f : Endpoint → Endpoint) (m : Nat) : (d.modEp e f).block m = d.block m := rfl
@[simp] theorem Dev.modEp_cage (d : Dev) (e : Nat) (f : Endpoint → Endpoint) (m : Nat) : (d.modEp e f).cage m = d.cage m := rfl
@[simp] theorem Dev.modEp_clk (d : Dev) (e : Nat) (f : Endpoint → Endpoint) (m : Nat) : (d.modEp e f).clk m = d.clk m := rfl
@[simp] theorem Dev.modEp_belfryNow (d : Dev) (e : Nat) (f : Endpoint → Endpoint) (m : Nat) : (d.modEp e f).belfryNow m = d.belfryNow m := rfl
@[simp] theorem Dev.modEp_gateNow (d : Dev) (e : Nat) (f : Endpoint → Endpoint) (m : Nat) : (d.modEp e f).gateNow m = d.gateNow m := rfl
@[simp] theorem Dev.modEp_wardenNow (d : Dev) (e : Nat) (f : Endpoint → Endpoint) : (d.modEp e f).wardenNow = d.wardenNow := rfl
@[simp] theorem Dev.modEp_lanternNow (d : Dev) (e : Nat) (f : Endpoint → Endpoint) : (d.modEp e f).lanternNow = d.lanternNow := rfl
@[simp] theorem Dev.modSq_now (d : Dev) (e q : Nat) (f : Sq → Sq) : (d.modSq e q f).now = d.now := rfl
@[simp] theorem Dev.modSq_skews (d : Dev) (e q : Nat) (f : Sq → Sq) : (d.modSq e q f).skews = d.skews := rfl
@[simp] theorem Dev.modSq_free (d : Dev) (e q : Nat) (f : Sq → Sq) : (d.modSq e q f).free = d.free := rfl
@[simp] theorem Dev.modSq_nextId (d : Dev) (e q : Nat) (f : Sq → Sq) : (d.modSq e q f).nextId = d.nextId := rfl
@[simp] theorem Dev.modSq_out (d : Dev) (e q : Nat) (f : Sq → Sq) : (d.modSq e q f).out = d.out := rfl
@[simp] theorem Dev.modSq_counters (d : Dev) (e q : Nat) (f : Sq → Sq) : (d.modSq e q f).counters = d.counters := rfl
@[simp] theorem Dev.modSq_raises (d : Dev) (e q : Nat) (f : Sq → Sq) : (d.modSq e q f).raises = d.raises := rfl
@[simp] theorem Dev.modSq_events (d : Dev) (e q : Nat) (f : Sq → Sq) : (d.modSq e q f).events = d.events := rfl
@[simp] theorem Dev.modSq_lantern (d : Dev) (e q : Nat) (f : Sq → Sq) : (d.modSq e q f).lantern = d.lantern := rfl
@[simp] theorem Dev.modSq_cages (d : Dev) (e q : Nat) (f : Sq → Sq) : (d.modSq e q f).cages = d.cages := rfl
@[simp] theorem Dev.modSq_ports (d : Dev) (e q : Nat) (f : Sq → Sq) : (d.modSq e q f).ports = d.ports := rfl
@[simp] theorem Dev.modSq_chip (d : Dev) (e q : Nat) (f : Sq → Sq) : (d.modSq e q f).chip = d.chip := rfl
@[simp] theorem Dev.modSq_regions (d : Dev) (e q : Nat) (f : Sq → Sq) : (d.modSq e q f).regions = d.regions := rfl
@[simp] theorem Dev.modSq_gates (d : Dev) (e q : Nat) (f : Sq → Sq) : (d.modSq e q f).gates = d.gates := rfl
@[simp] theorem Dev.modSq_warden (d : Dev) (e q : Nat) (f : Sq → Sq) : (d.modSq e q f).warden = d.warden := rfl
@[simp] theorem Dev.modSq_epochs (d : Dev) (e q : Nat) (f : Sq → Sq) : (d.modSq e q f).epochs = d.epochs := rfl
@[simp] theorem Dev.modSq_twin (d : Dev) (e q : Nat) (f : Sq → Sq) : (d.modSq e q f).twin = d.twin := rfl
@[simp] theorem Dev.modSq_blocks (d : Dev) (e q : Nat) (f : Sq → Sq) : (d.modSq e q f).blocks = d.blocks := rfl
@[simp] theorem Dev.modSq_boot (d : Dev) (e q : Nat) (f : Sq → Sq) : (d.modSq e q f).boot = d.boot := rfl
@[simp] theorem Dev.modSq_errCtrl (d : Dev) (e q : Nat) (f : Sq → Sq) : (d.modSq e q f).errCtrl = d.errCtrl := rfl
@[simp] theorem Dev.modSq_errStart (d : Dev) (e q : Nat) (f : Sq → Sq) : (d.modSq e q f).errStart = d.errStart := rfl
@[simp] theorem Dev.modSq_errRise (d : Dev) (e q : Nat) (f : Sq → Sq) : (d.modSq e q f).errRise = d.errRise := rfl
@[simp] theorem Dev.modSq_errRaised (d : Dev) (e q : Nat) (f : Sq → Sq) : (d.modSq e q f).errRaised = d.errRaised := rfl
@[simp] theorem Dev.modSq_quarantine (d : Dev) (e q : Nat) (f : Sq → Sq) : (d.modSq e q f).quarantine = d.quarantine := rfl
@[simp] theorem Dev.modSq_counter (d : Dev) (e q : Nat) (f : Sq → Sq) (m : Nat) : (d.modSq e q f).counter m = d.counter m := rfl
@[simp] theorem Dev.modSq_port (d : Dev) (e q : Nat) (f : Sq → Sq) (m : Nat) : (d.modSq e q f).port m = d.port m := rfl
@[simp] theorem Dev.modSq_region (d : Dev) (e q : Nat) (f : Sq → Sq) (m : Nat) : (d.modSq e q f).region m = d.region m := rfl
@[simp] theorem Dev.modSq_gate (d : Dev) (e q : Nat) (f : Sq → Sq) (m : Nat) : (d.modSq e q f).gate m = d.gate m := rfl
@[simp] theorem Dev.modSq_block (d : Dev) (e q : Nat) (f : Sq → Sq) (m : Nat) : (d.modSq e q f).block m = d.block m := rfl
@[simp] theorem Dev.modSq_cage (d : Dev) (e q : Nat) (f : Sq → Sq) (m : Nat) : (d.modSq e q f).cage m = d.cage m := rfl
@[simp] theorem Dev.modSq_clk (d : Dev) (e q : Nat) (f : Sq → Sq) (m : Nat) : (d.modSq e q f).clk m = d.clk m := rfl
@[simp] theorem Dev.modSq_belfryNow (d : Dev) (e q : Nat) (f : Sq → Sq) (m : Nat) : (d.modSq e q f).belfryNow m = d.belfryNow m := rfl
@[simp] theorem Dev.modSq_gateNow (d : Dev) (e q : Nat) (f : Sq → Sq) (m : Nat) : (d.modSq e q f).gateNow m = d.gateNow m := rfl
@[simp] theorem Dev.modSq_wardenNow (d : Dev) (e q : Nat) (f : Sq → Sq) : (d.modSq e q f).wardenNow = d.wardenNow := rfl
@[simp] theorem Dev.modSq_lanternNow (d : Dev) (e q : Nat) (f : Sq → Sq) : (d.modSq e q f).lanternNow = d.lanternNow := rfl
@[simp] theorem Dev.modCq_now (d : Dev) (e q : Nat) (f : Cq → Cq) : (d.modCq e q f).now = d.now := rfl
@[simp] theorem Dev.modCq_skews (d : Dev) (e q : Nat) (f : Cq → Cq) : (d.modCq e q f).skews = d.skews := rfl
@[simp] theorem Dev.modCq_free (d : Dev) (e q : Nat) (f : Cq → Cq) : (d.modCq e q f).free = d.free := rfl
@[simp] theorem Dev.modCq_nextId (d : Dev) (e q : Nat) (f : Cq → Cq) : (d.modCq e q f).nextId = d.nextId := rfl
@[simp] theorem Dev.modCq_out (d : Dev) (e q : Nat) (f : Cq → Cq) : (d.modCq e q f).out = d.out := rfl
@[simp] theorem Dev.modCq_counters (d : Dev) (e q : Nat) (f : Cq → Cq) : (d.modCq e q f).counters = d.counters := rfl
@[simp] theorem Dev.modCq_raises (d : Dev) (e q : Nat) (f : Cq → Cq) : (d.modCq e q f).raises = d.raises := rfl
@[simp] theorem Dev.modCq_events (d : Dev) (e q : Nat) (f : Cq → Cq) : (d.modCq e q f).events = d.events := rfl
@[simp] theorem Dev.modCq_lantern (d : Dev) (e q : Nat) (f : Cq → Cq) : (d.modCq e q f).lantern = d.lantern := rfl
@[simp] theorem Dev.modCq_cages (d : Dev) (e q : Nat) (f : Cq → Cq) : (d.modCq e q f).cages = d.cages := rfl
@[simp] theorem Dev.modCq_ports (d : Dev) (e q : Nat) (f : Cq → Cq) : (d.modCq e q f).ports = d.ports := rfl
@[simp] theorem Dev.modCq_chip (d : Dev) (e q : Nat) (f : Cq → Cq) : (d.modCq e q f).chip = d.chip := rfl
@[simp] theorem Dev.modCq_regions (d : Dev) (e q : Nat) (f : Cq → Cq) : (d.modCq e q f).regions = d.regions := rfl
@[simp] theorem Dev.modCq_gates (d : Dev) (e q : Nat) (f : Cq → Cq) : (d.modCq e q f).gates = d.gates := rfl
@[simp] theorem Dev.modCq_warden (d : Dev) (e q : Nat) (f : Cq → Cq) : (d.modCq e q f).warden = d.warden := rfl
@[simp] theorem Dev.modCq_epochs (d : Dev) (e q : Nat) (f : Cq → Cq) : (d.modCq e q f).epochs = d.epochs := rfl
@[simp] theorem Dev.modCq_twin (d : Dev) (e q : Nat) (f : Cq → Cq) : (d.modCq e q f).twin = d.twin := rfl
@[simp] theorem Dev.modCq_blocks (d : Dev) (e q : Nat) (f : Cq → Cq) : (d.modCq e q f).blocks = d.blocks := rfl
@[simp] theorem Dev.modCq_boot (d : Dev) (e q : Nat) (f : Cq → Cq) : (d.modCq e q f).boot = d.boot := rfl
@[simp] theorem Dev.modCq_errCtrl (d : Dev) (e q : Nat) (f : Cq → Cq) : (d.modCq e q f).errCtrl = d.errCtrl := rfl
@[simp] theorem Dev.modCq_errStart (d : Dev) (e q : Nat) (f : Cq → Cq) : (d.modCq e q f).errStart = d.errStart := rfl
@[simp] theorem Dev.modCq_errRise (d : Dev) (e q : Nat) (f : Cq → Cq) : (d.modCq e q f).errRise = d.errRise := rfl
@[simp] theorem Dev.modCq_errRaised (d : Dev) (e q : Nat) (f : Cq → Cq) : (d.modCq e q f).errRaised = d.errRaised := rfl
@[simp] theorem Dev.modCq_quarantine (d : Dev) (e q : Nat) (f : Cq → Cq) : (d.modCq e q f).quarantine = d.quarantine := rfl
@[simp] theorem Dev.modCq_counter (d : Dev) (e q : Nat) (f : Cq → Cq) (m : Nat) : (d.modCq e q f).counter m = d.counter m := rfl
@[simp] theorem Dev.modCq_port (d : Dev) (e q : Nat) (f : Cq → Cq) (m : Nat) : (d.modCq e q f).port m = d.port m := rfl
@[simp] theorem Dev.modCq_region (d : Dev) (e q : Nat) (f : Cq → Cq) (m : Nat) : (d.modCq e q f).region m = d.region m := rfl
@[simp] theorem Dev.modCq_gate (d : Dev) (e q : Nat) (f : Cq → Cq) (m : Nat) : (d.modCq e q f).gate m = d.gate m := rfl
@[simp] theorem Dev.modCq_block (d : Dev) (e q : Nat) (f : Cq → Cq) (m : Nat) : (d.modCq e q f).block m = d.block m := rfl
@[simp] theorem Dev.modCq_cage (d : Dev) (e q : Nat) (f : Cq → Cq) (m : Nat) : (d.modCq e q f).cage m = d.cage m := rfl
@[simp] theorem Dev.modCq_clk (d : Dev) (e q : Nat) (f : Cq → Cq) (m : Nat) : (d.modCq e q f).clk m = d.clk m := rfl
@[simp] theorem Dev.modCq_belfryNow (d : Dev) (e q : Nat) (f : Cq → Cq) (m : Nat) : (d.modCq e q f).belfryNow m = d.belfryNow m := rfl
@[simp] theorem Dev.modCq_gateNow (d : Dev) (e q : Nat) (f : Cq → Cq) (m : Nat) : (d.modCq e q f).gateNow m = d.gateNow m := rfl
@[simp] theorem Dev.modCq_wardenNow (d : Dev) (e q : Nat) (f : Cq → Cq) : (d.modCq e q f).wardenNow = d.wardenNow := rfl
@[simp] theorem Dev.modCq_lanternNow (d : Dev) (e q : Nat) (f : Cq → Cq) : (d.modCq e q f).lanternNow = d.lanternNow := rfl
@[simp] theorem Dev.modEq_now (d : Dev) (e q : Nat) (f : Cq → Cq) : (d.modEq e q f).now = d.now := rfl
@[simp] theorem Dev.modEq_skews (d : Dev) (e q : Nat) (f : Cq → Cq) : (d.modEq e q f).skews = d.skews := rfl
@[simp] theorem Dev.modEq_free (d : Dev) (e q : Nat) (f : Cq → Cq) : (d.modEq e q f).free = d.free := rfl
@[simp] theorem Dev.modEq_nextId (d : Dev) (e q : Nat) (f : Cq → Cq) : (d.modEq e q f).nextId = d.nextId := rfl
@[simp] theorem Dev.modEq_out (d : Dev) (e q : Nat) (f : Cq → Cq) : (d.modEq e q f).out = d.out := rfl
@[simp] theorem Dev.modEq_counters (d : Dev) (e q : Nat) (f : Cq → Cq) : (d.modEq e q f).counters = d.counters := rfl
@[simp] theorem Dev.modEq_raises (d : Dev) (e q : Nat) (f : Cq → Cq) : (d.modEq e q f).raises = d.raises := rfl
@[simp] theorem Dev.modEq_events (d : Dev) (e q : Nat) (f : Cq → Cq) : (d.modEq e q f).events = d.events := rfl
@[simp] theorem Dev.modEq_lantern (d : Dev) (e q : Nat) (f : Cq → Cq) : (d.modEq e q f).lantern = d.lantern := rfl
@[simp] theorem Dev.modEq_cages (d : Dev) (e q : Nat) (f : Cq → Cq) : (d.modEq e q f).cages = d.cages := rfl
@[simp] theorem Dev.modEq_ports (d : Dev) (e q : Nat) (f : Cq → Cq) : (d.modEq e q f).ports = d.ports := rfl
@[simp] theorem Dev.modEq_chip (d : Dev) (e q : Nat) (f : Cq → Cq) : (d.modEq e q f).chip = d.chip := rfl
@[simp] theorem Dev.modEq_regions (d : Dev) (e q : Nat) (f : Cq → Cq) : (d.modEq e q f).regions = d.regions := rfl
@[simp] theorem Dev.modEq_gates (d : Dev) (e q : Nat) (f : Cq → Cq) : (d.modEq e q f).gates = d.gates := rfl
@[simp] theorem Dev.modEq_warden (d : Dev) (e q : Nat) (f : Cq → Cq) : (d.modEq e q f).warden = d.warden := rfl
@[simp] theorem Dev.modEq_epochs (d : Dev) (e q : Nat) (f : Cq → Cq) : (d.modEq e q f).epochs = d.epochs := rfl
@[simp] theorem Dev.modEq_twin (d : Dev) (e q : Nat) (f : Cq → Cq) : (d.modEq e q f).twin = d.twin := rfl
@[simp] theorem Dev.modEq_blocks (d : Dev) (e q : Nat) (f : Cq → Cq) : (d.modEq e q f).blocks = d.blocks := rfl
@[simp] theorem Dev.modEq_boot (d : Dev) (e q : Nat) (f : Cq → Cq) : (d.modEq e q f).boot = d.boot := rfl
@[simp] theorem Dev.modEq_errCtrl (d : Dev) (e q : Nat) (f : Cq → Cq) : (d.modEq e q f).errCtrl = d.errCtrl := rfl
@[simp] theorem Dev.modEq_errStart (d : Dev) (e q : Nat) (f : Cq → Cq) : (d.modEq e q f).errStart = d.errStart := rfl
@[simp] theorem Dev.modEq_errRise (d : Dev) (e q : Nat) (f : Cq → Cq) : (d.modEq e q f).errRise = d.errRise := rfl
@[simp] theorem Dev.modEq_errRaised (d : Dev) (e q : Nat) (f : Cq → Cq) : (d.modEq e q f).errRaised = d.errRaised := rfl
@[simp] theorem Dev.modEq_quarantine (d : Dev) (e q : Nat) (f : Cq → Cq) : (d.modEq e q f).quarantine = d.quarantine := rfl
@[simp] theorem Dev.modEq_counter (d : Dev) (e q : Nat) (f : Cq → Cq) (m : Nat) : (d.modEq e q f).counter m = d.counter m := rfl
@[simp] theorem Dev.modEq_port (d : Dev) (e q : Nat) (f : Cq → Cq) (m : Nat) : (d.modEq e q f).port m = d.port m := rfl
@[simp] theorem Dev.modEq_region (d : Dev) (e q : Nat) (f : Cq → Cq) (m : Nat) : (d.modEq e q f).region m = d.region m := rfl
@[simp] theorem Dev.modEq_gate (d : Dev) (e q : Nat) (f : Cq → Cq) (m : Nat) : (d.modEq e q f).gate m = d.gate m := rfl
@[simp] theorem Dev.modEq_block (d : Dev) (e q : Nat) (f : Cq → Cq) (m : Nat) : (d.modEq e q f).block m = d.block m := rfl
@[simp] theorem Dev.modEq_cage (d : Dev) (e q : Nat) (f : Cq → Cq) (m : Nat) : (d.modEq e q f).cage m = d.cage m := rfl
@[simp] theorem Dev.modEq_clk (d : Dev) (e q : Nat) (f : Cq → Cq) (m : Nat) : (d.modEq e q f).clk m = d.clk m := rfl
@[simp] theorem Dev.modEq_belfryNow (d : Dev) (e q : Nat) (f : Cq → Cq) (m : Nat) : (d.modEq e q f).belfryNow m = d.belfryNow m := rfl
@[simp] theorem Dev.modEq_gateNow (d : Dev) (e q : Nat) (f : Cq → Cq) (m : Nat) : (d.modEq e q f).gateNow m = d.gateNow m := rfl
@[simp] theorem Dev.modEq_wardenNow (d : Dev) (e q : Nat) (f : Cq → Cq) : (d.modEq e q f).wardenNow = d.wardenNow := rfl
@[simp] theorem Dev.modEq_lanternNow (d : Dev) (e q : Nat) (f : Cq → Cq) : (d.modEq e q f).lanternNow = d.lanternNow := rfl
@[simp] theorem Dev.modKey_now (d : Dev) (e k : Nat) (f : Key → Key) : (d.modKey e k f).now = d.now := rfl
@[simp] theorem Dev.modKey_skews (d : Dev) (e k : Nat) (f : Key → Key) : (d.modKey e k f).skews = d.skews := rfl
@[simp] theorem Dev.modKey_free (d : Dev) (e k : Nat) (f : Key → Key) : (d.modKey e k f).free = d.free := rfl
@[simp] theorem Dev.modKey_nextId (d : Dev) (e k : Nat) (f : Key → Key) : (d.modKey e k f).nextId = d.nextId := rfl
@[simp] theorem Dev.modKey_out (d : Dev) (e k : Nat) (f : Key → Key) : (d.modKey e k f).out = d.out := rfl
@[simp] theorem Dev.modKey_counters (d : Dev) (e k : Nat) (f : Key → Key) : (d.modKey e k f).counters = d.counters := rfl
@[simp] theorem Dev.modKey_raises (d : Dev) (e k : Nat) (f : Key → Key) : (d.modKey e k f).raises = d.raises := rfl
@[simp] theorem Dev.modKey_events (d : Dev) (e k : Nat) (f : Key → Key) : (d.modKey e k f).events = d.events := rfl
@[simp] theorem Dev.modKey_lantern (d : Dev) (e k : Nat) (f : Key → Key) : (d.modKey e k f).lantern = d.lantern := rfl
@[simp] theorem Dev.modKey_cages (d : Dev) (e k : Nat) (f : Key → Key) : (d.modKey e k f).cages = d.cages := rfl
@[simp] theorem Dev.modKey_ports (d : Dev) (e k : Nat) (f : Key → Key) : (d.modKey e k f).ports = d.ports := rfl
@[simp] theorem Dev.modKey_chip (d : Dev) (e k : Nat) (f : Key → Key) : (d.modKey e k f).chip = d.chip := rfl
@[simp] theorem Dev.modKey_regions (d : Dev) (e k : Nat) (f : Key → Key) : (d.modKey e k f).regions = d.regions := rfl
@[simp] theorem Dev.modKey_gates (d : Dev) (e k : Nat) (f : Key → Key) : (d.modKey e k f).gates = d.gates := rfl
@[simp] theorem Dev.modKey_warden (d : Dev) (e k : Nat) (f : Key → Key) : (d.modKey e k f).warden = d.warden := rfl
@[simp] theorem Dev.modKey_epochs (d : Dev) (e k : Nat) (f : Key → Key) : (d.modKey e k f).epochs = d.epochs := rfl
@[simp] theorem Dev.modKey_twin (d : Dev) (e k : Nat) (f : Key → Key) : (d.modKey e k f).twin = d.twin := rfl
@[simp] theorem Dev.modKey_blocks (d : Dev) (e k : Nat) (f : Key → Key) : (d.modKey e k f).blocks = d.blocks := rfl
@[simp] theorem Dev.modKey_boot (d : Dev) (e k : Nat) (f : Key → Key) : (d.modKey e k f).boot = d.boot := rfl
@[simp] theorem Dev.modKey_errCtrl (d : Dev) (e k : Nat) (f : Key → Key) : (d.modKey e k f).errCtrl = d.errCtrl := rfl
@[simp] theorem Dev.modKey_errStart (d : Dev) (e k : Nat) (f : Key → Key) : (d.modKey e k f).errStart = d.errStart := rfl
@[simp] theorem Dev.modKey_errRise (d : Dev) (e k : Nat) (f : Key → Key) : (d.modKey e k f).errRise = d.errRise := rfl
@[simp] theorem Dev.modKey_errRaised (d : Dev) (e k : Nat) (f : Key → Key) : (d.modKey e k f).errRaised = d.errRaised := rfl
@[simp] theorem Dev.modKey_quarantine (d : Dev) (e k : Nat) (f : Key → Key) : (d.modKey e k f).quarantine = d.quarantine := rfl
@[simp] theorem Dev.modKey_counter (d : Dev) (e k : Nat) (f : Key → Key) (m : Nat) : (d.modKey e k f).counter m = d.counter m := rfl
@[simp] theorem Dev.modKey_port (d : Dev) (e k : Nat) (f : Key → Key) (m : Nat) : (d.modKey e k f).port m = d.port m := rfl
@[simp] theorem Dev.modKey_region (d : Dev) (e k : Nat) (f : Key → Key) (m : Nat) : (d.modKey e k f).region m = d.region m := rfl
@[simp] theorem Dev.modKey_gate (d : Dev) (e k : Nat) (f : Key → Key) (m : Nat) : (d.modKey e k f).gate m = d.gate m := rfl
@[simp] theorem Dev.modKey_block (d : Dev) (e k : Nat) (f : Key → Key) (m : Nat) : (d.modKey e k f).block m = d.block m := rfl
@[simp] theorem Dev.modKey_cage (d : Dev) (e k : Nat) (f : Key → Key) (m : Nat) : (d.modKey e k f).cage m = d.cage m := rfl
@[simp] theorem Dev.modKey_clk (d : Dev) (e k : Nat) (f : Key → Key) (m : Nat) : (d.modKey e k f).clk m = d.clk m := rfl
@[simp] theorem Dev.modKey_belfryNow (d : Dev) (e k : Nat) (f : Key → Key) (m : Nat) : (d.modKey e k f).belfryNow m = d.belfryNow m := rfl
@[simp] theorem Dev.modKey_gateNow (d : Dev) (e k : Nat) (f : Key → Key) (m : Nat) : (d.modKey e k f).gateNow m = d.gateNow m := rfl
@[simp] theorem Dev.modKey_wardenNow (d : Dev) (e k : Nat) (f : Key → Key) : (d.modKey e k f).wardenNow = d.wardenNow := rfl
@[simp] theorem Dev.modKey_lanternNow (d : Dev) (e k : Nat) (f : Key → Key) : (d.modKey e k f).lanternNow = d.lanternNow := rfl
@[simp] theorem Dev.modBlock_now (d : Dev) (b : Nat) (f : Block → Block) : (d.modBlock b f).now = d.now := rfl
@[simp] theorem Dev.modBlock_skews (d : Dev) (b : Nat) (f : Block → Block) : (d.modBlock b f).skews = d.skews := rfl
@[simp] theorem Dev.modBlock_free (d : Dev) (b : Nat) (f : Block → Block) : (d.modBlock b f).free = d.free := rfl
@[simp] theorem Dev.modBlock_nextId (d : Dev) (b : Nat) (f : Block → Block) : (d.modBlock b f).nextId = d.nextId := rfl
@[simp] theorem Dev.modBlock_out (d : Dev) (b : Nat) (f : Block → Block) : (d.modBlock b f).out = d.out := rfl
@[simp] theorem Dev.modBlock_counters (d : Dev) (b : Nat) (f : Block → Block) : (d.modBlock b f).counters = d.counters := rfl
@[simp] theorem Dev.modBlock_raises (d : Dev) (b : Nat) (f : Block → Block) : (d.modBlock b f).raises = d.raises := rfl
@[simp] theorem Dev.modBlock_events (d : Dev) (b : Nat) (f : Block → Block) : (d.modBlock b f).events = d.events := rfl
@[simp] theorem Dev.modBlock_lantern (d : Dev) (b : Nat) (f : Block → Block) : (d.modBlock b f).lantern = d.lantern := rfl
@[simp] theorem Dev.modBlock_cages (d : Dev) (b : Nat) (f : Block → Block) : (d.modBlock b f).cages = d.cages := rfl
@[simp] theorem Dev.modBlock_ports (d : Dev) (b : Nat) (f : Block → Block) : (d.modBlock b f).ports = d.ports := rfl
@[simp] theorem Dev.modBlock_chip (d : Dev) (b : Nat) (f : Block → Block) : (d.modBlock b f).chip = d.chip := rfl
@[simp] theorem Dev.modBlock_regions (d : Dev) (b : Nat) (f : Block → Block) : (d.modBlock b f).regions = d.regions := rfl
@[simp] theorem Dev.modBlock_gates (d : Dev) (b : Nat) (f : Block → Block) : (d.modBlock b f).gates = d.gates := rfl
@[simp] theorem Dev.modBlock_eps (d : Dev) (b : Nat) (f : Block → Block) : (d.modBlock b f).eps = d.eps := rfl
@[simp] theorem Dev.modBlock_warden (d : Dev) (b : Nat) (f : Block → Block) : (d.modBlock b f).warden = d.warden := rfl
@[simp] theorem Dev.modBlock_epochs (d : Dev) (b : Nat) (f : Block → Block) : (d.modBlock b f).epochs = d.epochs := rfl
@[simp] theorem Dev.modBlock_twin (d : Dev) (b : Nat) (f : Block → Block) : (d.modBlock b f).twin = d.twin := rfl
@[simp] theorem Dev.modBlock_boot (d : Dev) (b : Nat) (f : Block → Block) : (d.modBlock b f).boot = d.boot := rfl
@[simp] theorem Dev.modBlock_errCtrl (d : Dev) (b : Nat) (f : Block → Block) : (d.modBlock b f).errCtrl = d.errCtrl := rfl
@[simp] theorem Dev.modBlock_errStart (d : Dev) (b : Nat) (f : Block → Block) : (d.modBlock b f).errStart = d.errStart := rfl
@[simp] theorem Dev.modBlock_errRise (d : Dev) (b : Nat) (f : Block → Block) : (d.modBlock b f).errRise = d.errRise := rfl
@[simp] theorem Dev.modBlock_errRaised (d : Dev) (b : Nat) (f : Block → Block) : (d.modBlock b f).errRaised = d.errRaised := rfl
@[simp] theorem Dev.modBlock_quarantine (d : Dev) (b : Nat) (f : Block → Block) : (d.modBlock b f).quarantine = d.quarantine := rfl
@[simp] theorem Dev.modBlock_counter (d : Dev) (b : Nat) (f : Block → Block) (m : Nat) : (d.modBlock b f).counter m = d.counter m := rfl
@[simp] theorem Dev.modBlock_port (d : Dev) (b : Nat) (f : Block → Block) (m : Nat) : (d.modBlock b f).port m = d.port m := rfl
@[simp] theorem Dev.modBlock_region (d : Dev) (b : Nat) (f : Block → Block) (m : Nat) : (d.modBlock b f).region m = d.region m := rfl
@[simp] theorem Dev.modBlock_gate (d : Dev) (b : Nat) (f : Block → Block) (m : Nat) : (d.modBlock b f).gate m = d.gate m := rfl
@[simp] theorem Dev.modBlock_ep (d : Dev) (b : Nat) (f : Block → Block) (m : Nat) : (d.modBlock b f).ep m = d.ep m := rfl
@[simp] theorem Dev.modBlock_cage (d : Dev) (b : Nat) (f : Block → Block) (m : Nat) : (d.modBlock b f).cage m = d.cage m := rfl
@[simp] theorem Dev.modBlock_clk (d : Dev) (b : Nat) (f : Block → Block) (m : Nat) : (d.modBlock b f).clk m = d.clk m := rfl
@[simp] theorem Dev.modBlock_belfryNow (d : Dev) (b : Nat) (f : Block → Block) (m : Nat) : (d.modBlock b f).belfryNow m = d.belfryNow m := rfl
@[simp] theorem Dev.modBlock_gateNow (d : Dev) (b : Nat) (f : Block → Block) (m : Nat) : (d.modBlock b f).gateNow m = d.gateNow m := rfl
@[simp] theorem Dev.modBlock_wardenNow (d : Dev) (b : Nat) (f : Block → Block) : (d.modBlock b f).wardenNow = d.wardenNow := rfl
@[simp] theorem Dev.modBlock_lanternNow (d : Dev) (b : Nat) (f : Block → Block) : (d.modBlock b f).lanternNow = d.lanternNow := rfl
@[simp] theorem Dev.modCage_now (d : Dev) (c : Nat) (f : Cage → Cage) : (d.modCage c f).now = d.now := rfl
@[simp] theorem Dev.modCage_skews (d : Dev) (c : Nat) (f : Cage → Cage) : (d.modCage c f).skews = d.skews := rfl
@[simp] theorem Dev.modCage_free (d : Dev) (c : Nat) (f : Cage → Cage) : (d.modCage c f).free = d.free := rfl
@[simp] theorem Dev.modCage_nextId (d : Dev) (c : Nat) (f : Cage → Cage) : (d.modCage c f).nextId = d.nextId := rfl
@[simp] theorem Dev.modCage_out (d : Dev) (c : Nat) (f : Cage → Cage) : (d.modCage c f).out = d.out := rfl
@[simp] theorem Dev.modCage_counters (d : Dev) (c : Nat) (f : Cage → Cage) : (d.modCage c f).counters = d.counters := rfl
@[simp] theorem Dev.modCage_raises (d : Dev) (c : Nat) (f : Cage → Cage) : (d.modCage c f).raises = d.raises := rfl
@[simp] theorem Dev.modCage_events (d : Dev) (c : Nat) (f : Cage → Cage) : (d.modCage c f).events = d.events := rfl
@[simp] theorem Dev.modCage_lantern (d : Dev) (c : Nat) (f : Cage → Cage) : (d.modCage c f).lantern = d.lantern := rfl
@[simp] theorem Dev.modCage_ports (d : Dev) (c : Nat) (f : Cage → Cage) : (d.modCage c f).ports = d.ports := rfl
@[simp] theorem Dev.modCage_chip (d : Dev) (c : Nat) (f : Cage → Cage) : (d.modCage c f).chip = d.chip := rfl
@[simp] theorem Dev.modCage_regions (d : Dev) (c : Nat) (f : Cage → Cage) : (d.modCage c f).regions = d.regions := rfl
@[simp] theorem Dev.modCage_gates (d : Dev) (c : Nat) (f : Cage → Cage) : (d.modCage c f).gates = d.gates := rfl
@[simp] theorem Dev.modCage_eps (d : Dev) (c : Nat) (f : Cage → Cage) : (d.modCage c f).eps = d.eps := rfl
@[simp] theorem Dev.modCage_warden (d : Dev) (c : Nat) (f : Cage → Cage) : (d.modCage c f).warden = d.warden := rfl
@[simp] theorem Dev.modCage_epochs (d : Dev) (c : Nat) (f : Cage → Cage) : (d.modCage c f).epochs = d.epochs := rfl
@[simp] theorem Dev.modCage_twin (d : Dev) (c : Nat) (f : Cage → Cage) : (d.modCage c f).twin = d.twin := rfl
@[simp] theorem Dev.modCage_blocks (d : Dev) (c : Nat) (f : Cage → Cage) : (d.modCage c f).blocks = d.blocks := rfl
@[simp] theorem Dev.modCage_boot (d : Dev) (c : Nat) (f : Cage → Cage) : (d.modCage c f).boot = d.boot := rfl
@[simp] theorem Dev.modCage_errCtrl (d : Dev) (c : Nat) (f : Cage → Cage) : (d.modCage c f).errCtrl = d.errCtrl := rfl
@[simp] theorem Dev.modCage_errStart (d : Dev) (c : Nat) (f : Cage → Cage) : (d.modCage c f).errStart = d.errStart := rfl
@[simp] theorem Dev.modCage_errRise (d : Dev) (c : Nat) (f : Cage → Cage) : (d.modCage c f).errRise = d.errRise := rfl
@[simp] theorem Dev.modCage_errRaised (d : Dev) (c : Nat) (f : Cage → Cage) : (d.modCage c f).errRaised = d.errRaised := rfl
@[simp] theorem Dev.modCage_quarantine (d : Dev) (c : Nat) (f : Cage → Cage) : (d.modCage c f).quarantine = d.quarantine := rfl
@[simp] theorem Dev.modCage_counter (d : Dev) (c : Nat) (f : Cage → Cage) (m : Nat) : (d.modCage c f).counter m = d.counter m := rfl
@[simp] theorem Dev.modCage_port (d : Dev) (c : Nat) (f : Cage → Cage) (m : Nat) : (d.modCage c f).port m = d.port m := rfl
@[simp] theorem Dev.modCage_region (d : Dev) (c : Nat) (f : Cage → Cage) (m : Nat) : (d.modCage c f).region m = d.region m := rfl
@[simp] theorem Dev.modCage_gate (d : Dev) (c : Nat) (f : Cage → Cage) (m : Nat) : (d.modCage c f).gate m = d.gate m := rfl
@[simp] theorem Dev.modCage_ep (d : Dev) (c : Nat) (f : Cage → Cage) (m : Nat) : (d.modCage c f).ep m = d.ep m := rfl
@[simp] theorem Dev.modCage_block (d : Dev) (c : Nat) (f : Cage → Cage) (m : Nat) : (d.modCage c f).block m = d.block m := rfl
@[simp] theorem Dev.modCage_clk (d : Dev) (c : Nat) (f : Cage → Cage) (m : Nat) : (d.modCage c f).clk m = d.clk m := rfl
@[simp] theorem Dev.modCage_belfryNow (d : Dev) (c : Nat) (f : Cage → Cage) (m : Nat) : (d.modCage c f).belfryNow m = d.belfryNow m := rfl
@[simp] theorem Dev.modCage_gateNow (d : Dev) (c : Nat) (f : Cage → Cage) (m : Nat) : (d.modCage c f).gateNow m = d.gateNow m := rfl
@[simp] theorem Dev.modCage_wardenNow (d : Dev) (c : Nat) (f : Cage → Cage) : (d.modCage c f).wardenNow = d.wardenNow := rfl
@[simp] theorem Dev.modCage_lanternNow (d : Dev) (c : Nat) (f : Cage → Cage) : (d.modCage c f).lanternNow = d.lanternNow := rfl
@[simp] theorem Dev.modWarden_now (d : Dev) (f : Warden → Warden) : (d.modWarden f).now = d.now := rfl
@[simp] theorem Dev.modWarden_skews (d : Dev) (f : Warden → Warden) : (d.modWarden f).skews = d.skews := rfl
@[simp] theorem Dev.modWarden_free (d : Dev) (f : Warden → Warden) : (d.modWarden f).free = d.free := rfl
@[simp] theorem Dev.modWarden_nextId (d : Dev) (f : Warden → Warden) : (d.modWarden f).nextId = d.nextId := rfl
@[simp] theorem Dev.modWarden_out (d : Dev) (f : Warden → Warden) : (d.modWarden f).out = d.out := rfl
@[simp] theorem Dev.modWarden_counters (d : Dev) (f : Warden → Warden) : (d.modWarden f).counters = d.counters := rfl
@[simp] theorem Dev.modWarden_raises (d : Dev) (f : Warden → Warden) : (d.modWarden f).raises = d.raises := rfl
@[simp] theorem Dev.modWarden_events (d : Dev) (f : Warden → Warden) : (d.modWarden f).events = d.events := rfl
@[simp] theorem Dev.modWarden_lantern (d : Dev) (f : Warden → Warden) : (d.modWarden f).lantern = d.lantern := rfl
@[simp] theorem Dev.modWarden_cages (d : Dev) (f : Warden → Warden) : (d.modWarden f).cages = d.cages := rfl
@[simp] theorem Dev.modWarden_ports (d : Dev) (f : Warden → Warden) : (d.modWarden f).ports = d.ports := rfl
@[simp] theorem Dev.modWarden_chip (d : Dev) (f : Warden → Warden) : (d.modWarden f).chip = d.chip := rfl
@[simp] theorem Dev.modWarden_regions (d : Dev) (f : Warden → Warden) : (d.modWarden f).regions = d.regions := rfl
@[simp] theorem Dev.modWarden_gates (d : Dev) (f : Warden → Warden) : (d.modWarden f).gates = d.gates := rfl
@[simp] theorem Dev.modWarden_eps (d : Dev) (f : Warden → Warden) : (d.modWarden f).eps = d.eps := rfl
@[simp] theorem Dev.modWarden_epochs (d : Dev) (f : Warden → Warden) : (d.modWarden f).epochs = d.epochs := rfl
@[simp] theorem Dev.modWarden_twin (d : Dev) (f : Warden → Warden) : (d.modWarden f).twin = d.twin := rfl
@[simp] theorem Dev.modWarden_blocks (d : Dev) (f : Warden → Warden) : (d.modWarden f).blocks = d.blocks := rfl
@[simp] theorem Dev.modWarden_boot (d : Dev) (f : Warden → Warden) : (d.modWarden f).boot = d.boot := rfl
@[simp] theorem Dev.modWarden_errCtrl (d : Dev) (f : Warden → Warden) : (d.modWarden f).errCtrl = d.errCtrl := rfl
@[simp] theorem Dev.modWarden_errStart (d : Dev) (f : Warden → Warden) : (d.modWarden f).errStart = d.errStart := rfl
@[simp] theorem Dev.modWarden_errRise (d : Dev) (f : Warden → Warden) : (d.modWarden f).errRise = d.errRise := rfl
@[simp] theorem Dev.modWarden_errRaised (d : Dev) (f : Warden → Warden) : (d.modWarden f).errRaised = d.errRaised := rfl
@[simp] theorem Dev.modWarden_quarantine (d : Dev) (f : Warden → Warden) : (d.modWarden f).quarantine = d.quarantine := rfl
@[simp] theorem Dev.modWarden_counter (d : Dev) (f : Warden → Warden) (m : Nat) : (d.modWarden f).counter m = d.counter m := rfl
@[simp] theorem Dev.modWarden_port (d : Dev) (f : Warden → Warden) (m : Nat) : (d.modWarden f).port m = d.port m := rfl
@[simp] theorem Dev.modWarden_region (d : Dev) (f : Warden → Warden) (m : Nat) : (d.modWarden f).region m = d.region m := rfl
@[simp] theorem Dev.modWarden_gate (d : Dev) (f : Warden → Warden) (m : Nat) : (d.modWarden f).gate m = d.gate m := rfl
@[simp] theorem Dev.modWarden_ep (d : Dev) (f : Warden → Warden) (m : Nat) : (d.modWarden f).ep m = d.ep m := rfl
@[simp] theorem Dev.modWarden_block (d : Dev) (f : Warden → Warden) (m : Nat) : (d.modWarden f).block m = d.block m := rfl
@[simp] theorem Dev.modWarden_cage (d : Dev) (f : Warden → Warden) (m : Nat) : (d.modWarden f).cage m = d.cage m := rfl
theorem Dev.modWarden_clk (d : Dev) (f : Warden → Warden) (m : Nat) (h : (f d.warden).pll = d.warden.pll) : (d.modWarden f).clk m = d.clk m := by
  simp only [Dev.clk, Dev.tickPs, Dev.modWarden, h]; rfl
theorem Dev.modWarden_belfryNow (d : Dev) (f : Warden → Warden) (m : Nat) (h : (f d.warden).pll = d.warden.pll) : (d.modWarden f).belfryNow m = d.belfryNow m := Dev.modWarden_clk d f _ h
theorem Dev.modWarden_gateNow (d : Dev) (f : Warden → Warden) (m : Nat) (h : (f d.warden).pll = d.warden.pll) : (d.modWarden f).gateNow m = d.gateNow m := Dev.modWarden_clk d f _ h
theorem Dev.modWarden_wardenNow (d : Dev) (f : Warden → Warden) (h : (f d.warden).pll = d.warden.pll) : (d.modWarden f).wardenNow = d.wardenNow := Dev.modWarden_clk d f _ h
@[simp] theorem Dev.modWarden_lanternNow (d : Dev) (f : Warden → Warden) : (d.modWarden f).lanternNow = d.lanternNow := rfl
@[simp] theorem Dev.modLantern_now (d : Dev) (f : Lantern → Lantern) : (d.modLantern f).now = d.now := rfl
@[simp] theorem Dev.modLantern_skews (d : Dev) (f : Lantern → Lantern) : (d.modLantern f).skews = d.skews := rfl
@[simp] theorem Dev.modLantern_free (d : Dev) (f : Lantern → Lantern) : (d.modLantern f).free = d.free := rfl
@[simp] theorem Dev.modLantern_nextId (d : Dev) (f : Lantern → Lantern) : (d.modLantern f).nextId = d.nextId := rfl
@[simp] theorem Dev.modLantern_out (d : Dev) (f : Lantern → Lantern) : (d.modLantern f).out = d.out := rfl
@[simp] theorem Dev.modLantern_counters (d : Dev) (f : Lantern → Lantern) : (d.modLantern f).counters = d.counters := rfl
@[simp] theorem Dev.modLantern_raises (d : Dev) (f : Lantern → Lantern) : (d.modLantern f).raises = d.raises := rfl
@[simp] theorem Dev.modLantern_events (d : Dev) (f : Lantern → Lantern) : (d.modLantern f).events = d.events := rfl
@[simp] theorem Dev.modLantern_cages (d : Dev) (f : Lantern → Lantern) : (d.modLantern f).cages = d.cages := rfl
@[simp] theorem Dev.modLantern_ports (d : Dev) (f : Lantern → Lantern) : (d.modLantern f).ports = d.ports := rfl
@[simp] theorem Dev.modLantern_chip (d : Dev) (f : Lantern → Lantern) : (d.modLantern f).chip = d.chip := rfl
@[simp] theorem Dev.modLantern_regions (d : Dev) (f : Lantern → Lantern) : (d.modLantern f).regions = d.regions := rfl
@[simp] theorem Dev.modLantern_gates (d : Dev) (f : Lantern → Lantern) : (d.modLantern f).gates = d.gates := rfl
@[simp] theorem Dev.modLantern_eps (d : Dev) (f : Lantern → Lantern) : (d.modLantern f).eps = d.eps := rfl
@[simp] theorem Dev.modLantern_warden (d : Dev) (f : Lantern → Lantern) : (d.modLantern f).warden = d.warden := rfl
@[simp] theorem Dev.modLantern_epochs (d : Dev) (f : Lantern → Lantern) : (d.modLantern f).epochs = d.epochs := rfl
@[simp] theorem Dev.modLantern_twin (d : Dev) (f : Lantern → Lantern) : (d.modLantern f).twin = d.twin := rfl
@[simp] theorem Dev.modLantern_blocks (d : Dev) (f : Lantern → Lantern) : (d.modLantern f).blocks = d.blocks := rfl
@[simp] theorem Dev.modLantern_boot (d : Dev) (f : Lantern → Lantern) : (d.modLantern f).boot = d.boot := rfl
@[simp] theorem Dev.modLantern_errCtrl (d : Dev) (f : Lantern → Lantern) : (d.modLantern f).errCtrl = d.errCtrl := rfl
@[simp] theorem Dev.modLantern_errStart (d : Dev) (f : Lantern → Lantern) : (d.modLantern f).errStart = d.errStart := rfl
@[simp] theorem Dev.modLantern_errRise (d : Dev) (f : Lantern → Lantern) : (d.modLantern f).errRise = d.errRise := rfl
@[simp] theorem Dev.modLantern_errRaised (d : Dev) (f : Lantern → Lantern) : (d.modLantern f).errRaised = d.errRaised := rfl
@[simp] theorem Dev.modLantern_quarantine (d : Dev) (f : Lantern → Lantern) : (d.modLantern f).quarantine = d.quarantine := rfl
@[simp] theorem Dev.modLantern_counter (d : Dev) (f : Lantern → Lantern) (m : Nat) : (d.modLantern f).counter m = d.counter m := rfl
@[simp] theorem Dev.modLantern_port (d : Dev) (f : Lantern → Lantern) (m : Nat) : (d.modLantern f).port m = d.port m := rfl
@[simp] theorem Dev.modLantern_region (d : Dev) (f : Lantern → Lantern) (m : Nat) : (d.modLantern f).region m = d.region m := rfl
@[simp] theorem Dev.modLantern_gate (d : Dev) (f : Lantern → Lantern) (m : Nat) : (d.modLantern f).gate m = d.gate m := rfl
@[simp] theorem Dev.modLantern_ep (d : Dev) (f : Lantern → Lantern) (m : Nat) : (d.modLantern f).ep m = d.ep m := rfl
@[simp] theorem Dev.modLantern_block (d : Dev) (f : Lantern → Lantern) (m : Nat) : (d.modLantern f).block m = d.block m := rfl
@[simp] theorem Dev.modLantern_cage (d : Dev) (f : Lantern → Lantern) (m : Nat) : (d.modLantern f).cage m = d.cage m := rfl
@[simp] theorem Dev.modLantern_clk (d : Dev) (f : Lantern → Lantern) (m : Nat) : (d.modLantern f).clk m = d.clk m := rfl
@[simp] theorem Dev.modLantern_belfryNow (d : Dev) (f : Lantern → Lantern) (m : Nat) : (d.modLantern f).belfryNow m = d.belfryNow m := rfl
@[simp] theorem Dev.modLantern_gateNow (d : Dev) (f : Lantern → Lantern) (m : Nat) : (d.modLantern f).gateNow m = d.gateNow m := rfl
@[simp] theorem Dev.modLantern_wardenNow (d : Dev) (f : Lantern → Lantern) : (d.modLantern f).wardenNow = d.wardenNow := rfl
@[simp] theorem Dev.modLantern_lanternNow (d : Dev) (f : Lantern → Lantern) : (d.modLantern f).lanternNow = d.lanternNow := rfl
@[simp] theorem Dev.modTwin_now (d : Dev) (f : Twin → Twin) : (d.modTwin f).now = d.now := rfl
@[simp] theorem Dev.modTwin_skews (d : Dev) (f : Twin → Twin) : (d.modTwin f).skews = d.skews := rfl
@[simp] theorem Dev.modTwin_free (d : Dev) (f : Twin → Twin) : (d.modTwin f).free = d.free := rfl
@[simp] theorem Dev.modTwin_nextId (d : Dev) (f : Twin → Twin) : (d.modTwin f).nextId = d.nextId := rfl
@[simp] theorem Dev.modTwin_out (d : Dev) (f : Twin → Twin) : (d.modTwin f).out = d.out := rfl
@[simp] theorem Dev.modTwin_counters (d : Dev) (f : Twin → Twin) : (d.modTwin f).counters = d.counters := rfl
@[simp] theorem Dev.modTwin_raises (d : Dev) (f : Twin → Twin) : (d.modTwin f).raises = d.raises := rfl
@[simp] theorem Dev.modTwin_events (d : Dev) (f : Twin → Twin) : (d.modTwin f).events = d.events := rfl
@[simp] theorem Dev.modTwin_lantern (d : Dev) (f : Twin → Twin) : (d.modTwin f).lantern = d.lantern := rfl
@[simp] theorem Dev.modTwin_cages (d : Dev) (f : Twin → Twin) : (d.modTwin f).cages = d.cages := rfl
@[simp] theorem Dev.modTwin_ports (d : Dev) (f : Twin → Twin) : (d.modTwin f).ports = d.ports := rfl
@[simp] theorem Dev.modTwin_chip (d : Dev) (f : Twin → Twin) : (d.modTwin f).chip = d.chip := rfl
@[simp] theorem Dev.modTwin_regions (d : Dev) (f : Twin → Twin) : (d.modTwin f).regions = d.regions := rfl
@[simp] theorem Dev.modTwin_gates (d : Dev) (f : Twin → Twin) : (d.modTwin f).gates = d.gates := rfl
@[simp] theorem Dev.modTwin_eps (d : Dev) (f : Twin → Twin) : (d.modTwin f).eps = d.eps := rfl
@[simp] theorem Dev.modTwin_warden (d : Dev) (f : Twin → Twin) : (d.modTwin f).warden = d.warden := rfl
@[simp] theorem Dev.modTwin_epochs (d : Dev) (f : Twin → Twin) : (d.modTwin f).epochs = d.epochs := rfl
@[simp] theorem Dev.modTwin_blocks (d : Dev) (f : Twin → Twin) : (d.modTwin f).blocks = d.blocks := rfl
@[simp] theorem Dev.modTwin_boot (d : Dev) (f : Twin → Twin) : (d.modTwin f).boot = d.boot := rfl
@[simp] theorem Dev.modTwin_errCtrl (d : Dev) (f : Twin → Twin) : (d.modTwin f).errCtrl = d.errCtrl := rfl
@[simp] theorem Dev.modTwin_errStart (d : Dev) (f : Twin → Twin) : (d.modTwin f).errStart = d.errStart := rfl
@[simp] theorem Dev.modTwin_errRise (d : Dev) (f : Twin → Twin) : (d.modTwin f).errRise = d.errRise := rfl
@[simp] theorem Dev.modTwin_errRaised (d : Dev) (f : Twin → Twin) : (d.modTwin f).errRaised = d.errRaised := rfl
@[simp] theorem Dev.modTwin_quarantine (d : Dev) (f : Twin → Twin) : (d.modTwin f).quarantine = d.quarantine := rfl
@[simp] theorem Dev.modTwin_counter (d : Dev) (f : Twin → Twin) (m : Nat) : (d.modTwin f).counter m = d.counter m := rfl
@[simp] theorem Dev.modTwin_port (d : Dev) (f : Twin → Twin) (m : Nat) : (d.modTwin f).port m = d.port m := rfl
@[simp] theorem Dev.modTwin_region (d : Dev) (f : Twin → Twin) (m : Nat) : (d.modTwin f).region m = d.region m := rfl
@[simp] theorem Dev.modTwin_gate (d : Dev) (f : Twin → Twin) (m : Nat) : (d.modTwin f).gate m = d.gate m := rfl
@[simp] theorem Dev.modTwin_ep (d : Dev) (f : Twin → Twin) (m : Nat) : (d.modTwin f).ep m = d.ep m := rfl
@[simp] theorem Dev.modTwin_block (d : Dev) (f : Twin → Twin) (m : Nat) : (d.modTwin f).block m = d.block m := rfl
@[simp] theorem Dev.modTwin_cage (d : Dev) (f : Twin → Twin) (m : Nat) : (d.modTwin f).cage m = d.cage m := rfl
@[simp] theorem Dev.modTwin_clk (d : Dev) (f : Twin → Twin) (m : Nat) : (d.modTwin f).clk m = d.clk m := rfl
@[simp] theorem Dev.modTwin_belfryNow (d : Dev) (f : Twin → Twin) (m : Nat) : (d.modTwin f).belfryNow m = d.belfryNow m := rfl
@[simp] theorem Dev.modTwin_gateNow (d : Dev) (f : Twin → Twin) (m : Nat) : (d.modTwin f).gateNow m = d.gateNow m := rfl
@[simp] theorem Dev.modTwin_wardenNow (d : Dev) (f : Twin → Twin) : (d.modTwin f).wardenNow = d.wardenNow := rfl
@[simp] theorem Dev.modTwin_lanternNow (d : Dev) (f : Twin → Twin) : (d.modTwin f).lanternNow = d.lanternNow := rfl

/-! ## Reads after writes -/

@[simp] theorem Dev.setPort_same (d : Dev) (p : Nat) (x : Port) : (d.setPort p x).port p = x := by simp [Dev.port, Dev.setPort]
theorem Dev.setPort_other (d : Dev) {p q : Nat} (x : Port) (h : q ≠ p) : (d.setPort p x).port q = d.port q := by
  simp [Dev.port, Dev.setPort, h]
@[simp] theorem Dev.modPort_same (d : Dev) (p : Nat) (f : Port → Port) : (d.modPort p f).port p = f (d.port p) := by
  simp [Dev.modPort]
theorem Dev.modPort_other (d : Dev) {p q : Nat} (f : Port → Port) (h : q ≠ p) : (d.modPort p f).port q = d.port q := by
  simp [Dev.modPort, Dev.setPort_other, h]
@[simp] theorem Dev.modTrain_same (d : Dev) (p : Nat) (f : Train → Train) :
    (d.modTrain p f).port p = { d.port p with train := f (d.port p).train } := by simp [Dev.modTrain]
theorem Dev.modTrain_other (d : Dev) {p q : Nat} (f : Train → Train) (h : q ≠ p) : (d.modTrain p f).port q = d.port q := by
  simp [Dev.modTrain, Dev.modPort_other, h]
@[simp] theorem Dev.modToll_same (d : Dev) (p : Nat) (f : Toll → Toll) :
    (d.modToll p f).port p = { d.port p with toll := f (d.port p).toll } := by simp [Dev.modToll]
theorem Dev.modToll_other (d : Dev) {p q : Nat} (f : Toll → Toll) (h : q ≠ p) : (d.modToll p f).port q = d.port q := by
  simp [Dev.modToll, Dev.modPort_other, h]
@[simp] theorem Dev.setRegion_same (d : Dev) (r : Nat) (x : Region) : (d.setRegion r x).region r = x := by
  simp [Dev.region, Dev.setRegion]
theorem Dev.setRegion_other (d : Dev) {r q : Nat} (x : Region) (h : q ≠ r) : (d.setRegion r x).region q = d.region q := by
  simp [Dev.region, Dev.setRegion, h]
@[simp] theorem Dev.modRegion_same (d : Dev) (r : Nat) (f : Region → Region) : (d.modRegion r f).region r = f (d.region r) := by
  simp [Dev.modRegion]
theorem Dev.modRegion_other (d : Dev) {r q : Nat} (f : Region → Region) (h : q ≠ r) : (d.modRegion r f).region q = d.region q := by
  simp [Dev.modRegion, Dev.setRegion_other, h]
@[simp] theorem Dev.setEp_same (d : Dev) (e : Nat) (x : Endpoint) : (d.setEp e x).ep e = x := by simp [Dev.ep, Dev.setEp]
theorem Dev.setEp_other (d : Dev) {e q : Nat} (x : Endpoint) (h : q ≠ e) : (d.setEp e x).ep q = d.ep q := by
  simp [Dev.ep, Dev.setEp, h]
@[simp] theorem Dev.modEp_same (d : Dev) (e : Nat) (f : Endpoint → Endpoint) : (d.modEp e f).ep e = f (d.ep e) := by
  simp [Dev.modEp]
theorem Dev.modEp_other (d : Dev) {e q : Nat} (f : Endpoint → Endpoint) (h : q ≠ e) : (d.modEp e f).ep q = d.ep q := by
  simp [Dev.modEp, Dev.setEp_other, h]
@[simp] theorem Endpoint.modSq_same (x : Endpoint) (q : Nat) (f : Sq → Sq) : (x.modSq q f).sq q = f (x.sq q) := by
  simp [Endpoint.modSq, Endpoint.sq]
theorem Endpoint.modSq_other (x : Endpoint) {q p : Nat} (f : Sq → Sq) (h : p ≠ q) : (x.modSq q f).sq p = x.sq p := by
  simp [Endpoint.modSq, Endpoint.sq, h]
@[simp] theorem Dev.modSq_same (d : Dev) (e q : Nat) (f : Sq → Sq) : (d.modSq e q f).sq e q = f (d.sq e q) := by
  simp [Dev.modSq, Dev.sq]
@[simp] theorem Endpoint.modCq_same (x : Endpoint) (q : Nat) (f : Cq → Cq) : (x.modCq q f).cq q = f (x.cq q) := by
  simp [Endpoint.modCq, Endpoint.cq]
@[simp] theorem Endpoint.modEq_same (x : Endpoint) (q : Nat) (f : Cq → Cq) : (x.modEq q f).eq q = f (x.eq q) := by
  simp [Endpoint.modEq, Endpoint.eq]
@[simp] theorem Endpoint.modKey_same (x : Endpoint) (k : Nat) (f : Key → Key) : (x.modKey k f).key k = f (x.key k) := by
  simp [Endpoint.modKey, Endpoint.key]
@[simp] theorem Dev.modGate_same (d : Dev) (g : Nat) (f : Gate → Gate) : (d.modGate g f).gate g = f (d.gate g) := by
  simp [Dev.modGate, Dev.gate]
@[simp] theorem Dev.modBlock_same (d : Dev) (b : Nat) (f : Block → Block) : (d.modBlock b f).block b = f (d.block b) := by
  simp [Dev.modBlock, Dev.block]
theorem Dev.modBlock_other (d : Dev) {b q : Nat} (f : Block → Block) (h : q ≠ b) : (d.modBlock b f).block q = d.block q := by
  simp [Dev.modBlock, Dev.block, h]
@[simp] theorem Dev.modCage_same (d : Dev) (c : Nat) (f : Cage → Cage) : (d.modCage c f).cage c = f (d.cage c) := by
  simp [Dev.modCage, Dev.cage]
theorem Dev.modCage_other (d : Dev) {c q : Nat} (f : Cage → Cage) (h : q ≠ c) : (d.modCage c f).cage q = d.cage q := by
  simp [Dev.modCage, Dev.cage, h]
@[simp] theorem Dev.modWarden_warden (d : Dev) (f : Warden → Warden) : (d.modWarden f).warden = f d.warden := rfl
@[simp] theorem Dev.modLantern_lantern (d : Dev) (f : Lantern → Lantern) : (d.modLantern f).lantern = f d.lantern := rfl
@[simp] theorem Dev.modTwin_twin (d : Dev) (f : Twin → Twin) : (d.modTwin f).twin = f d.twin := rfl
@[simp] theorem Dev.emit_out (d : Dev) (o : Output) : (d.emit o).out = d.out ++ [o] := rfl
@[simp] theorem Dev.raise_raises (d : Dev) (i a b c : Nat) :
    (d.raise i a b c).raises = d.raises ++ [⟨i, a, b, c, d.clk i, false⟩] := rfl
@[simp] theorem Dev.draw_free (d : Dev) : d.draw.free = d.free + 1 := rfl
@[simp] theorem Dev.takeId_nextId (d : Dev) : d.takeId.nextId = d.nextId + 1 := rfl
@[simp] theorem Dev.countBy_same (d : Dev) (n k : Nat) : (d.countBy n k).counter n = (d.counter n + k) % 2 ^ 64 := by
  simp [Dev.counter, Dev.countBy]
@[simp] theorem Dev.count_same (d : Dev) (n : Nat) : (d.count n).counter n = (d.counter n + 1) % 2 ^ 64 := by
  simp [Dev.count]
theorem Dev.countBy_other (d : Dev) {n m : Nat} (k : Nat) (h : m ≠ n) : (d.countBy n k).counter m = d.counter m := by
  simp [Dev.counter, Dev.countBy, h]
theorem Dev.count_other (d : Dev) {n m : Nat} (h : m ≠ n) : (d.count n).counter m = d.counter m := by
  simp [Dev.count, Dev.countBy_other, h]
@[simp] theorem Dev.clearCounter_same (d : Dev) (n : Nat) : (d.clearCounter n).counter n = 0 := by
  simp [Dev.counter, Dev.clearCounter]

end Sys2Proof.Machine
end

