-- ==== Sys2Proof/Laws/Commands.lean ====
section
/-! SUPPORT. What an Ocmiset command that starts does: once, for every command. -/

namespace Sys2Proof.Machine

/-- A configuration request that the function answers by now is its body, on the endpoint that has just been used. -/
theorem config_ready {e : Nat} {f : Dev → Dev} {s : State} (h1 : s.dev.cfgUp e = true) (h2 : (s.dev.ep e).readyAt ≤ s.dev.gateNow e) :
    config e f s = .next { s with dev := f (s.dev.touchEp e) } := by
  have h3 : ¬ (s.dev.touchEp e).gateNow e < ((s.dev.touchEp e).ep e).readyAt := by
    have : ((s.dev.touchEp e).ep e).readyAt = (s.dev.ep e).readyAt := by simp [Dev.touchEp]
    rw [this]; exact Nat.not_lt.2 h2
  simp only [config, actIf, act, h1, if_true, h3, if_false]

/-- A command that starts and ends with its own body: the body's device, and the final reply. -/
theorem command_done {f : Form} {path : Path} {tag : Nat} {body : Dev → Request → Dev × Answer} {s : State} {q : Request} {ptr : Nat}
    {e : Dev} {st : Nat} {ps : List Byte} (h : Starts s f path tag q ptr) (hb : body (s.dev.started q ptr) q = (e, .done st ps)) :
    command f path tag body s = .next { s with dev := e.finish path tag st ps } := by
  obtain ⟨h1, h2⟩ := h
  simp only [Dev.started] at hb
  simp [command, State.startCommand, State.settle, h1, h2, hb]

/-- A command that starts and goes on executing: it keeps its place, and what it works on. -/
theorem command_runs {f : Form} {path : Path} {tag : Nat} {body : Dev → Request → Dev × Answer} {s : State} {q : Request} {ptr : Nat}
    {e : Dev} {a b : Nat} {data : List Byte} (h : Starts s f path tag q ptr)
    (hb : body (s.dev.started q ptr) q = (e, .runs a b data)) :
    command f path tag body s =
      .next { s with dev := (e.modExec path tag (fun x => { x with a := a, b := b, data := data })).answerBad 256 } := by
  obtain ⟨h1, h2⟩ := h
  simp only [Dev.started] at hb
  simp [command, State.startCommand, State.settle, h1, h2, hb]

/-- A command over the whole state that starts: what its own body answers. -/
theorem start_settles {f : Form} {path : Path} {tag : Nat} {body : State → Request → State × Answer} {s : State} {q : Request} {ptr : Nat}
    (h : Starts s f path tag q ptr) :
    s.startCommand f path tag body = State.settle path tag (body { s with dev := s.dev.started q ptr } q) := by
  obtain ⟨h1, h2⟩ := h
  simp [State.startCommand, h1, h2, Dev.started]

/-- A command over the whole state that starts and ends with its own body. -/
theorem start_done {f : Form} {path : Path} {tag : Nat} {body : State → Request → State × Answer} {s t : State} {q : Request} {ptr : Nat}
    {st : Nat} {ps : List Byte} (h : Starts s f path tag q ptr)
    (hb : body { s with dev := s.dev.started q ptr } q = (t, .done st ps)) :
    s.startCommand f path tag body = { t with dev := t.dev.finish path tag st ps } := by
  rw [start_settles h, hb]; rfl

/-- The row that starts a command of several steps. -/
theorem step_first {f : Form} {path : Path} {tag : Nat} {body : State → Request → State × Answer} {next : State → Exec → State × Answer}
    {s : State} (h : s.dev.warden.exec path tag = none) : s.stepCommand f path tag body next = s.startCommand f path tag body := by
  simp [State.stepCommand, h]

/-- A further row of it takes its next step. -/
theorem step_next {f : Form} {path : Path} {tag : Nat} {body : State → Request → State × Answer} {next : State → Exec → State × Answer}
    {s : State} {x : Exec} (h : s.dev.warden.exec path tag = some x) (ho : x.opcode = f.opcode) (hr : s.dev.wardenRuns = true) :
    s.stepCommand f path tag body next = State.settle path tag (next s x) := by
  simp [State.stepCommand, h, ho, hr]

/-- A row that shares its opcode acts when the request is its own. -/
theorem commandIf_own {own : Request → Bool} {f : Form} {path : Path} {tag : Nat} {body : Dev → Request → Dev × Answer} {s : State}
    {q : Request} {ptr : Nat} (h : Starts s f path tag q ptr) (ho : own q = true) :
    commandIf own f path tag body s = command f path tag body s := by
  obtain ⟨h1, -⟩ := h
  have hn : s.dev.nextStart = some (q, ptr) := by
    unfold Dev.startable at h1
    split at h1
    · rename_i q' ptr' hn
      split at h1
      · cases h1; exact hn
      · cases h1
    · cases h1
  simp [commandIf, hn, ho]

/-- A command that only reads. -/
theorem reading_done {f : Form} {path : Path} {tag : Nat} {body : Dev → Request → Answer} {s : State} {q : Request} {ptr : Nat}
    {st : Nat} {ps : List Byte} (h : Starts s f path tag q ptr) (hb : body (s.dev.started q ptr) q = .done st ps) :
    reading f path tag body s = .next { s with dev := (s.dev.started q ptr).finish path tag st ps } :=
  command_done h (by rw [hb])

/-! ## What every command keeps -/

/-- The outcome is a next state with the flash, the fuses and the queue as before. -/
def Keeps (o : Host.Outcome State Fault Refusal) (s : State) : Prop :=
  ∃ t, o = .next t ∧ t.flash = s.flash ∧ t.fuses = s.fuses ∧ t.pending = s.pending
theorem keeps_act (f : Dev → Dev) (s : State) : Keeps (act f s) s := ⟨_, rfl, rfl, rfl, rfl⟩
theorem keeps_actIf (c : Dev → Bool) (f : Dev → Dev) (s : State) : Keeps (actIf c f s) s := ⟨_, rfl, rfl, rfl, rfl⟩
/-- A property that no change of the device touches holds once a command is settled when it held of its work. -/
theorem State.settle_keeps {P : State → Prop} (hP : ∀ (t : State) (d : Dev), P t → P { t with dev := d }) (path : Path) (tag : Nat)
    (r : State × Answer) (h : P r.1) : P (State.settle path tag r) := by
  obtain ⟨t, _ | _⟩ := r <;> exact hP _ _ h
/-- A property that no change of the device touches holds after a command when its body keeps it. -/
theorem State.startCommand_keeps (P : State → Prop) (s : State) (f : Form) (path tag) (body : State → Request → State × Answer)
   (hP : ∀ (t : State) (d : Dev), P t → P { t with dev := d }) (h0 : P s)
   (hb : ∀ q ptr, s.dev.startable f path tag = some (q, ptr) → P (body { s with dev := s.dev.started q ptr } q).1) :
   P (s.startCommand f path tag body) := by
  unfold State.startCommand
  split
  · exact h0
  · rename_i q ptr h
    have := hb q ptr h
    simp only [Dev.started] at this
    cases hv : s.dev.judge f q with
    | some st => exact hP s _ h0
    | none => exact State.settle_keeps hP _ _ _ this
/-- The same of a command of several steps, each of which keeps it. -/
theorem State.stepCommand_keeps (P : State → Prop) (s : State) (f : Form) (path tag) (body : State → Request → State × Answer)
   (next : State → Exec → State × Answer) (hP : ∀ (t : State) (d : Dev), P t → P { t with dev := d }) (h0 : P s)
   (hb : ∀ q ptr, s.dev.warden.exec path tag = none → s.dev.startable f path tag = some (q, ptr) →
     P (body { s with dev := s.dev.started q ptr } q).1)
   (hn : ∀ x, s.dev.warden.exec path tag = some x → P (next s x).1) : P (s.stepCommand f path tag body next) := by
  unfold State.stepCommand
  split
  · next x h =>
    split
    · exact State.settle_keeps hP _ _ _ (hn x h)
    · exact h0
  · next h => exact State.startCommand_keeps P s f path tag body hP h0 (fun q ptr => hb q ptr h)
theorem keeps_start (s : State) (f path tag) (body : State → Request → State × Answer)
   (h : ∀ u q, (body u q).1.flash = u.flash ∧ (body u q).1.fuses = u.fuses ∧ (body u q).1.pending = u.pending) :
   Keeps (.next (s.startCommand f path tag body)) s :=
  ⟨_, rfl, State.startCommand_keeps (fun t => t.flash = s.flash ∧ t.fuses = s.fuses ∧ t.pending = s.pending) s f path tag body (fun _ _ h => h)
    ⟨rfl, rfl, rfl⟩ (fun q ptr _ => h { s with dev := s.dev.started q ptr } q)⟩
theorem keeps_step (s : State) (f path tag) (body : State → Request → State × Answer) (next : State → Exec → State × Answer)
   (h : ∀ u q, (body u q).1.flash = u.flash ∧ (body u q).1.fuses = u.fuses ∧ (body u q).1.pending = u.pending)
   (h2 : ∀ u x, (next u x).1.flash = u.flash ∧ (next u x).1.fuses = u.fuses ∧ (next u x).1.pending = u.pending) :
   Keeps (.next (s.stepCommand f path tag body next)) s :=
  ⟨_, rfl, State.stepCommand_keeps (fun t => t.flash = s.flash ∧ t.fuses = s.fuses ∧ t.pending = s.pending) s f path tag body next
    (fun _ _ h => h) ⟨rfl, rfl, rfl⟩ (fun q ptr _ _ => h { s with dev := s.dev.started q ptr } q) (fun x _ => h2 s x)⟩
theorem keeps_command (f path tag) (body) (s : State) : Keeps (command f path tag body s) s :=
  keeps_start s f path tag _ (fun _ _ => ⟨rfl, rfl, rfl⟩)
theorem keeps_reading (f path tag) (body) (s : State) : Keeps (reading f path tag body s) s := keeps_command _ _ _ _ _
theorem keeps_ite (b : Bool) {x y : Host.Outcome State Fault Refusal} {s : State} (hx : Keeps x s) (hy : Keeps y s) :
    Keeps (if b = true then x else y) s := by cases b <;> assumption
theorem keeps_commandIf (own f path tag) (body) (s : State) : Keeps (commandIf own f path tag body s) s :=
  keeps_ite _ (keeps_command _ _ _ _ _) ⟨_, rfl, rfl, rfl, rfl⟩


end Sys2Proof.Machine
end

