-- ==== Sys2Proof/Laws/Compose.lean ====
section
/-! SUPPORT. Two updates of one object are one update, and what a repetition keeps. -/

namespace Sys2Proof.Machine

theorem tput_tput {α : Type} (t : Tbl α) (k : Nat) (x y : α) : tput (tput t k x) k y = tput t k y := by
  have hlt : ∀ e : Nat × α, e ∈ t.filter (fun e => decide (k < e.1)) → ¬ decide (e.1 < k) = true := fun e he => by
    have := (List.mem_filter.1 he).2; simp only [decide_eq_true_eq] at *; omega
  have hgt : ∀ e : Nat × α, e ∈ t.filter (fun e => decide (e.1 < k)) → ¬ decide (k < e.1) = true := fun e he => by
    have := (List.mem_filter.1 he).2; simp only [decide_eq_true_eq] at *; omega
  simp [tput, List.filter_eq_nil_iff.2 hlt, List.filter_eq_nil_iff.2 hgt, List.filter_filter]

theorem Dev.modPort_modPort (d : Dev) (p : Nat) (f g : Port → Port) : (d.modPort p f).modPort p g = d.modPort p (fun x => g (f x)) := by
  simp [Dev.modPort, Dev.setPort, Dev.port, tput_tput]
theorem Dev.modTrain_modTrain (d : Dev) (p : Nat) (f g : Train → Train) :
    (d.modTrain p f).modTrain p g = d.modTrain p (fun t => g (f t)) := Dev.modPort_modPort d p _ _
theorem Dev.modToll_modToll (d : Dev) (p : Nat) (f g : Toll → Toll) :
    (d.modToll p f).modToll p g = d.modToll p (fun t => g (f t)) := Dev.modPort_modPort d p _ _
theorem Dev.modRegion_modRegion (d : Dev) (r : Nat) (f g : Region → Region) :
    (d.modRegion r f).modRegion r g = d.modRegion r (fun x => g (f x)) := by
  simp [Dev.modRegion, Dev.setRegion, Dev.region, tput_tput]
theorem Dev.modEp_modEp (d : Dev) (e : Nat) (f g : Endpoint → Endpoint) : (d.modEp e f).modEp e g = d.modEp e (fun x => g (f x)) := by
  simp [Dev.modEp, Dev.setEp, Dev.ep, tput_tput]
theorem Endpoint.modSq_modSq (x : Endpoint) (q : Nat) (f g : Sq → Sq) : (x.modSq q f).modSq q g = x.modSq q (fun y => g (f y)) := by
  simp [Endpoint.modSq, Endpoint.sq, tput_tput]
theorem Dev.modSq_modSq (d : Dev) (e q : Nat) (f g : Sq → Sq) : (d.modSq e q f).modSq e q g = d.modSq e q (fun y => g (f y)) := by
  simp [Dev.modSq, Dev.modEp_modEp, Endpoint.modSq_modSq]
theorem Dev.modBlock_modBlock (d : Dev) (b : Nat) (f g : Block → Block) : (d.modBlock b f).modBlock b g = d.modBlock b (fun x => g (f x)) := by
  simp [Dev.modBlock, Dev.block, tput_tput]

/-- A property that each step keeps holds after them all. -/
theorem forEach_keeps {α : Type} {P : Dev → Prop} (f : α → Dev → Dev) (h : ∀ a d, P d → P (f a d)) (xs : List α) (d : Dev) (h0 : P d) :
    P (forEach xs f d) := by
  induction xs generalizing d with
  | nil => exact h0
  | cons a xs ih => exact ih _ (h a d h0)

/-- What runs over a region's endpoints and changes nothing below one of them runs on that endpoint, then on those above it. -/
theorem forEach_epsOf {f : Nat → Dev → Dev} {d : Dev} {r e : Nat} (he : e ∈ epsOf r) (h : ∀ x ∈ epsOf r, x < e → f x d = d) :
    forEach (epsOf r) f d = forEach ((epsOf r).filter (fun x => decide (e < x))) f (f e d) := by
  simp only [epsOf, List.mem_cons, List.not_mem_nil, or_false, forall_eq_or_imp, forall_eq] at he h
  obtain ⟨h0, h1, h2, h3⟩ := h
  rcases he with rfl | rfl | rfl | rfl <;> simp [epsOf, forEach, h0, h1, h2]

end Sys2Proof.Machine
end

