-- ==== Sys2Proof/Laws/Flash.lean ====
section
/-! SUPPORT. What the operations on the flash, on the fuses and on the HBM do: once, for each. -/

namespace Sys2Proof.Machine

theorem flashPut_wf {m : List Host.Cell} (h : Memory.wf flashDefault m = true) (a : Nat) (bs : List Byte) :
    Memory.wf flashDefault (flashPut m a bs) = true := by
  induction bs generalizing m a with
  | nil => exact h
  | cons b bs ih =>
    simp only [flashPut]
    split
    · exact ih (Memory.write_wf h a b) _
    · exact ih h _
theorem flashPut_other (m : List Host.Cell) {a x : Nat} (bs : List Byte) (hx : x < a ∨ a + bs.length ≤ x) :
    Memory.read flashDefault (flashPut m a bs) x = Memory.read flashDefault m x := by
  induction bs generalizing m a with
  | nil => rfl
  | cons b bs ih =>
    have h1 : x < a + 1 ∨ a + 1 + bs.length ≤ x := by simp at hx; omega
    have h2 : x ≠ a := by simp at hx; omega
    simp only [flashPut]
    split
    · rw [ih _ h1, Memory.read_write_other m b h2]
    · rw [ih _ h1]

/-- Everything one page program does. -/
theorem State.program_spec (s : State) (a : Nat) (bs : List Byte) :
    (s.program a bs).fuses = s.fuses ∧ (s.program a bs).pending = s.pending ∧
    (Memory.wf flashDefault s.flash = true → Memory.wf flashDefault (s.program a bs).flash = true) ∧
    ∀ x, (x < a ∨ a + bs.length ≤ x) → Memory.read flashDefault (s.program a bs).flash x = Memory.read flashDefault s.flash x := by
  refine ⟨rfl, rfl, fun h => flashPut_wf h _ _, fun x hx => flashPut_other _ _ ?_⟩
  simp [flashRead]; omega
/-- Everything the flash's own failure of a page or sector does. -/
theorem State.spoil_spec (s : State) (a n : Nat) :
    (s.spoil a n).fuses = s.fuses ∧ (s.spoil a n).pending = s.pending ∧
    (Memory.wf flashDefault s.flash = true → Memory.wf flashDefault (s.spoil a n).flash = true) ∧
    ∀ x, (x < a ∨ a + n ≤ x) → Memory.read flashDefault (s.spoil a n).flash x = Memory.read flashDefault s.flash x :=
  ⟨rfl, rfl, fun h => flashPut_wf h _ _, fun x hx => flashPut_other _ _ (by simpa using hx)⟩

/-- Everything one page of FLASH_WRITE does. -/
theorem State.writePage_spec (s : State) (a : Nat) (bs : List Byte) (e : Bool) :
    (s.writePage a bs e).1.fuses = s.fuses ∧ (s.writePage a bs e).1.pending = s.pending ∧
    (Memory.wf flashDefault s.flash = true → Memory.wf flashDefault (s.writePage a bs e).1.flash = true) ∧
    ∀ x, (x < a ∨ a + bs.length ≤ x) → Memory.read flashDefault (s.writePage a bs e).1.flash x = Memory.read flashDefault s.flash x := by
  have hl : (bs.take (256 - a % 256)).length ≤ bs.length := by rw [List.length_take]; exact Nat.min_le_right _ _
  cases e
  · obtain ⟨p1, p2, p3, p4⟩ := State.program_spec s a (bs.take (256 - a % 256))
    exact ⟨p1, p2, p3, fun x hx => p4 x (by omega)⟩
  · obtain ⟨p1, p2, p3, p4⟩ := State.spoil_spec s a (bs.take (256 - a % 256)).length
    exact ⟨p1, p2, p3, fun x hx => p4 x (by omega)⟩

/-- Everything one sector of FLASH_ERASE does. -/
theorem State.eraseSector_spec (s : State) (a n k : Nat) (e : Bool) :
    (s.eraseSector a n k e).1.fuses = s.fuses ∧ (s.eraseSector a n k e).1.pending = s.pending ∧
    (Memory.wf flashDefault s.flash = true → Memory.wf flashDefault (s.eraseSector a n k e).1.flash = true) ∧
    ∀ x, (x < a + 4096 * k ∨ a + 4096 * k + 4096 ≤ x) →
      Memory.read flashDefault (s.eraseSector a n k e).1.flash x = Memory.read flashDefault s.flash x := by
  cases e
  · refine ⟨rfl, rfl, fun h => (Memory.filter_wf _ h).1, fun x hx => ?_⟩
    simp only [State.eraseSector, Bool.false_eq_true, if_false]
    exact Memory.read_filter _ _ (fun b => by simp; omega)
  · exact State.spoil_spec _ _ 4096

theorem mkDir_length (a b : Nat) (c : List Byte) : (mkDir a b c).length ≤ 4096 := by
  simp [mkDir, putBytes, zeros, sliceBytes]; omega
theorem Fuses.grown_refl (f : Fuses) : Fuses.grown f f := ⟨Nat.le_refl _, fun h => ⟨h, rfl⟩⟩
theorem State.burn_flash (s : State) (a b : Bool) : (s.burn a b).flash = s.flash := rfl
/-- The fuses only grow. -/
theorem State.burn_grown (s : State) (a b : Bool) (h : b = true → s.fuses.ownerFused = false) : Fuses.grown s.fuses (s.burn a b).fuses := by
  unfold State.burn Fuses.grown
  cases b
  · cases a <;> cases s.dev.boot.recovery <;> simp [Nat.le_max_left]
  · have := h rfl
    cases a <;> cases s.dev.boot.recovery <;> simp [this, Nat.le_max_left]
theorem State.writeDir_flash (s : State) (i : Nat) : ∃ b : List Byte, b.length ≤ 4096 ∧
    (s.writeDir i).flash = Memory.writeN flashDefault (s.flash.filter (fun c => decide (4096 ≤ c.1))) 0 b := by
  simp only [State.writeDir]
  generalize hg : mkDir _ _ _ = b
  exact ⟨b, hg ▸ mkDir_length _ _ _, rfl⟩
theorem State.writeDir_wf (s : State) (x : Nat) (h : Memory.wf flashDefault s.flash = true) : Memory.wf flashDefault (s.writeDir x).flash = true := by
  obtain ⟨b, hl, hb⟩ := State.writeDir_flash s x
  rw [hb]
  exact Memory.writeN_wf (Memory.filter_wf _ h).1 _ _
theorem State.writeDir_other (s : State) (i : Nat) {x : Nat} (hx : 4096 ≤ x) :
    Memory.read flashDefault (s.writeDir i).flash x = Memory.read flashDefault s.flash x := by
  obtain ⟨b, hl, hb⟩ := State.writeDir_flash s i
  rw [hb, Memory.read_writeN_other _ _ (Or.inr (by omega)), Memory.read_filter _ _ (fun b => by simpa using hx)]

/-- An HBM write changes no byte outside those it names. -/
theorem Dev.hbmWrite_other {d : Dev} {r a : Nat} {bs : List Byte} {q x : Nat} (h : q ≠ r ∨ x < a ∨ a + bs.length ≤ x) :
    Memory.read hbmDefault ((d.hbmWrite r a bs).region q).hbm x = Memory.read hbmDefault (d.region q).hbm x := by
  by_cases hq : q = r
  · subst hq
    have hx : x < a ∨ a + bs.length ≤ x := by rcases h with h | h; exact absurd rfl h; exact h
    simp only [Dev.hbmWrite, Dev.modRegion, Dev.setRegion, Dev.region, tgetD_tput_same]
    exact Memory.read_writeN_other _ _ hx
  · simp [Dev.hbmWrite, Dev.modRegion, Dev.setRegion, Dev.region, hq]

/-- An access of BAR4 that ends within the host-visible remainder fits whole. -/
theorem Dev.bar4Fit_within {d : Dev} {e off n : Nat} (h : off + n ≤ (d.region (regionOf e)).carve.remainder) :
    d.bar4Fit e off n = (d, n) := by
  unfold Dev.bar4Fit
  dsimp only
  rw [if_neg (Nat.not_lt.2 h), Nat.min_eq_left (by omega)]

/-- A read of BAR4 within the remainder of a running stack returns the HBM's bytes. -/
theorem Dev.bar4_read {d : Dev} {e off n : Nat} (hr : d.hbmRuns (regionOf e) = true)
    (h : off + n ≤ (d.region (regionOf e)).carve.remainder) :
    d.bar4 e off (.read n) = d.sendData e (some (d.hbmRead (regionOf e) off n)) := by
  simp only [Dev.bar4, Dev.bar4Fit_within h, Dev.stackRead, hr, if_true, Nat.sub_self, List.replicate_zero, List.append_nil]
  split
  · next h0 => subst h0; rfl
  · rfl

/-- A write of BAR4 within the remainder of a running stack stores its bytes there. -/
theorem Dev.bar4_write {d : Dev} {e off : Nat} {data : List Byte} (hr : d.hbmRuns (regionOf e) = true)
    (h : off + data.length ≤ (d.region (regionOf e)).carve.remainder) (hl : data ≠ []) :
    d.bar4 e off (.write data) = d.hbmWrite (regionOf e) off data := by
  simp only [Dev.bar4, Dev.bar4Fit_within h, hr, if_true, List.take_length, List.length_eq_zero_iff, hl, if_false]

end Sys2Proof.Machine
end

