-- ==== Sys2Proof/WellFormed.lean ====
section
/-! DEFINITION. Which commands are well formed: every operand fits the place the spec gives it. A meaning is
defined for every command; well-formedness says which ones an environment of the device can send. -/

namespace Sys2Proof
open Machine

/-- An ordered set is 16 code groups (03 R84). -/
def setWf (gs : Groups) : Bool := gs.length == 16

/-- The lanes of a frame in LIMP: at most eight (03 R103). -/
def frameWf (lanes : List Groups) : Bool := decide (1 ≤ lanes.length ∧ lanes.length ≤ 8)

/-- A slot carries 288 bytes over 1, 2, 4 or 8 lanes (04 R109). -/
def slotWf (lanes : List (List Byte)) : Bool :=
  [1, 2, 4, 8].contains lanes.length && lanes.all (fun l => l.length * lanes.length == 288)

/-- An access of BAR0 or of BAR2 lies in its window and has at most 8 bytes (07 R203, R205). -/
def BarAccess.wf : BarAccess → Bool
  | .write off size _ | .read off size | .readDoorbells off size => decide (off < 2 ^ 26 ∧ size ≤ 8)

/-- The values of a configuration write fit their fields (07 R200, R201). -/
def CfgWrite.wf (w : CfgWrite) : Bool :=
  decide (w.cplTimeout < 16 ∧ w.maxPayload < 8 ∧ w.maxRead < 8 ∧ w.tagSize < 3 ∧ w.bar0 < 2 ^ 64 ∧ w.bar2 < 2 ^ 64 ∧
    w.bar4 < 2 ^ 64 ∧ w.requester < 65536)

def CfgAccess.wf : CfgAccess → Bool
  | .read _ => true
  | .write w => w.wf

/-- A command path names an endpoint and a queue, a FEN and an endpoint index, or Bellrope (14 R432). -/
def Path.wf : Path → Bool
  | .gate ep sq => decide (ep < 16 ∧ sq < 8192)
  | .inband fen epi => decide (fen < 2 ^ 18 ∧ epi < 4096)
  | .bellrope => true

/-- A tag has 16 bits (14 R426). -/
def tagWf (path : Path) (tag : Nat) : Bool := path.wf && decide (tag < 2 ^ 16)

/-- The requester of a LANE_BITSLIP. -/
def SlipBy.wf : SlipBy → Bool
  | .request path tag => tagWf path tag
  | .firmware ps => ps.length == 16

/-- Header fields fit their widths, and the reserved bits lie where the header has them (05 R134, R138). -/
def Hdr.wf (h : Hdr) : Bool :=
  decide (h.dstFen < 2 ^ 18 ∧ h.srcFen < 2 ^ 18 ∧ h.srcEpoch < 256 ∧ h.cls < 8 ∧ h.mode < 4 ∧ h.plen < 8192) &&
  decide (h.rung < 4 ∧ h.interGroup < 1024 ∧ h.hops < 64 ∧ h.laSet < 2 ^ 56 ∧ h.unit < 16 ∧ h.opcode < 256) &&
  decide (h.dstEpi < 4096 ∧ h.srcEpi < 4096 ∧ h.msgSeq < 2 ^ 24 ∧ h.msgLen < 2 ^ 32 ∧ h.msgOff < 2 ^ 32) &&
  decide (h.ext < 2 ^ 192) && (h.reserved &&& hdrReserved) == h.reserved

/-- A packet carries PAYLOAD_LEN bytes of payload, or, when that exceeds 4,096, what 33 flits hold (05 R137). -/
def Packet.wf (p : Packet) : Bool :=
  p.hdr.wf && decide (p.payload.length = min p.hdr.plen 4096) && decide (p.ecrc < 2 ^ 32)

/-- A window access is a read of 1 to 4,096 bytes or a write of 1 to 4,096 bytes within one request. -/
def Access.wf : Access → Bool
  | .read len => decide (0 < len ∧ len ≤ 4096)
  | .write data => decide (0 < data.length ∧ data.length ≤ 4096)

/-- A wake comes from a cage, a port or a gate, or from WAKE_IN with a sample per Lantern tick (02 R63). -/
def WakeSource.wf : WakeSource → Bool
  | .wakeIn samples => !samples.isEmpty
  | _ => true

/-- An array is that of the chip, a region or a block; a cell names an object of the region (18 R535). -/
def ErrData.wf : ErrData → Bool
  | .flits _ input vc => decide (input < 64 ∧ vc < 20)
  | .warden path tag => tagWf path tag
  | .routeEntry _ group idx => decide (idx < if group then 1024 else 16384)
  | .treeContext _ id => decide (id < 4096)
  | .lockPending _ index => decide (index < 32768)
  | _ => true

/-- A well-formed command. -/
def Instr.wf : Instr → Bool
  | .resetNRelease _ | .powerGoodHigh _ | .railSettleEnd | .railStartFault | .railRemoveNext _ | .brownOut _
  | .resetNAsserted | .lanternClockFault _ | .cageScanFrame _ | .tjSecond => true
  | .thermalSample readings => readings.length == 16
  | .portEnableChange _ _ | .portRetrain _ | .ckDetected _ | .trainingTimeout _ | .backoffEnd _ | .ckLoss _ _ => true
  | .ts1Received _ _ gs | .ts2Received _ _ gs | .fcReceived _ _ gs => setWf gs
  | .countdownEnd _ | .phaseAcquired _ => true
  | .trainingWordReceived _ _ word => word.length == 36
  | .laneBitslipCapture who _ | .laneBitslipSlip who | .laneBitslipCheck who _ | .laneBitslipRead who => who.wf
  | .lanePhaseFail _ _ | .laneErrorWindow _ | .txSleepEntry _ | .txWake _ | .wakeFail _ | .sleepRefresh _ => true
  | .limpFrameReceived _ lanes => frameWf lanes
  | .limpFcSend _ | .limpRetry _ => true
  | .linkUnitReceived _ slot => slotWf slot
  | .linkUnitSend _ | .resendTimeout _ | .nakRepeat _ | .creditTimeout _ | .replayHoldEnd _ => true
  | .packetHeaderRegistered _ _ pkt => pkt.wf
  | .epochPropagate _ | .liveMaskUpdate _ _ | .buttressSidebandReport _ => true
  | .routeWrite path tag | .routeCopy path tag | .routeCommit path tag | .routeRead path tag => tagWf path tag
  | .chipRegisterApply _ _ => true
  | .flitStore _ _ flit => flit.length == 128
  | .internalFlitAccept _ _ _ | .goStatusUpdate _ | .switchAllocation _ _ | .egressSelect _ => true
  | .mgmtHoldExpiry _ _ => true
  | .perstAsserted _ | .perstReleased _ | .surpriseRemoval _ | .busMasterEnableSet _ | .busMasterEnableClear _
  | .powerStateD3hot _ | .powerStateD0 _ | .functionLevelReset _ | .hotReset _ | .gateStop _ => true
  | .linkActive _ width rate _ => decide (width ≤ 16 ∧ rate < 8)
  | .completionReceived _ c => decide (c.tag < 2 ^ 14 ∧ c.byteCount ≤ 4096 ∧ c.lowerAddr < 128 ∧ c.len ≤ 4096)
  | .cplTimeout _ tag | .tagQuarantineEnd _ tag => decide (tag < 2 ^ 14)
  | .bar4Access _ off acc | .hbmApertureAccess _ off acc => acc.wf && decide (off < 2 ^ 34)
  | .l1EntryRequest _ => true
  | .l0pWindow _ up down => decide (up ≤ 100 ∧ down ≤ 100)
  | .sqDoorbell _ off data | .sqPush _ off data | .cqDoorbell _ off data =>
    decide (off < 2 ^ 26) && !data.isEmpty
  | .sqEnable _ _ _ | .sqDisable _ _ _ | .sqDrainDone _ _ | .sqReset _ _ | .sqResetEnd _ _ => true
  | .cqEnable _ _ _ | .cqDisable _ _ _ => true
  | .entryFetch _ => true
  | .ringFetchFail _ _ res => match res with | .ok _ => false | _ => true
  | .nop _ _ | .chain _ _ | .put _ _ | .putInline _ _ | .get _ _ | .putSignal _ _ | .atomic64 _ _
  | .atomic128 _ _ | .send _ _ | .sendInline _ _ | .recv _ _ | .coll _ _ | .lock _ _ | .unlock _ _ => true
  | .cmd _ _ => true
  | .walkReadComplete _ _ _ => true
  | .invalRange _ _ | .invalPasid _ _ | .invalKey _ _ | .invalAll _ _ | .invalidationComplete _ => true
  | .keySet _ | .keyRevoke _ | .keyRevokeComplete _ _ => true
  | .putDataReceived _ pkt | .getReqReceived _ pkt | .atomicReceived _ pkt | .signalReceived _ pkt
  | .ackReceived _ pkt | .ackMapReceived _ pkt | .getDataReceived _ pkt | .atomicRespReceived _ pkt
  | .refuseReceived _ pkt => pkt.wf
  | .targetReadComplete _ _ _ | .atomicHostComplete _ _ _ | .placementDone _ _ | .ackDelayExpiry _ _
  | .ackMapExpiry _ _ | .packetInject _ | .retryLaterResend _ _ _ | .msgTimeout _ _ | .atomicTimeout _ _
  | .trackerExpiry _ _ => true
  | .sendDataReceived _ pkt | .rtsReceived _ pkt | .rtsAckReceived _ pkt | .rndvGetReceived _ pkt
  | .rndvDataReceived _ pkt | .rndvFinReceived _ pkt => pkt.wf
  | .rndvPullStart _ | .uxCopy _ _ | .gapTimerExpiry _ _ | .matchEntryExpiry _ _ | .lentIdleExpiry _ _
  | .lendTimeout _ _ | .ageSweep _ => true
  | .collUpReceived _ pkt | .collDownReceived _ pkt | .collCreditReceived _ pkt => pkt.wf
  | .contribReadComplete _ tree child _ _ => decide (tree < 4096 ∧ child < 96)
  | .upWindowExpiry _ tree | .downWindowExpiry _ tree | .treeAbortDone _ tree => decide (tree < 4096)
  | .treeSet path tag | .treeClear path tag | .treeAbort path tag | .treeRead path tag => tagWf path tag
  | .lockAtCell _ pkt | .unlockAtCell _ pkt | .cancel _ pkt | .grantReceived _ pkt | .queuedReceived _ pkt
  | .busyReceived _ pkt | .unlockDoneReceived _ pkt | .inheritReceived _ pkt | .disinheritReceived _ pkt => pkt.wf
  | .lockRepeatTimeout _ _ | .lockProbe _ _ => true
  | .lockForceRelease path tag | .lockAbandon path tag | .lockRead path tag => tagWf path tag
  | .commandIntake _ pkt | .commandReplyReceived _ pkt => pkt.wf
  | .interimSend path tag => tagWf path tag
  | .cmdTimeout _ => true
  | .nopCommand path tag | .regRead path tag | .regWrite path tag | .regModify path tag | .authNonce path tag
  | .mgmtForward path tag | .cmdAbort path tag | .counterRead path tag | .counterClear path tag
  | .cageSet path tag | .cageStatus path tag => tagWf path tag
  | .cagePgTimeout _ => true
  | .clockSwitch path tag _ => tagWf path tag
  | .bellropeAddressMatch _ _ => true
  | .bellropeRequest symbols => decide (symbols.length ≤ 16 + 8 * 65535 + 1)
  | .bellropeAnswer => true
  | .twinSet path tag | .twinStatus path tag | .twinTakeoverTake path tag | .twinTakeoverRelease path tag
  | .twinHeartbeat path tag => tagWf path tag
  | .heartbeatIssue | .twinDeath | .heartbeatSilenceFence | .engineDispatch _ => true
  | .blockReset path tag | .blockLoad path tag => tagWf path tag
  | .blockMigrationEnd _ | .blockCodeLoaded _ _ => true
  | .regionDrain path tag | .regionReset path tag | .regionResume path tag => tagWf path tag
  | .regionDrained _ => true
  | .regionReady _ stillBad => stillBad.all (fun c => decide (c < 2432))
  | .powerSet path tag => tagWf path tag
  | .powerEntryWindowOpen | .powerEntryWindowEnd => true
  | .wakeRegistered src => src.wf
  | .linkPatternDetected _ _ _ | .powerExitDone => true
  | .wakeConfig path tag | .linkPatternSend path tag | .powerStatus path tag => tagWf path tag
  | .bootStart fails => fails.length == 2
  | .engineCodeLoad _ => true
  | .flashRead path tag | .attest path tag | .identityCert path tag
  | .chipReset path tag => tagWf path tag
  | .flashErase path tag _ | .flashWrite path tag _ | .imageActivate path tag _ => tagWf path tag
  | .chipResetDelayEnd => true
  | .secdedCorrection _ _ => true
  | .uncorrectableError _ what => what.wf
  | .spareCopy _ _ _ dropped => dropped.all (fun w => w.wf && !Machine.cellError w)
  | .errorWindowEnd | .eventRaise | .holdoffEnd _ | .evtPendClear _ _ _ => true
  | .counterWriteClear _ off size => decide (off < 2 ^ 26 ∧ size ≤ 8)
  | .registerWrite _ acc => acc.wf
  | .eventMapSet path tag | .eventMapRead path tag | .quarantineRead path tag | .eventInject path tag =>
    tagWf path tag
  | .vlanternApplied | .vlanternRemoved | .ckBeaconEnd _ => true
  | .interruptConfigWrite _ acc => acc.wf
  | .msixVectorUnmask _ _ | .d3coldEntry _ | .connIdleExpiry _ _ => true
  | .bellropeLongNull _ => true

end Sys2Proof
end

