-- ==== Sys2Proof/Laws/PerInstr.lean ====
section
/-! SUPPORT. One lemma per constructor: every row of the command table has well-formed commands. -/

namespace Sys2Proof.Laws.WellFormed
open Machine

/-- Some well-formed command is of the same row as the command. -/
def Statement (i : Instr) : Prop := ∃ j : Instr, j.ctorIdx = i.ctorIdx ∧ j.wf = true

theorem zeros_length (n : Nat) : (zeros n).length = n := List.length_replicate

theorem resetNRelease (straps : BitVec 7) : Statement (.resetNRelease straps) := ⟨.resetNRelease straps, rfl, rfl⟩
theorem powerGoodHigh (g : Rail) : Statement (.powerGoodHigh g) := ⟨.powerGoodHigh g, rfl, rfl⟩
theorem railSettleEnd : Statement (.railSettleEnd) := ⟨.railSettleEnd, rfl, rfl⟩
theorem railStartFault : Statement (.railStartFault) := ⟨.railStartFault, rfl, rfl⟩
theorem railRemoveNext (pgLow : Bool) : Statement (.railRemoveNext pgLow) := ⟨.railRemoveNext pgLow, rfl, rfl⟩
theorem brownOut (g : Rail) : Statement (.brownOut g) := ⟨.brownOut g, rfl, rfl⟩
theorem resetNAsserted : Statement (.resetNAsserted) := ⟨.resetNAsserted, rfl, rfl⟩
theorem lanternClockFault (stoppedNs : Nat) : Statement (.lanternClockFault stoppedNs) := ⟨.lanternClockFault stoppedNs, rfl, rfl⟩
theorem cageScanFrame (din : BitVec 512) : Statement (.cageScanFrame din) := ⟨.cageScanFrame din, rfl, rfl⟩
theorem thermalSample (readings : List Int) : Statement (.thermalSample readings) := ⟨.thermalSample (List.replicate 16 0), rfl, rfl⟩
theorem tjSecond : Statement (.tjSecond) := ⟨.tjSecond, rfl, rfl⟩
theorem portEnableChange (p : Fin 128) (enable : Bool) : Statement (.portEnableChange p enable) := ⟨.portEnableChange p enable, rfl, rfl⟩
theorem portRetrain (p : Fin 128) : Statement (.portRetrain p) := ⟨.portRetrain p, rfl, rfl⟩
theorem ckDetected (p : Fin 128) : Statement (.ckDetected p) := ⟨.ckDetected p, rfl, rfl⟩
theorem trainingTimeout (p : Fin 128) : Statement (.trainingTimeout p) := ⟨.trainingTimeout p, rfl, rfl⟩
theorem backoffEnd (p : Fin 128) : Statement (.backoffEnd p) := ⟨.backoffEnd p, rfl, rfl⟩
theorem ckLoss (p : Fin 128) (last : Nat) : Statement (.ckLoss p last) := ⟨.ckLoss p last, rfl, rfl⟩
theorem ts1Received (p : Fin 128) (lane : Fin 8) (groups : Groups) : Statement (.ts1Received p lane groups) := ⟨.ts1Received p lane (List.replicate 16 0), rfl, rfl⟩
theorem ts2Received (p : Fin 128) (lane : Fin 8) (groups : Groups) : Statement (.ts2Received p lane groups) := ⟨.ts2Received p lane (List.replicate 16 0), rfl, rfl⟩
theorem countdownEnd (p : Fin 128) : Statement (.countdownEnd p) := ⟨.countdownEnd p, rfl, rfl⟩
theorem phaseAcquired (p : Fin 128) : Statement (.phaseAcquired p) := ⟨.phaseAcquired p, rfl, rfl⟩
theorem trainingWordReceived (p : Fin 128) (lane : Fin 8) (word : List Byte) : Statement (.trainingWordReceived p lane word) := ⟨.trainingWordReceived p lane (zeros 36), rfl, rfl⟩
theorem laneBitslipCapture (who : SlipBy) (raw : List (List Byte)) : Statement (.laneBitslipCapture who raw) := ⟨.laneBitslipCapture (.request .bellrope 0) raw, rfl, rfl⟩
theorem laneBitslipSlip (who : SlipBy) : Statement (.laneBitslipSlip who) := ⟨.laneBitslipSlip (.request .bellrope 0), rfl, rfl⟩
theorem laneBitslipCheck (who : SlipBy) (seen : List (Nat × Nat)) : Statement (.laneBitslipCheck who seen) := ⟨.laneBitslipCheck (.request .bellrope 0) seen, rfl, rfl⟩
theorem laneBitslipRead (who : SlipBy) : Statement (.laneBitslipRead who) := ⟨.laneBitslipRead (.request .bellrope 0), rfl, rfl⟩
theorem lanePhaseFail (p : Fin 128) (lane : Fin 8) : Statement (.lanePhaseFail p lane) := ⟨.lanePhaseFail p lane, rfl, rfl⟩
theorem laneErrorWindow (p : Fin 128) : Statement (.laneErrorWindow p) := ⟨.laneErrorWindow p, rfl, rfl⟩
theorem txSleepEntry (p : Fin 128) : Statement (.txSleepEntry p) := ⟨.txSleepEntry p, rfl, rfl⟩
theorem txWake (p : Fin 128) : Statement (.txWake p) := ⟨.txWake p, rfl, rfl⟩
theorem wakeFail (p : Fin 128) : Statement (.wakeFail p) := ⟨.wakeFail p, rfl, rfl⟩
theorem sleepRefresh (p : Fin 128) : Statement (.sleepRefresh p) := ⟨.sleepRefresh p, rfl, rfl⟩
theorem limpFrameReceived (p : Fin 128) (lanes : List Groups) : Statement (.limpFrameReceived p lanes) := ⟨.limpFrameReceived p [[]], rfl, rfl⟩
theorem fcReceived (p : Fin 128) (lane : Fin 8) (groups : Groups) : Statement (.fcReceived p lane groups) := ⟨.fcReceived p lane (List.replicate 16 0), rfl, rfl⟩
theorem limpFcSend (p : Fin 128) : Statement (.limpFcSend p) := ⟨.limpFcSend p, rfl, rfl⟩
theorem limpRetry (p : Fin 128) : Statement (.limpRetry p) := ⟨.limpRetry p, rfl, rfl⟩
theorem linkUnitReceived (p : Fin 128) (slot : List (List Byte)) : Statement (.linkUnitReceived p slot) := ⟨.linkUnitReceived p [zeros 288], rfl, by simp only [Instr.wf, slotWf, List.all_cons, List.all_nil, zeros_length]; rfl⟩
theorem linkUnitSend (p : Fin 128) : Statement (.linkUnitSend p) := ⟨.linkUnitSend p, rfl, rfl⟩
theorem resendTimeout (p : Fin 128) : Statement (.resendTimeout p) := ⟨.resendTimeout p, rfl, rfl⟩
theorem nakRepeat (p : Fin 128) : Statement (.nakRepeat p) := ⟨.nakRepeat p, rfl, rfl⟩
theorem creditTimeout (p : Fin 128) : Statement (.creditTimeout p) := ⟨.creditTimeout p, rfl, rfl⟩
theorem replayHoldEnd (p : Fin 128) : Statement (.replayHoldEnd p) := ⟨.replayHoldEnd p, rfl, rfl⟩
theorem packetHeaderRegistered (r : Fin 4) (input : Fin 64) (pkt : Packet) : Statement (.packetHeaderRegistered r input pkt) := ⟨.packetHeaderRegistered r input {}, rfl, rfl⟩
theorem epochPropagate (r : Fin 4) : Statement (.epochPropagate r) := ⟨.epochPropagate r, rfl, rfl⟩
theorem liveMaskUpdate (r : Fin 4) (p : Fin 128) : Statement (.liveMaskUpdate r p) := ⟨.liveMaskUpdate r p, rfl, rfl⟩
theorem buttressSidebandReport (r : Fin 4) : Statement (.buttressSidebandReport r) := ⟨.buttressSidebandReport r, rfl, rfl⟩
theorem routeWrite (path : Path) (tag : Nat) : Statement (.routeWrite path tag) := ⟨.routeWrite .bellrope 0, rfl, rfl⟩
theorem routeCopy (path : Path) (tag : Nat) : Statement (.routeCopy path tag) := ⟨.routeCopy .bellrope 0, rfl, rfl⟩
theorem routeCommit (path : Path) (tag : Nat) : Statement (.routeCommit path tag) := ⟨.routeCommit .bellrope 0, rfl, rfl⟩
theorem routeRead (path : Path) (tag : Nat) : Statement (.routeRead path tag) := ⟨.routeRead .bellrope 0, rfl, rfl⟩
theorem chipRegisterApply (r : Fin 4) (reg : ChipReg) : Statement (.chipRegisterApply r reg) := ⟨.chipRegisterApply r reg, rfl, rfl⟩
theorem flitStore (p : Fin 128) (vc : Fin 20) (flit : Flit) : Statement (.flitStore p vc flit) := ⟨.flitStore p vc (zeros 128), rfl, by show ((zeros 128).length == 128) = true; rw [zeros_length]; rfl⟩
theorem internalFlitAccept (r : Fin 4) (input : Fin 64) (vc : Fin 20) : Statement (.internalFlitAccept r input vc) := ⟨.internalFlitAccept r input vc, rfl, rfl⟩
theorem goStatusUpdate (r : Fin 4) : Statement (.goStatusUpdate r) := ⟨.goStatusUpdate r, rfl, rfl⟩
theorem switchAllocation (r : Fin 4) (output : Fin 64) : Statement (.switchAllocation r output) := ⟨.switchAllocation r output, rfl, rfl⟩
theorem egressSelect (p : Fin 128) : Statement (.egressSelect p) := ⟨.egressSelect p, rfl, rfl⟩
theorem mgmtHoldExpiry (r : Fin 4) (id : Nat) : Statement (.mgmtHoldExpiry r id) := ⟨.mgmtHoldExpiry r id, rfl, rfl⟩
theorem perstAsserted (g : Fin 8) : Statement (.perstAsserted g) := ⟨.perstAsserted g, rfl, rfl⟩
theorem perstReleased (g : Fin 8) : Statement (.perstReleased g) := ⟨.perstReleased g, rfl, rfl⟩
theorem linkActive (ep : Fin 16) (width rate : Nat) (flit : Bool) : Statement (.linkActive ep width rate flit) := ⟨.linkActive ep 0 0 flit, rfl, rfl⟩
theorem surpriseRemoval (ep : Fin 16) : Statement (.surpriseRemoval ep) := ⟨.surpriseRemoval ep, rfl, rfl⟩
theorem busMasterEnableSet (ep : Fin 16) : Statement (.busMasterEnableSet ep) := ⟨.busMasterEnableSet ep, rfl, rfl⟩
theorem busMasterEnableClear (ep : Fin 16) : Statement (.busMasterEnableClear ep) := ⟨.busMasterEnableClear ep, rfl, rfl⟩
theorem powerStateD3hot (ep : Fin 16) : Statement (.powerStateD3hot ep) := ⟨.powerStateD3hot ep, rfl, rfl⟩
theorem powerStateD0 (ep : Fin 16) : Statement (.powerStateD0 ep) := ⟨.powerStateD0 ep, rfl, rfl⟩
theorem functionLevelReset (ep : Fin 16) : Statement (.functionLevelReset ep) := ⟨.functionLevelReset ep, rfl, rfl⟩
theorem hotReset (ep : Fin 16) : Statement (.hotReset ep) := ⟨.hotReset ep, rfl, rfl⟩
theorem gateStop (ep : Fin 16) : Statement (.gateStop ep) := ⟨.gateStop ep, rfl, rfl⟩
theorem completionReceived (ep : Fin 16) (c : Completion) : Statement (.completionReceived ep c) := ⟨.completionReceived ep ⟨0, 0, 0, 0, .ur, 0⟩, rfl, rfl⟩
theorem cplTimeout (ep : Fin 16) (tag : Nat) : Statement (.cplTimeout ep tag) := ⟨.cplTimeout ep 0, rfl, rfl⟩
theorem tagQuarantineEnd (ep : Fin 16) (tag : Nat) : Statement (.tagQuarantineEnd ep tag) := ⟨.tagQuarantineEnd ep 0, rfl, rfl⟩
theorem bar4Access (ep : Fin 16) (off : Nat) (acc : Access) : Statement (.bar4Access ep off acc) := ⟨.bar4Access ep 0 (.read 8), rfl, rfl⟩
theorem l1EntryRequest (ep : Fin 16) : Statement (.l1EntryRequest ep) := ⟨.l1EntryRequest ep, rfl, rfl⟩
theorem l0pWindow (ep : Fin 16) (upPercent downPercent : Nat) : Statement (.l0pWindow ep upPercent downPercent) := ⟨.l0pWindow ep 0 0, rfl, rfl⟩
theorem sqDoorbell (ep : Fin 16) (off : Nat) (data : List Byte) : Statement (.sqDoorbell ep off data) := ⟨.sqDoorbell ep 0 (zeros 8), rfl, rfl⟩
theorem sqPush (ep : Fin 16) (off : Nat) (data : List Byte) : Statement (.sqPush ep off data) := ⟨.sqPush ep 0 (zeros 8), rfl, rfl⟩
theorem cqDoorbell (ep : Fin 16) (off : Nat) (data : List Byte) : Statement (.cqDoorbell ep off data) := ⟨.cqDoorbell ep 0 (zeros 8), rfl, rfl⟩
theorem sqEnable (ep : Fin 16) (sq : Fin 8192) (cfg : Reg) : Statement (.sqEnable ep sq cfg) := ⟨.sqEnable ep sq cfg, rfl, rfl⟩
theorem sqDisable (ep : Fin 16) (sq : Fin 8192) (cfg : Reg) : Statement (.sqDisable ep sq cfg) := ⟨.sqDisable ep sq cfg, rfl, rfl⟩
theorem sqDrainDone (ep : Fin 16) (sq : Fin 8192) : Statement (.sqDrainDone ep sq) := ⟨.sqDrainDone ep sq, rfl, rfl⟩
theorem sqReset (ep : Fin 16) (sq : Fin 8192) : Statement (.sqReset ep sq) := ⟨.sqReset ep sq, rfl, rfl⟩
theorem sqResetEnd (ep : Fin 16) (sq : Fin 8192) : Statement (.sqResetEnd ep sq) := ⟨.sqResetEnd ep sq, rfl, rfl⟩
theorem cqEnable (ep : Fin 16) (q : RecQ) (cfg : Reg) : Statement (.cqEnable ep q cfg) := ⟨.cqEnable ep q cfg, rfl, rfl⟩
theorem cqDisable (ep : Fin 16) (q : RecQ) (cfg : Reg) : Statement (.cqDisable ep q cfg) := ⟨.cqDisable ep q cfg, rfl, rfl⟩
theorem entryFetch (ep : Fin 16) : Statement (.entryFetch ep) := ⟨.entryFetch ep, rfl, rfl⟩
theorem ringFetchFail (ep : Fin 16) (sq : Fin 8192) (res : HostRes) : Statement (.ringFetchFail ep sq res) := ⟨.ringFetchFail ep sq .ur, rfl, rfl⟩
theorem nop (ep : Fin 16) (sq : Fin 8192) : Statement (.nop ep sq) := ⟨.nop ep sq, rfl, rfl⟩
theorem chain (ep : Fin 16) (sq : Fin 8192) : Statement (.chain ep sq) := ⟨.chain ep sq, rfl, rfl⟩
theorem put (ep : Fin 16) (sq : Fin 8192) : Statement (.put ep sq) := ⟨.put ep sq, rfl, rfl⟩
theorem putInline (ep : Fin 16) (sq : Fin 8192) : Statement (.putInline ep sq) := ⟨.putInline ep sq, rfl, rfl⟩
theorem get (ep : Fin 16) (sq : Fin 8192) : Statement (.get ep sq) := ⟨.get ep sq, rfl, rfl⟩
theorem putSignal (ep : Fin 16) (sq : Fin 8192) : Statement (.putSignal ep sq) := ⟨.putSignal ep sq, rfl, rfl⟩
theorem atomic64 (ep : Fin 16) (sq : Fin 8192) : Statement (.atomic64 ep sq) := ⟨.atomic64 ep sq, rfl, rfl⟩
theorem atomic128 (ep : Fin 16) (sq : Fin 8192) : Statement (.atomic128 ep sq) := ⟨.atomic128 ep sq, rfl, rfl⟩
theorem send (ep : Fin 16) (sq : Fin 8192) : Statement (.send ep sq) := ⟨.send ep sq, rfl, rfl⟩
theorem sendInline (ep : Fin 16) (sq : Fin 8192) : Statement (.sendInline ep sq) := ⟨.sendInline ep sq, rfl, rfl⟩
theorem recv (ep : Fin 16) (sq : Fin 8192) : Statement (.recv ep sq) := ⟨.recv ep sq, rfl, rfl⟩
theorem coll (ep : Fin 16) (sq : Fin 8192) : Statement (.coll ep sq) := ⟨.coll ep sq, rfl, rfl⟩
theorem lock (ep : Fin 16) (sq : Fin 8192) : Statement (.lock ep sq) := ⟨.lock ep sq, rfl, rfl⟩
theorem unlock (ep : Fin 16) (sq : Fin 8192) : Statement (.unlock ep sq) := ⟨.unlock ep sq, rfl, rfl⟩
theorem cmd (ep : Fin 16) (sq : Fin 8192) : Statement (.cmd ep sq) := ⟨.cmd ep sq, rfl, rfl⟩
theorem walkReadComplete (ep : Fin 16) (walk : Nat) (res : HostRes) : Statement (.walkReadComplete ep walk res) := ⟨.walkReadComplete ep walk res, rfl, rfl⟩
theorem invalRange (ep : Fin 16) (op : Reg) : Statement (.invalRange ep op) := ⟨.invalRange ep op, rfl, rfl⟩
theorem invalPasid (ep : Fin 16) (op : Reg) : Statement (.invalPasid ep op) := ⟨.invalPasid ep op, rfl, rfl⟩
theorem invalKey (ep : Fin 16) (op : Reg) : Statement (.invalKey ep op) := ⟨.invalKey ep op, rfl, rfl⟩
theorem invalAll (ep : Fin 16) (op : Reg) : Statement (.invalAll ep op) := ⟨.invalAll ep op, rfl, rfl⟩
theorem invalidationComplete (ep : Fin 16) : Statement (.invalidationComplete ep) := ⟨.invalidationComplete ep, rfl, rfl⟩
theorem keySet (ep : Fin 16) : Statement (.keySet ep) := ⟨.keySet ep, rfl, rfl⟩
theorem keyRevoke (ep : Fin 16) : Statement (.keyRevoke ep) := ⟨.keyRevoke ep, rfl, rfl⟩
theorem keyRevokeComplete (ep : Fin 16) (slot : Fin 1024) : Statement (.keyRevokeComplete ep slot) := ⟨.keyRevokeComplete ep slot, rfl, rfl⟩
theorem hbmApertureAccess (ep : Fin 16) (off : Nat) (acc : Access) : Statement (.hbmApertureAccess ep off acc) := ⟨.hbmApertureAccess ep 0 (.read 8), rfl, rfl⟩
theorem putDataReceived (r : Fin 4) (pkt : Packet) : Statement (.putDataReceived r pkt) := ⟨.putDataReceived r {}, rfl, rfl⟩
theorem getReqReceived (r : Fin 4) (pkt : Packet) : Statement (.getReqReceived r pkt) := ⟨.getReqReceived r {}, rfl, rfl⟩
theorem atomicReceived (r : Fin 4) (pkt : Packet) : Statement (.atomicReceived r pkt) := ⟨.atomicReceived r {}, rfl, rfl⟩
theorem signalReceived (r : Fin 4) (pkt : Packet) : Statement (.signalReceived r pkt) := ⟨.signalReceived r {}, rfl, rfl⟩
theorem targetReadComplete (r : Fin 4) (work : Nat) (res : HostRes) : Statement (.targetReadComplete r work res) := ⟨.targetReadComplete r work res, rfl, rfl⟩
theorem atomicHostComplete (r : Fin 4) (work : Nat) (res : HostRes) : Statement (.atomicHostComplete r work res) := ⟨.atomicHostComplete r work res, rfl, rfl⟩
theorem placementDone (r : Fin 4) (work : Nat) : Statement (.placementDone r work) := ⟨.placementDone r work, rfl, rfl⟩
theorem ackDelayExpiry (r : Fin 4) (tracker : Nat) : Statement (.ackDelayExpiry r tracker) := ⟨.ackDelayExpiry r tracker, rfl, rfl⟩
theorem ackMapExpiry (r : Fin 4) (conn : Nat) : Statement (.ackMapExpiry r conn) := ⟨.ackMapExpiry r conn, rfl, rfl⟩
theorem ackReceived (r : Fin 4) (pkt : Packet) : Statement (.ackReceived r pkt) := ⟨.ackReceived r {}, rfl, rfl⟩
theorem ackMapReceived (r : Fin 4) (pkt : Packet) : Statement (.ackMapReceived r pkt) := ⟨.ackMapReceived r {}, rfl, rfl⟩
theorem getDataReceived (r : Fin 4) (pkt : Packet) : Statement (.getDataReceived r pkt) := ⟨.getDataReceived r {}, rfl, rfl⟩
theorem atomicRespReceived (r : Fin 4) (pkt : Packet) : Statement (.atomicRespReceived r pkt) := ⟨.atomicRespReceived r {}, rfl, rfl⟩
theorem refuseReceived (r : Fin 4) (pkt : Packet) : Statement (.refuseReceived r pkt) := ⟨.refuseReceived r {}, rfl, rfl⟩
theorem packetInject (g : Fin 8) : Statement (.packetInject g) := ⟨.packetInject g, rfl, rfl⟩
theorem retryLaterResend (r : Fin 4) (op : Nat) (off : Nat) : Statement (.retryLaterResend r op off) := ⟨.retryLaterResend r op off, rfl, rfl⟩
theorem msgTimeout (r : Fin 4) (op : Nat) : Statement (.msgTimeout r op) := ⟨.msgTimeout r op, rfl, rfl⟩
theorem atomicTimeout (r : Fin 4) (op : Nat) : Statement (.atomicTimeout r op) := ⟨.atomicTimeout r op, rfl, rfl⟩
theorem trackerExpiry (r : Fin 4) (tracker : Nat) : Statement (.trackerExpiry r tracker) := ⟨.trackerExpiry r tracker, rfl, rfl⟩
theorem sendDataReceived (r : Fin 4) (pkt : Packet) : Statement (.sendDataReceived r pkt) := ⟨.sendDataReceived r {}, rfl, rfl⟩
theorem rtsReceived (r : Fin 4) (pkt : Packet) : Statement (.rtsReceived r pkt) := ⟨.rtsReceived r {}, rfl, rfl⟩
theorem rtsAckReceived (r : Fin 4) (pkt : Packet) : Statement (.rtsAckReceived r pkt) := ⟨.rtsAckReceived r {}, rfl, rfl⟩
theorem rndvGetReceived (r : Fin 4) (pkt : Packet) : Statement (.rndvGetReceived r pkt) := ⟨.rndvGetReceived r {}, rfl, rfl⟩
theorem rndvDataReceived (r : Fin 4) (pkt : Packet) : Statement (.rndvDataReceived r pkt) := ⟨.rndvDataReceived r {}, rfl, rfl⟩
theorem rndvFinReceived (r : Fin 4) (pkt : Packet) : Statement (.rndvFinReceived r pkt) := ⟨.rndvFinReceived r {}, rfl, rfl⟩
theorem rndvPullStart (r : Fin 4) : Statement (.rndvPullStart r) := ⟨.rndvPullStart r, rfl, rfl⟩
theorem uxCopy (r : Fin 4) (entry : Nat) : Statement (.uxCopy r entry) := ⟨.uxCopy r entry, rfl, rfl⟩
theorem gapTimerExpiry (r : Fin 4) (conn : Nat) : Statement (.gapTimerExpiry r conn) := ⟨.gapTimerExpiry r conn, rfl, rfl⟩
theorem matchEntryExpiry (r : Fin 4) (entry : Nat) : Statement (.matchEntryExpiry r entry) := ⟨.matchEntryExpiry r entry, rfl, rfl⟩
theorem lentIdleExpiry (r : Fin 4) (op : Nat) : Statement (.lentIdleExpiry r op) := ⟨.lentIdleExpiry r op, rfl, rfl⟩
theorem lendTimeout (r : Fin 4) (op : Nat) : Statement (.lendTimeout r op) := ⟨.lendTimeout r op, rfl, rfl⟩
theorem ageSweep (r : Fin 4) : Statement (.ageSweep r) := ⟨.ageSweep r, rfl, rfl⟩
theorem collUpReceived (r : Fin 4) (pkt : Packet) : Statement (.collUpReceived r pkt) := ⟨.collUpReceived r {}, rfl, rfl⟩
theorem collDownReceived (r : Fin 4) (pkt : Packet) : Statement (.collDownReceived r pkt) := ⟨.collDownReceived r {}, rfl, rfl⟩
theorem collCreditReceived (r : Fin 4) (pkt : Packet) : Statement (.collCreditReceived r pkt) := ⟨.collCreditReceived r {}, rfl, rfl⟩
theorem contribReadComplete (r : Fin 4) (tree child seg : Nat) (res : HostRes) : Statement (.contribReadComplete r tree child seg res) := ⟨.contribReadComplete r 0 0 seg res, rfl, rfl⟩
theorem upWindowExpiry (r : Fin 4) (tree : Nat) : Statement (.upWindowExpiry r tree) := ⟨.upWindowExpiry r 0, rfl, rfl⟩
theorem downWindowExpiry (r : Fin 4) (tree : Nat) : Statement (.downWindowExpiry r tree) := ⟨.downWindowExpiry r 0, rfl, rfl⟩
theorem treeSet (path : Path) (tag : Nat) : Statement (.treeSet path tag) := ⟨.treeSet .bellrope 0, rfl, rfl⟩
theorem treeClear (path : Path) (tag : Nat) : Statement (.treeClear path tag) := ⟨.treeClear .bellrope 0, rfl, rfl⟩
theorem treeAbort (path : Path) (tag : Nat) : Statement (.treeAbort path tag) := ⟨.treeAbort .bellrope 0, rfl, rfl⟩
theorem treeAbortDone (r : Fin 4) (tree : Nat) : Statement (.treeAbortDone r tree) := ⟨.treeAbortDone r 0, rfl, rfl⟩
theorem treeRead (path : Path) (tag : Nat) : Statement (.treeRead path tag) := ⟨.treeRead .bellrope 0, rfl, rfl⟩
theorem lockAtCell (r : Fin 4) (pkt : Packet) : Statement (.lockAtCell r pkt) := ⟨.lockAtCell r {}, rfl, rfl⟩
theorem unlockAtCell (r : Fin 4) (pkt : Packet) : Statement (.unlockAtCell r pkt) := ⟨.unlockAtCell r {}, rfl, rfl⟩
theorem cancel (r : Fin 4) (pkt : Packet) : Statement (.cancel r pkt) := ⟨.cancel r {}, rfl, rfl⟩
theorem grantReceived (r : Fin 4) (pkt : Packet) : Statement (.grantReceived r pkt) := ⟨.grantReceived r {}, rfl, rfl⟩
theorem queuedReceived (r : Fin 4) (pkt : Packet) : Statement (.queuedReceived r pkt) := ⟨.queuedReceived r {}, rfl, rfl⟩
theorem busyReceived (r : Fin 4) (pkt : Packet) : Statement (.busyReceived r pkt) := ⟨.busyReceived r {}, rfl, rfl⟩
theorem unlockDoneReceived (r : Fin 4) (pkt : Packet) : Statement (.unlockDoneReceived r pkt) := ⟨.unlockDoneReceived r {}, rfl, rfl⟩
theorem inheritReceived (r : Fin 4) (pkt : Packet) : Statement (.inheritReceived r pkt) := ⟨.inheritReceived r {}, rfl, rfl⟩
theorem disinheritReceived (r : Fin 4) (pkt : Packet) : Statement (.disinheritReceived r pkt) := ⟨.disinheritReceived r {}, rfl, rfl⟩
theorem lockRepeatTimeout (r : Fin 4) (pend : Nat) : Statement (.lockRepeatTimeout r pend) := ⟨.lockRepeatTimeout r pend, rfl, rfl⟩
theorem lockProbe (r : Fin 4) (pend : Nat) : Statement (.lockProbe r pend) := ⟨.lockProbe r pend, rfl, rfl⟩
theorem lockForceRelease (path : Path) (tag : Nat) : Statement (.lockForceRelease path tag) := ⟨.lockForceRelease .bellrope 0, rfl, rfl⟩
theorem lockAbandon (path : Path) (tag : Nat) : Statement (.lockAbandon path tag) := ⟨.lockAbandon .bellrope 0, rfl, rfl⟩
theorem lockRead (path : Path) (tag : Nat) : Statement (.lockRead path tag) := ⟨.lockRead .bellrope 0, rfl, rfl⟩
theorem commandIntake (r : Fin 4) (pkt : Packet) : Statement (.commandIntake r pkt) := ⟨.commandIntake r {}, rfl, rfl⟩
theorem commandReplyReceived (r : Fin 4) (pkt : Packet) : Statement (.commandReplyReceived r pkt) := ⟨.commandReplyReceived r {}, rfl, rfl⟩
theorem interimSend (path : Path) (tag : Nat) : Statement (.interimSend path tag) := ⟨.interimSend .bellrope 0, rfl, rfl⟩
theorem cmdTimeout (call : Nat) : Statement (.cmdTimeout call) := ⟨.cmdTimeout call, rfl, rfl⟩
theorem nopCommand (path : Path) (tag : Nat) : Statement (.nopCommand path tag) := ⟨.nopCommand .bellrope 0, rfl, rfl⟩
theorem regRead (path : Path) (tag : Nat) : Statement (.regRead path tag) := ⟨.regRead .bellrope 0, rfl, rfl⟩
theorem regWrite (path : Path) (tag : Nat) : Statement (.regWrite path tag) := ⟨.regWrite .bellrope 0, rfl, rfl⟩
theorem regModify (path : Path) (tag : Nat) : Statement (.regModify path tag) := ⟨.regModify .bellrope 0, rfl, rfl⟩
theorem authNonce (path : Path) (tag : Nat) : Statement (.authNonce path tag) := ⟨.authNonce .bellrope 0, rfl, rfl⟩
theorem mgmtForward (path : Path) (tag : Nat) : Statement (.mgmtForward path tag) := ⟨.mgmtForward .bellrope 0, rfl, rfl⟩
theorem cmdAbort (path : Path) (tag : Nat) : Statement (.cmdAbort path tag) := ⟨.cmdAbort .bellrope 0, rfl, rfl⟩
theorem counterRead (path : Path) (tag : Nat) : Statement (.counterRead path tag) := ⟨.counterRead .bellrope 0, rfl, rfl⟩
theorem counterClear (path : Path) (tag : Nat) : Statement (.counterClear path tag) := ⟨.counterClear .bellrope 0, rfl, rfl⟩
theorem cageSet (path : Path) (tag : Nat) : Statement (.cageSet path tag) := ⟨.cageSet .bellrope 0, rfl, rfl⟩
theorem cageStatus (path : Path) (tag : Nat) : Statement (.cageStatus path tag) := ⟨.cageStatus .bellrope 0, rfl, rfl⟩
theorem cagePgTimeout (cage : Fin 128) : Statement (.cagePgTimeout cage) := ⟨.cagePgTimeout cage, rfl, rfl⟩
theorem clockSwitch (path : Path) (tag : Nat) (run : ClockRun) : Statement (.clockSwitch path tag run) := ⟨.clockSwitch .bellrope 0 run, rfl, rfl⟩
theorem bellropeAddressMatch (addr : BitVec 7) (wake : Bool) : Statement (.bellropeAddressMatch addr wake) := ⟨.bellropeAddressMatch addr wake, rfl, rfl⟩
theorem bellropeRequest (symbols : List RopeSym) : Statement (.bellropeRequest symbols) := ⟨.bellropeRequest [], rfl, rfl⟩
theorem bellropeAnswer : Statement (.bellropeAnswer) := ⟨.bellropeAnswer, rfl, rfl⟩
theorem twinSet (path : Path) (tag : Nat) : Statement (.twinSet path tag) := ⟨.twinSet .bellrope 0, rfl, rfl⟩
theorem twinStatus (path : Path) (tag : Nat) : Statement (.twinStatus path tag) := ⟨.twinStatus .bellrope 0, rfl, rfl⟩
theorem twinTakeoverTake (path : Path) (tag : Nat) : Statement (.twinTakeoverTake path tag) := ⟨.twinTakeoverTake .bellrope 0, rfl, rfl⟩
theorem twinTakeoverRelease (path : Path) (tag : Nat) : Statement (.twinTakeoverRelease path tag) := ⟨.twinTakeoverRelease .bellrope 0, rfl, rfl⟩
theorem twinHeartbeat (path : Path) (tag : Nat) : Statement (.twinHeartbeat path tag) := ⟨.twinHeartbeat .bellrope 0, rfl, rfl⟩
theorem heartbeatIssue : Statement (.heartbeatIssue) := ⟨.heartbeatIssue, rfl, rfl⟩
theorem twinDeath : Statement (.twinDeath) := ⟨.twinDeath, rfl, rfl⟩
theorem heartbeatSilenceFence : Statement (.heartbeatSilenceFence) := ⟨.heartbeatSilenceFence, rfl, rfl⟩
theorem engineDispatch (b : Fin 64) : Statement (.engineDispatch b) := ⟨.engineDispatch b, rfl, rfl⟩
theorem blockReset (path : Path) (tag : Nat) : Statement (.blockReset path tag) := ⟨.blockReset .bellrope 0, rfl, rfl⟩
theorem blockLoad (path : Path) (tag : Nat) : Statement (.blockLoad path tag) := ⟨.blockLoad .bellrope 0, rfl, rfl⟩
theorem blockMigrationEnd (b : Fin 64) : Statement (.blockMigrationEnd b) := ⟨.blockMigrationEnd b, rfl, rfl⟩
theorem blockCodeLoaded (b : Fin 64) (good : Bool) : Statement (.blockCodeLoaded b good) := ⟨.blockCodeLoaded b good, rfl, rfl⟩
theorem regionDrain (path : Path) (tag : Nat) : Statement (.regionDrain path tag) := ⟨.regionDrain .bellrope 0, rfl, rfl⟩
theorem regionDrained (r : Fin 4) : Statement (.regionDrained r) := ⟨.regionDrained r, rfl, rfl⟩
theorem regionReset (path : Path) (tag : Nat) : Statement (.regionReset path tag) := ⟨.regionReset .bellrope 0, rfl, rfl⟩
theorem regionReady (r : Fin 4) (stillBad : List Nat) : Statement (.regionReady r stillBad) := ⟨.regionReady r [], rfl, rfl⟩
theorem regionResume (path : Path) (tag : Nat) : Statement (.regionResume path tag) := ⟨.regionResume .bellrope 0, rfl, rfl⟩
theorem powerSet (path : Path) (tag : Nat) : Statement (.powerSet path tag) := ⟨.powerSet .bellrope 0, rfl, rfl⟩
theorem powerEntryWindowOpen : Statement (.powerEntryWindowOpen) := ⟨.powerEntryWindowOpen, rfl, rfl⟩
theorem powerEntryWindowEnd : Statement (.powerEntryWindowEnd) := ⟨.powerEntryWindowEnd, rfl, rfl⟩
theorem wakeRegistered (src : WakeSource) : Statement (.wakeRegistered src) := ⟨.wakeRegistered .bellrope, rfl, rfl⟩
theorem linkPatternDetected (p : Fin 128) (bursts gaps : List Nat) : Statement (.linkPatternDetected p bursts gaps) := ⟨.linkPatternDetected p bursts gaps, rfl, rfl⟩
theorem powerExitDone : Statement (.powerExitDone) := ⟨.powerExitDone, rfl, rfl⟩
theorem wakeConfig (path : Path) (tag : Nat) : Statement (.wakeConfig path tag) := ⟨.wakeConfig .bellrope 0, rfl, rfl⟩
theorem linkPatternSend (path : Path) (tag : Nat) : Statement (.linkPatternSend path tag) := ⟨.linkPatternSend .bellrope 0, rfl, rfl⟩
theorem powerStatus (path : Path) (tag : Nat) : Statement (.powerStatus path tag) := ⟨.powerStatus .bellrope 0, rfl, rfl⟩
theorem bootStart (readFails : List Bool) : Statement (.bootStart readFails) := ⟨.bootStart [false, false], rfl, rfl⟩
theorem engineCodeLoad (readFail : Bool) : Statement (.engineCodeLoad readFail) := ⟨.engineCodeLoad readFail, rfl, rfl⟩
theorem flashRead (path : Path) (tag : Nat) : Statement (.flashRead path tag) := ⟨.flashRead .bellrope 0, rfl, rfl⟩
theorem flashErase (path : Path) (tag : Nat) (flashError : Bool) : Statement (.flashErase path tag flashError) := ⟨.flashErase .bellrope 0 flashError, rfl, rfl⟩
theorem flashWrite (path : Path) (tag : Nat) (flashError : Bool) : Statement (.flashWrite path tag flashError) := ⟨.flashWrite .bellrope 0 flashError, rfl, rfl⟩
theorem imageActivate (path : Path) (tag : Nat) (readFail : Bool) : Statement (.imageActivate path tag readFail) := ⟨.imageActivate .bellrope 0 readFail, rfl, rfl⟩
theorem attest (path : Path) (tag : Nat) : Statement (.attest path tag) := ⟨.attest .bellrope 0, rfl, rfl⟩
theorem identityCert (path : Path) (tag : Nat) : Statement (.identityCert path tag) := ⟨.identityCert .bellrope 0, rfl, rfl⟩
theorem chipReset (path : Path) (tag : Nat) : Statement (.chipReset path tag) := ⟨.chipReset .bellrope 0, rfl, rfl⟩
theorem chipResetDelayEnd : Statement (.chipResetDelayEnd) := ⟨.chipResetDelayEnd, rfl, rfl⟩
theorem secdedCorrection (scope : ErrScope) (hbm : Bool) : Statement (.secdedCorrection scope hbm) := ⟨.secdedCorrection scope hbm, rfl, rfl⟩
theorem uncorrectableError (scope : ErrScope) (what : ErrData) : Statement (.uncorrectableError scope what) := ⟨.uncorrectableError scope (.treeContext 0 0), rfl, rfl⟩
theorem spareCopy (r : Fin 4) (array bank : Nat) (dropped : List ErrData) : Statement (.spareCopy r array bank dropped) := ⟨.spareCopy r array bank [], rfl, rfl⟩
theorem errorWindowEnd : Statement (.errorWindowEnd) := ⟨.errorWindowEnd, rfl, rfl⟩
theorem eventRaise : Statement (.eventRaise) := ⟨.eventRaise, rfl, rfl⟩
theorem holdoffEnd (src : Fin 1408) : Statement (.holdoffEnd src) := ⟨.holdoffEnd src, rfl, rfl⟩
theorem evtPendClear (ep : Fin 16) (word : Fin 22) (value : Reg) : Statement (.evtPendClear ep word value) := ⟨.evtPendClear ep word value, rfl, rfl⟩
theorem counterWriteClear (ep : Fin 16) (off : Nat) (size : Nat) : Statement (.counterWriteClear ep off size) := ⟨.counterWriteClear ep 0 8, rfl, rfl⟩
theorem eventMapSet (path : Path) (tag : Nat) : Statement (.eventMapSet path tag) := ⟨.eventMapSet .bellrope 0, rfl, rfl⟩
theorem eventMapRead (path : Path) (tag : Nat) : Statement (.eventMapRead path tag) := ⟨.eventMapRead .bellrope 0, rfl, rfl⟩
theorem quarantineRead (path : Path) (tag : Nat) : Statement (.quarantineRead path tag) := ⟨.quarantineRead .bellrope 0, rfl, rfl⟩
theorem eventInject (path : Path) (tag : Nat) : Statement (.eventInject path tag) := ⟨.eventInject .bellrope 0, rfl, rfl⟩
theorem registerWrite (ep : Fin 16) (acc : BarAccess) : Statement (.registerWrite ep acc) := ⟨.registerWrite ep (.write 0 8 0), rfl, rfl⟩
theorem vlanternApplied : Statement (.vlanternApplied) := ⟨.vlanternApplied, rfl, rfl⟩
theorem vlanternRemoved : Statement (.vlanternRemoved) := ⟨.vlanternRemoved, rfl, rfl⟩
theorem ckBeaconEnd (p : Fin 128) : Statement (.ckBeaconEnd p) := ⟨.ckBeaconEnd p, rfl, rfl⟩
theorem interruptConfigWrite (ep : Fin 16) (acc : CfgAccess) : Statement (.interruptConfigWrite ep acc) := ⟨.interruptConfigWrite ep (.read .vendorId), rfl, rfl⟩
theorem msixVectorUnmask (ep : Fin 16) (vector : Fin 2048) : Statement (.msixVectorUnmask ep vector) := ⟨.msixVectorUnmask ep vector, rfl, rfl⟩
theorem d3coldEntry (ep : Fin 16) : Statement (.d3coldEntry ep) := ⟨.d3coldEntry ep, rfl, rfl⟩
theorem connIdleExpiry (r : Fin 4) (conn : Nat) : Statement (.connIdleExpiry r conn) := ⟨.connIdleExpiry r conn, rfl, rfl⟩
theorem bellropeLongNull (ns : Nat) : Statement (.bellropeLongNull ns) := ⟨.bellropeLongNull ns, rfl, rfl⟩

end Sys2Proof.Laws.WellFormed
end

