-- ==== Sys2Proof/Laws/Power.lean ====
section
/-! SUPPORT. What the shared power operations do: the removal of rails, a power loss, a fault entry. -/

namespace Sys2Proof.Machine

/-- A chip reset keeps the Lantern domain, the time base, and the model's own fields (17 R532). -/
@[simp] theorem Dev.chipReset_lantern (d : Dev) : d.chipReset.lantern = d.lantern := rfl
@[simp] theorem Dev.chipReset_now (d : Dev) : d.chipReset.now = d.now := rfl
@[simp] theorem Dev.chipReset_skews (d : Dev) : d.chipReset.skews = d.skews := rfl
@[simp] theorem Dev.chipReset_out (d : Dev) : d.chipReset.out = d.out := rfl
@[simp] theorem Dev.chipReset_boot (d : Dev) : d.chipReset.boot = Boot.reset := rfl
@[simp] theorem Dev.chipReset_eps (d : Dev) : d.chipReset.eps = [] := rfl
@[simp] theorem Dev.chipReset_ports (d : Dev) : d.chipReset.ports = [] := rfl
@[simp] theorem Dev.chipReset_regions (d : Dev) : d.chipReset.regions = d.regions.map (fun x => (x.1, x.2.afterChip)) := rfl
@[simp] theorem Dev.chipReset_warden (d : Dev) : d.chipReset.warden = Warden.reset := rfl

@[simp] theorem Dev.chipReset_raises (d : Dev) : d.chipReset.raises = d.raises.filter (fun x => x.island == Isl.lantern) := rfl
@[simp] theorem Dev.chipReset_counters (d : Dev) : d.chipReset.counters = d.counters.filter (fun c => Ctr.isLamplighter c.1) := rfl

/-- The removal of rails while no restart is due touches the Lantern domain's enables and phase alone, and what it makes of them. -/
theorem Dev.removeRails_spec (d : Dev) (h : (d.lantern.resetN && (d.lantern.state == 0 || d.lantern.exiting.isSome)) = false) :
    d.removeRails = { d with lantern := d.lantern.railsGoing d.lanternNow } := by
  have hr : d.railsOff = { d with lantern := { d.lantern with phase := .off } } := by
    simp only [Dev.railsOff, Dev.modLantern_lantern, h]; rfl
  cases hp : d.lantern.phase <;> cases ht : topRail d.lantern.enables <;>
    simp only [Dev.removeRails, Lantern.railsGoing, Dev.dropEnable, hp, ht, hr] <;> rfl

/-- A fault entry (02 R55, R57, R66, R71): P3 with the fault recorded, nothing retained, the clamps closed, the rails' removal begun,
every domain but Lantern's as a chip reset leaves it, and the counters as they were. -/
theorem Dev.faultEntry_spec (d : Dev) (kind group : Nat) :
    d.faultEntry kind group = { d.chipReset with
      counters := d.counters,
      lantern := ({ d.lantern with
        lastFault := kind, faultGroup := group, retainValid := false, state := 3, exiting := none, clamped := true,
        entering := none } : Lantern).railsGoing d.lanternNow } := by
  simp only [Dev.faultEntry, Dev.powerOff]
  rw [Dev.removeRails_spec _ (by simp [Dev.modLantern])]
  rfl

/-- RESET_N low (02 R58, 17 R530 to R532), while no restart is due. -/
theorem Dev.resetAll_spec (d : Dev) (cause cells : Nat) (h : d.lantern.resetN = false) :
    d.resetAll cause cells = { d.chipReset with
      lantern := ({ d.lantern with
        resetCause := cause, cellsHeld := cells, tripped := false, retainValid := false, state := 0, exiting := none, rope := .idle,
        brAck := none, wakeIn := false, wakeTicks := 0, clamped := true, entering := none, tjStart := d.lanternNow,
        tjHigh := none } : Lantern).railsGoing d.lanternNow } := by
  simp only [Dev.resetAll, Dev.powerOff]
  rw [Dev.removeRails_spec _ (by simp [Dev.modLantern, Dev.dropCounters, h])]
  rfl

end Sys2Proof.Machine
end

