-- ==== Sys2Proof/Tests/Slice0.lean ====
section
/-! SUPPORT. Tests: ill-formed commands that well-formedness refuses, values that the spec works out, and for each statement a
state and operands that meet its hypotheses (theorems wit_...; one conjunct for each clause). -/

set_option linter.unusedVariables false
set_option Elab.async false

namespace Sys2Proof.Tests
open Sys2Proof Sys2Proof.Machine

/-! ## Well-formedness: an ill-formed term for each check, which the check refuses -/

theorem test_wf_paths : (Instr.nopCommand (.gate 16 0) 1).wf = false ∧ (Instr.nopCommand (.gate 15 8192) 1).wf = false ∧
    (Instr.nopCommand (.inband 262144 0) 1).wf = false ∧ (Instr.nopCommand (.inband 0 4096) 1).wf = false ∧
    (Instr.nopCommand (.gate 15 8191) 1).wf = true := by decide
theorem test_wf_tags : (Instr.nopCommand .bellrope 65536).wf = false ∧ (Instr.laneBitslipRead (.request .bellrope 65536)).wf = false ∧
    (Instr.flashWrite .bellrope 65536 false).wf = false ∧ (Instr.nopCommand .bellrope 65535).wf = true := by decide
theorem test_wf_slip_bytes : (Instr.laneBitslipRead (.firmware [])).wf = false ∧
    (Instr.laneBitslipRead (.firmware (List.replicate 16 0))).wf = true := by decide
theorem test_wf_readings : (Instr.thermalSample []).wf = false ∧ (Instr.thermalSample (List.replicate 16 0)).wf = true := by decide
theorem test_wf_sets : (Instr.ts1Received 0 0 []).wf = false ∧ (Instr.ts2Received 0 0 [0]).wf = false ∧
    (Instr.fcReceived 0 0 []).wf = false ∧ (Instr.fcReceived 0 0 (List.replicate 16 0)).wf = true := by decide
theorem test_wf_words : (Instr.trainingWordReceived 0 0 []).wf = false ∧ (Instr.limpFrameReceived 0 []).wf = false ∧
    (Instr.limpFrameReceived 0 (List.replicate 9 [])).wf = false ∧ (Instr.linkUnitReceived 0 []).wf = false ∧
    (Instr.linkUnitReceived 0 [zeros 287]).wf = false ∧ (Instr.linkUnitReceived 0 (List.replicate 8 (zeros 36))).wf = true ∧
    (Instr.flitStore 0 0 []).wf = false := by decide +kernel
theorem test_wf_headers : (Instr.lockAtCell 0 { hdr := { dstFen := 262144 } }).wf = false ∧
    (Instr.lockAtCell 0 { hdr := { srcEpoch := 256 } }).wf = false ∧ (Instr.lockAtCell 0 { hdr := { rung := 4 } }).wf = false ∧
    (Instr.lockAtCell 0 { hdr := { laSet := 2 ^ 56 } }).wf = false ∧ (Instr.lockAtCell 0 { hdr := { msgSeq := 2 ^ 24 } }).wf = false ∧
    (Instr.lockAtCell 0 { hdr := { ext := 2 ^ 192 } }).wf = false ∧ (Instr.lockAtCell 0 { hdr := { reserved := 1 } }).wf = false ∧
    (Instr.lockAtCell 0 {}).wf = true := by decide +kernel
theorem test_wf_packets : (Instr.cancel 0 { payload := [0] }).wf = false ∧ (Instr.cancel 0 { ecrc := 2 ^ 32 }).wf = false ∧
    (Instr.cancel 0 { hdr := { plen := 1 }, payload := [0] }).wf = true := by decide +kernel
theorem test_wf_windows : (Instr.bar4Access 0 0 (.read 0)).wf = false ∧ (Instr.bar4Access 0 0 (.read 4097)).wf = false ∧
    (Instr.bar4Access 0 0 (.write [])).wf = false ∧ (Instr.hbmApertureAccess 0 (2 ^ 34) (.read 8)).wf = false := by decide
theorem test_wf_gates : (Instr.linkActive 0 17 0 false).wf = false ∧ (Instr.linkActive 0 16 8 false).wf = false ∧
    (Instr.completionReceived 0 ⟨16384, 0, 0, 0, .ur, 0⟩).wf = false ∧ (Instr.completionReceived 0 ⟨0, 0, 4097, 0, .ur, 0⟩).wf = false ∧ (Instr.cplTimeout 0 16384).wf = false ∧
    (Instr.l0pWindow 0 101 0).wf = false := by decide
theorem test_wf_queues : (Instr.sqDoorbell 0 (2 ^ 26) [0]).wf = false ∧ (Instr.sqPush 0 0 []).wf = false ∧
    (Instr.ringFetchFail 0 0 (.ok [])).wf = false ∧ (Instr.ringFetchFail 0 0 .poison).wf = true := by decide
theorem test_wf_trees : (Instr.upWindowExpiry 0 4096).wf = false ∧ (Instr.contribReadComplete 0 0 96 0 .ur).wf = false ∧
    (Instr.contribReadComplete 0 4095 95 0 .ur).wf = true := by decide
theorem test_wf_registers : (Instr.registerWrite 0 (.write (2 ^ 26) 8 0)).wf = false ∧ (Instr.registerWrite 0 (.read 0 9)).wf = false ∧
    (Instr.registerWrite 0 (.readDoorbells (2 ^ 26) 4)).wf = false ∧ (Instr.registerWrite 0 (.read 0 8)).wf = true ∧
    (Instr.counterWriteClear 0 0 9).wf = false := by decide
/-- A configuration write with every field 0. -/
def cfgZero : CfgWrite := ⟨false, false, 0, 0, 0, 0, false, false, false, false, false, false, false, false, 0, 0, 0, 0, 0, 0, 0, ⟨0, 0, 0, 0, 0⟩⟩
theorem test_wf_config : (Instr.interruptConfigWrite 0 (.write cfgZero)).wf = true ∧ (Instr.interruptConfigWrite 0 (.read .vendorId)).wf = true ∧
    (Instr.interruptConfigWrite 0 (.write { cfgZero with tagSize := 3 })).wf = false ∧
    (Instr.interruptConfigWrite 0 (.write { cfgZero with cplTimeout := 16 })).wf = false ∧
    (Instr.interruptConfigWrite 0 (.write { cfgZero with maxRead := 8 })).wf = false ∧
    (Instr.interruptConfigWrite 0 (.write { cfgZero with bar0 := 2 ^ 64 })).wf = false := by decide
theorem test_wf_others : (Instr.wakeRegistered (.wakeIn [])).wf = false ∧ (Instr.bootStart []).wf = false ∧
    (Instr.bellropeRequest (List.replicate 3 .dlm)).wf = true ∧ (Instr.regionReady 0 [2432]).wf = false ∧
    (Instr.uncorrectableError .chip (.flits 0 64 0)).wf = false ∧ (Instr.uncorrectableError .chip (.routeEntry 0 true 1024)).wf = false ∧
    (Instr.uncorrectableError .chip (.treeContext 0 4096)).wf = false := by decide

/-! ## Values that the spec works out, and hand calculation from its tables -/

/-- 05: gate 2, sub 0 of router 9,870 is FEN 157,924. -/
theorem test_fen : fenOf 9870 4 = 157924 := by decide
/-- 18 R541: STOP_NS of VC 4 of port 77 is counter 0x24D36. -/
theorem test_counter_number : Ctr.stopNs 77 4 = 0x24D36 := by decide
/-- 12 R382, R387: 1.0 plus the smallest subnormal rounds to 1.0, and with minus 1.0 as well the subnormal stands. -/
theorem test_exact_sum : roundAcc ((toAcc 0x3FF0000000000000 0).combine (toAcc 1 0)) 0 = 0x3FF0000000000000 ∧
    roundAcc (((toAcc 0x3FF0000000000000 0).combine (toAcc 1 0)).combine (toAcc 0xBFF0000000000000 0)) 0 = 1 := by decide +kernel
/-- 12 R387: BF16 1.0 plus half of its last place is a tie and stays even; 1.0078125 plus the same goes up. -/
theorem test_round_to_even : roundAcc ((toAcc 0x3F80 2).combine (toAcc 0x3B80 2)) 2 = 0x3F80 ∧
    roundAcc ((toAcc 0x3F81 2).combine (toAcc 0x3B80 2)) 2 = 0x3F82 := by decide +kernel
/-- 12 R382, R387: the sum of two negative zeros is a negative zero, of zeros of both signs a positive one. -/
theorem test_zeros : roundAcc ((toAcc 0x80000000 1).combine (toAcc 0x80000000 1)) 1 = 0x80000000 ∧
    roundAcc ((toAcc 0x80000000 1).combine (toAcc 0 1)) 1 = 0 := by decide +kernel
/-- 12 R384: the compact form of 3.0 holds WINDOW 3 and POS 1,074. -/
theorem test_compact : (toAcc 0x4008000000000000 0).toCompact = leBytes 24 (3 + 1074 * 2 ^ 128) := by decide +kernel
/-- 14 R449 and 05 R140 use CRC-32C, whose check value over the nine digits is 0xE3069283. -/
theorem test_crc32c : crc32c [0x31, 0x32, 0x33, 0x34, 0x35, 0x36, 0x37, 0x38, 0x39] = 0xE3069283 := by decide +kernel
/-- 05 R153: the LFSR shifts left, and folds its feedback in when bit 31 leaves. -/
theorem test_lfsr : lfsrStep 1 = 2 ∧ lfsrStep 0x80000000 = 0x00400007 := by decide

/-! ## Small states -/

/-- The Lantern domain with every rail up and the clamps open. -/
def onLamp : Lantern :=
  { Lantern.reset with resetN := true, enables := 15, pg := 15, cameUp := 15, phase := .up, clamped := false }

def lamp (l : Lantern) (now : Nat := 0) : State := { State.reset with dev := { Dev.reset with lantern := l, now := now } }

/-- A device that runs: every island, gates brought up, every endpoint privileged. -/
def live : Dev :=
  { Dev.reset with
    lantern := onLamp, boot := { Boot.reset with stage := .running, priv := 0xFFFF },
    warden := { Warden.reset with belfry := 15, hbm := 15, buttress := 63, pll := true, done := true, engines := 0xFFFFFFFFFFFFFFFF } }

def at_ (d : Dev) (now : Nat := 0) : State := { State.reset with dev := { d with now := now } }
def onPort (x : Port) (now : Nat := 0) : State := at_ { live with ports := [(5, x)] } now
def onTrain (t : Train) (now : Nat := 0) : State := onPort { Port.reset with train := t } now
def onRegion (x : Region) (now : Nat := 0) : State := at_ { live with regions := [(1, x)] } now
def onEp (x : Endpoint) (now : Nat := 0) : State := at_ { live with eps := [(4, x)] } now

/-- An endpoint whose BARs are open. -/
def openEp : Endpoint := { Endpoint.reset with state := .link, cfg := { PciCfg.reset with memEnable := true } }
def runEp : Endpoint := { openEp with state := .run }

/-! ## What lanes carry -/

/-- The code groups of symbols sent at a running disparity. -/
def sent (rd : Bool) (syms : List Sym) : Groups := (encodeSyms rd syms).1.map (BitVec.ofNat 10)
def goodLane : Lane := { Lane.reset with good := true }
/-- Port 5 once its lane has received a set. -/
def tookSet (st : State) (lane : Nat) (groups : Groups) : Dev := (st.dev.receiveSet 5 lane groups).1
/-- A T0 frame of VC 4 and a flit of zeros on one lane, and the symbols it carries. -/
def limpFrom : State := onTrain { Train.reset with state := .limp }
def limpFrameSyms : List Sym := Sym.k 0xFB :: (leBytes 132 16 ++ leBytes 4 2115648794).map Sym.d ++ [Sym.k 0xFD]
def limpSyms : List (List Sym) := [limpFrameSyms]
def limpLanes : List Groups := [sent false limpFrameSyms]

/-! ## Commands -/

/-- A request with tag 7 on Bellrope, with a good CHK. -/
def req (op level index : Nat) (params : List Byte) : Request :=
  ⟨.bellrope, 0, Ocm.build 1 0 op 7 (index + 16384 * level) 4080 params, none, 0, 0⟩
def withReq (q : Request) (d : Dev) : Dev := { d with warden := { d.warden with intake := [q] } }
def asking (q : Request) : State :=
  at_ (withReq q { live with
    ports := [(5, { Port.reset with ctrl := 0x200, train := { Train.reset with state := .t0Align } })]
    blocks := [(17, Block.reset)] })
/-- Bit-slip parameters: port 5 and the operation. -/
def slipBytes (op : Nat) : List Byte := leBytes 16 (5 + 256 * op)

/-- A whole link unit with an empty control field and no flits. -/
def goodUnit : List Byte :=
  zeros 268 ++ [185, 108, 238, 122, 199, 182, 227, 106, 163, 98, 193, 219, 111, 120, 227, 58, 242, 205, 111, 252]

/-! ## Packets -/

def directed : Packet := { hdr := { cls := 4, mode := 2, unit := 3, opcode := 1, interGroup := 1, laSet := 40 } }
def oneWaiting : Waiting := ⟨9, 63, 16, 0, none, directed, directed, .port 40⟩
/-- It waits for port 40, which is in LIMP. -/
def granting : State :=
  at_ { live with regions := [(1, { Region.reset with waiting := [oneWaiting] })],
                  ports := [(40, { Port.reset with train := { Train.reset with state := .limp } })] }
def oneEgress : Egress := ⟨9, 0, 63, 16, 16, directed, directed.hdr, none, 1, 0, 0, none⟩

/-- Port 5 has a flit to send and no credit, and has waited for a second. -/
def hungryPort : State :=
  onPort { Port.reset with toll := { Toll.reset with state := .opened, nextSeq := 16, creditLimit := 16, handed := [(3, zeros 128)],
                                                     starvedSince := some 0 } } 1000000000

/-! ## Queue entries -/

/-- Endpoint 4, send queue 3: an entry is held. -/
def holding (bytes : List Byte) : State :=
  onEp { runEp with
    sqs := [(3, { Sq.reset with state := .active, cfg := 0x19, pi := 2, held := some ⟨bytes, false⟩ })]
    cqs := [(0, { Cq.reset with cfg := 0xD })] }

/-- A CMD entry of 16 bytes at address 0, whose page is found. -/
def cmdBytes : List Byte := 0x70 :: zeros 31 ++ leBytes 4 16 ++ zeros 28
def cmdState : State :=
  onEp { runEp with
    sqs := [(3, { Sq.reset with state := .active, cfg := 0x19, pi := 2, held := some ⟨cmdBytes, false⟩ })]
    cqs := [(0, { Cq.reset with cfg := 0xD })], grants := [⟨.cmd 3, 0, 0, 0, .page 0 false⟩] }

/-- A tag outstanding for a unit. -/
def aTag (use : Use) (who : Who) (n : Nat) : Tag := ⟨3, use, who, none, 0, n, 0, [], false, false, false, none⟩
/-- A ring read of send queue 3 is outstanding. -/
def ringReading : Reading := ⟨6, .ring 3, .ring, [], [], none⟩
def ringTag : Tag := { aTag .ring (.ring 3) 32 with reading := some 6 }
def ringState : State :=
  onEp { runEp with
    sqs := [(3, { Sq.reset with state := .active, cfg := 0x19, pi := 2 })], cqs := [(0, { Cq.reset with cfg := 0xD })]
    tags := [ringTag], readings := [ringReading] }
/-- A level-2 walk of endpoint 4 whose table read is outstanding. -/
def aWalk : Walk := ⟨.spec, 0, 0, .read, false, none, 2, 0, false, 7, true⟩

/-! ## Requests that arrive -/

/-- The device once region 1 has taken a packet from its intake. -/
def afterIntake (st : State) (pkt : Packet) : Dev := st.dev.takeIntake 1 pkt
/-- And its connection 2 has been used. -/
def afterConn (st : State) (pkt : Packet) : Dev :=
  (afterIntake st pkt).modConn 1 2 (fun c => { c with syncing := false, used := (afterIntake st pkt).belfryNow 1 })

/-- A key of endpoint 4 that admits a kind of request: writes, reads or atomics. -/
def oneKey : Key := { Key.reset with state := .valid, perm := 7, limit := 4096 }
def keyed (_ : Nat) : State := onEp { runEp with keys := [(5, oneKey)] }
/-- A request to endpoint 4 of router 0 under key 5, from endpoint 5 of router 2. -/
def toKey (op : Nat) : Packet :=
  { hdr := { dstFen := 4, srcFen := 37, opcode := op, ext := endpointExt 0 (makeKey 5 4 0 0 0) 0 } }
def oneWork (st : WStage) : Work :=
  { ep := 4, pkt := toKey 0, stage := st, pas := [], key := none, tracker := none, op := none, time := 0 }
/-- Work 9 at endpoint 4, whose host request is out. -/
def working (st : WStage) : State :=
  at_ { live with regions := [(1, { Region.reset with works := [(9, oneWork st)] })],
                  eps := [(4, { runEp with tags := [aTag .payload (.work 9) 8] })] }
def oneTracker : Tracker :=
  { ep := 4, conn := (4, 37, 0), msgSeq := 0, hdr := (toKey 0).hdr, msgLen := 4096, attempt := 0, done := 0, placed := 0,
    echo := false, newest := 0, acked := 0, unacked := some 0 }

/-! ## Operations that wait for responses -/

/-- The connection of endpoint 4 with endpoint 5 of router 2. -/
def oneConn : Conn :=
  { ep := 4, localFen := 4, peerFen := 37, cls := 0, nextSeq := 1, syncing := false, window := 65536, inflight := 0, srtt := 4000,
    roundStart := 0, lastCut := none, marked := false, outstanding := 1, mapBase := 0, map := 0, mapEcho := false, mapOpened := 0,
    mapHdr := (toKey 0).hdr, mapNewest := 0, used := 0, txSeq := 0, txLast := 0, rxExpect := 0, rxHeld := 0, rxLast := 0, rxGap := 0,
    rxExpired := [], fresh := false }
def oneOp : Op :=
  { kind := .signal, ep := 4, sq := 3, entry := 0, conn := 2, addr := 0, remote := 0, key := 0, length := 0, operand := 0, compare := 0,
    aop := 0, wide := false, fetch := false, inline := none, built := none, localFen := 4, dstFen := 37, dstEpi := 0, srcEpi := 1, pasid := 0,
    user := false, fence := false, msgSeq := 0, sync := false, attempt := 0, next := 0, acked := 0, refused := 0, refusals := [],
    lastRetryLater := false, resend := [], again := [], timer := none, timeout := 1000000, sent := [], cost := 64, stamp := 0,
    fenceCounted := false, landing := [], localFault := none, signal := none, dataLen := 0, tag := 0, rank := 0, context := 0,
    sendSeq := 0, handle := 0, lent := none, lastGet := none, served := [], servedFault := none, matchId := 0, engine := 0,
    tracked := true, numbered := true, started := true, lost := false,
    connWaited := false, sendWaited := false }
def answering (o : Op) (now : Nat := 0) : State :=
  at_ { live with regions := [(1, { Region.reset with conns := [(2, oneConn)], ops := [(7, o)] })],
                  eps := [(4, { runEp with sqs := [(3, { Sq.reset with state := .active, cfg := 0x19 })] })] } now
/-- A PUT of 4 bytes, sent. -/
def sentOp : Op := { oneOp with kind := .put, length := 4, next := 4 }
/-- A GET of 4 bytes that lands in one page. -/
def landingOp : Op := { sentOp with kind := .get, landing := [(0, 0, false)] }
def fromPeer (op : Nat) : Packet := { hdr := { dstFen := 4, srcFen := 37, cls := 1, opcode := op } }
def mapFromPeer : Packet := { hdr := { (fromPeer 9).hdr with ext := respExt 0 0 0 false 0 0 1 } }
/-- A device with one operation to send. -/
def sending : State := answering { oneOp with next := 0 }

/-- A region whose carve-out for tables holds 1 GiB. -/
def tableState : State :=
  at_ { live with regions := [(1, { Region.reset with carve := { Carve.default with tables := 4 } })], eps := [(4, openEp)] }

/-! ## Messages -/

/-- An arriving message has left its intake; what step 1 then leaves: the device with its connection, and the connection's
number. -/
def arriving (op : Nat) : Dev := afterIntake (keyed 0) (toKey op)
def arrive (op : Nat) : Dev × Option Nat := ((arriving op).messageTimers 1 4 (toKey op).hdr).takeConn 4 4 37 0
def arrived (op : Nat) : Dev := ((arrive op).1.rebase 1 0 4 (toKey op).hdr).touchRx 1 0 0
def arrivedConn (op : Nat) : Conn := ((arrived op).conn 1 0).getD oneConn
def oneMatch : Match :=
  { kind := .held, epi := 0, context := 0, rank := 0, tag := 0, anySource := false, anyTag := false, stamp := 0, sq := 3, entry := 0,
    buf := 0, capacity := 4096, hdr := (toKey 0x10).hdr, localFen := 4, sendSeq := 3, attempt := 0, msgLen := 64, done := 0, placed := 0,
    acked := 0, unacked := none, echo := false, rndv := false, newest := 0, handle := 0, blocks := [], store := [], toStore := [], copying := false, parts := [], wrote := [],
    writing := 0, fault := 0, pulling := false, final := false }
/-- A message three places ahead of its connection is held. -/
def heldState : State :=
  at_ { live with regions := [(1, { Region.reset with conns := [(2, { oneConn with rxHeld := 1 })] })],
                  eps := [(4, { runEp with store := [(9, oneMatch)] })] } 10000000000
/-- A rendezvous whose data is lent under handle 40. -/
def lentOp : Op := { oneOp with kind := .rts, length := 64, lent := some 0, handle := 40 }
def lending : State :=
  at_ { live with regions := [(1, { Region.reset with conns := [(2, oneConn)], ops := [(7, lentOp)], trackerOf := [(40, 7)] })],
                  eps := [(4, runEp)] }
def lentPkt (op : Nat) : Packet := { hdr := { dstFen := 4, srcFen := 37, opcode := op, ext := 40 <<< 144 } }
/-- The same lent under a limit of 1 ms, long ago. -/
def limited : State :=
  at_ { live with regions := [(1, { Region.reset with
                    chip := { ChipRegs.reset with scrivCtrl := 0x1000104000#64 }, conns := [(2, oneConn)], ops := [(7, lentOp)] })],
                  eps := [(4, { runEp with sqs := [(3, { Sq.reset with state := .active, cfg := 0x19 })] })] } 10000000
/-- A matched rendezvous whose pull waits. -/
def pulling : State :=
  at_ { live with regions := [(1, { Region.reset with pullQueue := [(4, 9)] })],
                  eps := [(4, { runEp with store := [(9, { oneMatch with kind := .matched, rndv := true })] })],
                  blocks := [(16, { Block.reset with running := [(0, ⟨9, 0⟩)] })] }

/-- Entry 9 of endpoint 4: a matched, complete message in the unexpected store, and its copy on engine 0 of block 16. -/
def copyEntry : Match := { oneMatch with kind := .matched, blocks := [0], done := 64 }
def copying : State :=
  at_ { live with eps := [(4, { runEp with store := [(9, copyEntry)] })], blocks := [(16, { Block.reset with running := [(0, ⟨9, 0⟩)] })] }

/-! ## Collectives -/

/-- The static part of tree 6: parent FEN 53, one child, WINDOW 1, one member below. -/
def treeStatic : Nat := 6 + 53 * 2 ^ 16 + 2 ^ 41 + 2 ^ 56 + 2 ^ 96
/-- Tree 6 of region 1, whose child is FEN 37. -/
def oneTree : Tree :=
  { static := leBytes 32 treeStatic, state := 1, cur := 0, scratch := 0, children := [1 + 4 * 37], insts := [], postings := [],
    abortNew := 0 }
def treeRegion (t : Tree) : Region := { Region.reset with trees := [(6, t)] }
def withTree (t : Tree) : State := onRegion (treeRegion t)
def askingTree (q : Request) : State := at_ (withReq q { live with regions := [(1, treeRegion oneTree)] })
def treeSetReq : Request := req 0x0C01 0 0 (leBytes 8 1 ++ leBytes 32 treeStatic ++ leBytes 4 3)
def collPkt (src cls op coll : Nat) : Packet :=
  { hdr := { srcFen := src, cls := cls, unit := 1, opcode := op,
             ext := cooperExt 6 0 0 0 false false 0 0 (collArgOf 0 false coll 1 (if coll = 0 then 0 else 1)) } }
def upPkt : Packet := collPkt 37 2 1 0
def downPkt (op : Nat) : Packet := collPkt 53 3 op 1
def oneInst : Instance := newInstance 0 0 0 0 false 0 0
def lateTree : Tree := { oneTree with state := 2, insts := [oneInst] }
def downInst (op : Nat) : Instance := { newInstance 0 op 0 0 false 1 0 with phase := 2 }
def goingDown (op : Nat) : Tree := { oneTree with state := 2, insts := [downInst op] }
def readInst : Instance := newInstance 0 2 0 0 false 1 0
def onePosting : Posting :=
  { ep := 4, sq := 3, entry := 0, child := 0, number := 0, addr := 0, result := 0, pasid := 0, user := false, admitted := true,
    nextSeg := 0, reading := true, written := 0, writing := 0, fault := none }
def readTree : Tree := { oneTree with state := 2, insts := [readInst], postings := [onePosting] }
/-- A member's contribution is being read. -/
def contributing : State :=
  at_ { live with regions := [(1, treeRegion readTree)],
                  eps := [(4, { runEp with tags := [aTag .payload (.contrib 1 6 0 0) 8] })] }

/-! ## Locks -/

/-- A request for the first lock of region 1, from PENDING entry 5 of FEN 37. -/
def lockPkt (op : Nat) : Packet := { hdr := { srcFen := 37, cls := 0, unit := 2, opcode := op, ext := lockExt 16384 3 0 5 } }
def lockRegion (c : LockCell) : Region := { Region.reset with locks := [(16384, c)] }
/-- It is held by FEN 37, and FEN 53 waits. -/
def heldCell : LockCell :=
  { LockCell.reset with state := 1, holderFen := 37, waiters := [⟨53, 0, 0, 5, 0, 0⟩] }
def holdingLock : State := onRegion (lockRegion heldCell)
def waitingLock : State := onRegion (lockRegion { heldCell with holderFen := 53, waiters := [⟨37, 0, 3, 5, 0, 0⟩] })
def askingLock (q : Request) : State := at_ (withReq q { live with regions := [(1, lockRegion heldCell)] })
/-- A LOCK of endpoint 4 that was sent to router 2. -/
def onePend : Pend :=
  { ep := 4, sq := 3, entry := 0, unlock := false, try_ := false, prio := 0, fen := 4, epi := 0, router := 2, lockId := 16384, addr := 0,
    pas := [(0, 0, false)], state := .sent, repeats := 0, since := 0, unanswered := false, flushed := 0, lost := false }
def pendingLock (p : Pend) (now : Nat := 0) : State :=
  at_ { live with regions := [(1, { Region.reset with pends := [(5, p)] })],
                  eps := [(4, { runEp with sqs := [(3, { Sq.reset with state := .active, cfg := 0x19 })] })] } now
/-- The same on a FENCED device. -/
def fencedPending : State :=
  { pendingLock onePend 1000000000000 with dev := { (pendingLock onePend 1000000000000).dev with twin := { Twin.reset with state := .fenced } } }
def fromSlice (op : Nat) : Packet :=
  { hdr := { dstFen := 4, srcFen := 37, cls := 1, unit := 2, opcode := op, ext := lockExt 16384 0 0 5 } }
/-- Its entry's timers have been looked at. -/
def lockAnswered (st : State) (op : Nat) : Dev :=
  ((afterIntake st (fromSlice op)).lockRepeat 1 (argPend (fromSlice op).hdr)).lockProbe 1 (argPend (fromSlice op).hdr)

/-! ## The Warden's commands and calls -/

def inbandPkt (type : Nat) (payload : List Byte) : Packet :=
  { hdr := { srcFen := 37, dstFen := 4, cls := 4, unit := 3, opcode := type }, payload := payload }
/-- A CMD of endpoint 4, send queue 3, that router 2 is to answer. -/
def oneCall : Outstanding := ⟨8, none, 4, 0, 7, 2, 0, 0, false⟩
def oneCmd : Cmd := ⟨0, true, 7, none, 0, 0, none, false⟩
def callState (now : Nat) : State :=
  at_ { live with warden := { live.warden with calls := [oneCall] },
                  eps := [(4, { runEp with sqs := [(0, { Sq.reset with state := .active, cfg := 0x19, cmds := [oneCmd] })] })] } now
def calling : State := callState 0
def callingLate : State := callState 10000000000
/-- A command that executes. -/
def execOf (path : Path) (op tag a : Nat) : Exec :=
  ⟨⟨path, 0, [], none, 0, 0⟩, op, true, 0, 0, a, 0, [], false⟩
/-- The same under a tag that its bytes name. -/
def execTagged (path : Path) (op tag a : Nat) : Exec :=
  { execOf path op tag a with req := ⟨path, 0, leBytes 4 0 ++ leBytes 2 tag, none, 0, 0⟩ }
def oneExec : Exec := execTagged (.gate 4 3) 0x0F20 7 1
def executing (x : Exec) (now : Nat := 0) : State := at_ { live with warden := { live.warden with executing := [x] } } now
def matchedRope : State := at_ { live with lantern := { onLamp with rope := .matched } }
def forwardReq : Request := req 0x0E05 0 0 (leBytes 8 (1 + 2 ^ 8 * 40) ++ Ocm.build 1 0 0x0E00 9 0 0 [])
def regionReset9 : Exec := execTagged .bellrope 0x0F21 9 1
/-- An abort of the region reset under tag 9. -/
def aborting : State :=
  at_ { live with warden := { live.warden with intake := [req 0x0E06 0 0 (leBytes 8 9)], executing := [regionReset9] } }
def poweredCage : State := at_ { live with cages := [(3, { Cage.reset with pwrEn := true })] } 10000000000
def cleanRun : ClockRun := ⟨0, [], []⟩
def askingClock : State := at_ { live with warden := { Warden.reset with intake := [req 0x0E20 0 0 []] } }
/-- A CLOCK_SWITCH after its step `a`, with what it holds. -/
def clockExec (a b : Nat) : Exec := { execTagged .bellrope 0x0E20 7 a with b := b }
def switching (a b : Nat) : State := at_ { live with warden := { Warden.reset with executing := [clockExec a b] } }

/-! ## Twins, blocks and regions -/

def twinDev (st : PairState) : Dev :=
  { live with chip := { ChipRegs.reset with pilotTune := 0x104 }, twin := { Twin.reset with state := st, windowOpen := true } }
def twinned (st : PairState) (now : Nat := 0) : State := at_ (twinDev st) now
/-- A device that has sent its heartbeats and has heard none. -/
def deafTwin : State :=
  at_ { twinDev .paired with twin := { (twinDev .paired).twin with lastIssued := 1000000000 } } 1000000000
def askingTwin (st : PairState) (q : Request) : State := at_ (withReq q (twinDev st))
/-- TWIN_SET with ENABLE, peer router 2, ports 3 and 4, PERIOD 10 µs, DEAD_TIME 20 µs. -/
def twinSetReq : Request :=
  req 0x0F01 0 0 (leBytes 16 (1 + 2 * 2 ^ 16 + 3 * 2 ^ 80 + 4 * 2 ^ 88 + 10 * 2 ^ 96 + 20 * 2 ^ 112) ++ zeros 24)
def beatReq : Request := req 0x0F04 0 0 (zeros 16)
def oneItem : Item := ⟨9, 0⟩
def queuedItem : State :=
  at_ { live with blocks := [(16, { Block.reset with queue := [oneItem] })],
                  eps := [(4, { runEp with store := [(9, copyEntry)] })] }
def blockState (st : BState) : State := at_ { live with blocks := [(16, { Block.reset with state := st })] }
def loadExec : Exec := execTagged .bellrope 0x0F11 7 16
def blockLoading : State :=
  at_ { live with blocks := [(16, { Block.reset with state := .resetting, isLoad := true })],
                  warden := { live.warden with executing := [loadExec] } }
def askingOn (x : Region) (q : Request) : State := at_ (withReq q { live with regions := [(1, x)] })

/-! ## Start-up, errors and events -/

def releasedState : State := at_ { live with boot := { Boot.reset with stage := .released } }
def resetPending : State := at_ { live with boot := { live.boot with resetAt := some 5 } } 10
def copyingBank : State := at_ { live with quarantine := ⟨0, 0, 0, [], [(1, 5, 3)], []⟩ }
def oneRaise : Raise := ⟨Isl.warden, 5, 0, 0, 0, false⟩
def raised : State := at_ { live with raises := [oneRaise] }
def heldEvent : State := at_ { live with events := ⟨0, 0, 0, [], [(5, ⟨0, 1, oneRaise, oneRaise, true⟩)], 0, []⟩ }

/-! ## States and operands that meet the hypotheses of the other statements -/

theorem wit_OnlyFlashCommandsChangeFlashAndFuses : ∃ (c : Instr) (s t : State), exec c s = .next t ∧
    (∀ path tag readFail, c ≠ .imageActivate path tag readFail) ∧ (∀ path tag e, c ≠ .flashErase path tag e) ∧
    (∀ path tag e, c ≠ .flashWrite path tag e) :=
  ⟨.nopCommand .bellrope 7, asking (req 0x0E00 0 0 []), _, rfl, by simp, by simp, by simp⟩
theorem wit_EveryStepKeepsTheFlashFormAndTheFuses : ∃ s t : State, s.flashWf = true ∧ step s = .next t :=
  ⟨{ asking (req 0x0E00 0 0 []) with flash := [(9, 0)], fuses := ⟨3, true, [1]⟩, pending := [.nopCommand .bellrope 7] }, _,
    by decide +kernel, rfl⟩
/-- A FLASH_ERASE of the sector at 0x401000 and a FLASH_WRITE of 4 bytes at 0x3F0000 that start, and the second rows of an erase and of
a write; an IMAGE_ACTIVATE. -/
theorem wit_FlashCommandsKeepOtherBytes :
    (∃ (s t : State) (path : Path) (tag : Nat) (e : Bool) (q : Request) (ptr a b : Nat), s.dev.warden.exec path tag = none ∧
      s.dev.startable (Form.fixed 0x1102 8 [] 0) path tag = some (q, ptr) ∧ exec (.flashErase path tag e) s = .next t ∧
      a + 1 = flashAddr q.params ∧ b = flashAddr q.params + 4096 * flashLen q.params) ∧
    (∃ (s t : State) (path : Path) (tag : Nat) (e : Bool) (x : Exec) (a : Nat), s.dev.warden.exec path tag = some x ∧
      exec (.flashErase path tag e) s = .next t ∧ a + 1 = flashAddr x.req.params + 4096 * x.a ∧ x.a = 1) ∧
    (∃ (s t : State) (path : Path) (tag : Nat) (e : Bool) (q : Request) (ptr a b : Nat), s.dev.warden.exec path tag = none ∧
      s.dev.startable writeForm path tag = some (q, ptr) ∧ exec (.flashWrite path tag e) s = .next t ∧
      a + 1 = flashAddr q.params ∧ b = flashAddr q.params + flashLen q.params) ∧
    (∃ (s t : State) (path : Path) (tag : Nat) (e : Bool) (x : Exec) (a : Nat), s.dev.warden.exec path tag = some x ∧
      exec (.flashWrite path tag e) s = .next t ∧ a = x.a + x.data.length ∧ x.data.length = 4) ∧
    (∃ (s t : State) (path : Path) (tag : Nat) (f : Bool), exec (.imageActivate path tag f) s = .next t) :=
  ⟨⟨asking (req 0x1102 0 0 (leBytes 8 0x100401000)), _, .bellrope, 7, false, req 0x1102 0 0 (leBytes 8 0x100401000), 0, 0x400FFF, 0x402000,
      by decide +kernel, by decide +kernel, rfl,
      by decide +kernel⟩,
    ⟨executing { execTagged .bellrope 0x1102 7 1 with req := req 0x1102 0 0 (leBytes 8 0x200401000) }, _, .bellrope, 7, false,
      { execTagged .bellrope 0x1102 7 1 with req := req 0x1102 0 0 (leBytes 8 0x200401000) }, 0x401FFF,
      by decide +kernel, rfl, by decide +kernel, rfl⟩,
    ⟨asking (req 0x1103 0 0 (leBytes 8 0x4003F0000 ++ leBytes 4 9)), _, .bellrope, 7, false,
      req 0x1103 0 0 (leBytes 8 0x4003F0000 ++ leBytes 4 9), 0, 0x3EFFFF, 0x3F0004,
      by decide +kernel, by decide +kernel, rfl,
      by decide +kernel⟩,
    ⟨executing { execTagged .bellrope 0x1103 7 0x3F0100 with data := zeros 4 }, _, .bellrope, 7, true,
      { execTagged .bellrope 0x1103 7 0x3F0100 with data := zeros 4 }, 0x3F0104, by decide +kernel, rfl, rfl, rfl⟩,
    ⟨asking (req 0x1104 0 0 (zeros 8)), _, .bellrope, 7, false, rfl⟩⟩
theorem wit_ExactSumsTravelWithoutLoss :
    (∃ a : Acc, a.wf ∧ a.compact = true ∧ a.v = -(2 ^ 2047 : Int)) ∧ (∃ a : Acc, a.wf ∧ a.compact = false) :=
  ⟨⟨⟨.finite, -(2 ^ 2047 : Int), false⟩, ⟨fun h => absurd rfl h, by decide,
      by decide +kernel⟩, by decide +kernel, rfl⟩,
    ⟨⟨.finite, 2 ^ 200 + 1, false⟩, ⟨fun h => absurd rfl h, by decide,
      by decide +kernel⟩, by decide +kernel⟩⟩
theorem wit_ExactReductionIsOrderFree : ∃ (z : Acc) (xs ys : List Nat), z.plain ∧ xs.Perm ys ∧ xs ≠ ys :=
  ⟨⟨.finite, 0, false⟩, [1, 2], [2, 1], fun h => absurd rfl h, .swap 2 1 [], by decide⟩
theorem wit_EmptyQueueLetsOneNanosecondPass :
    (∃ s : State, s.pending = [] ∧ s.dev.lantern.powered = false) ∧ (∃ s : State, s.pending = [] ∧ s.dev.lantern.powered = true ∧
      ∀ r : Nat, s.dev.belfryRuns r = true → (s.dev.region r).poolWaits = [] ∧ (s.dev.region r).swaps = [] ∧
        ∀ p ∈ portsOf r, (s.dev.port p).train.state.training = false ∧ (s.dev.port p).train.state ≠ .limp) ∧
    (at_ live).dev.belfryRuns 1 = true :=
  ⟨⟨lamp { Lantern.reset with powered := false }, rfl, rfl⟩,
    ⟨at_ live, rfl, by decide +kernel, fun r _ => ⟨rfl, rfl, fun p _ => ⟨rfl, (by decide : PState.disabled ≠ .limp)⟩⟩⟩,
    by decide +kernel⟩
theorem wit_RefusedCommandsHaveNoEffect :
    (∃ (s : State) (path : Path) (tag : Nat) (q : Request) (ptr : Nat), s.dev.warden.exec path tag = none ∧
      s.dev.startable (Form.fixed 0x1102 8 [] 0) path tag = some (q, ptr) ∧
      s.dev.judge (Form.fixed 0x1102 8 [] 0) q = some Ocm.notAuthorised) ∧
    (∃ (s : State) (path : Path) (tag : Nat), s.dev.warden.exec path tag = none ∧
      s.dev.startable (Form.fixed 0x1102 8 [] 0) path tag = none) :=
  ⟨⟨asking (req 0x1102 0 0 (zeros 8)), .bellrope, 7, req 0x1102 0 0 (zeros 8), 0,
      by decide +kernel⟩,
    ⟨State.reset, .bellrope, 7,
      by decide +kernel⟩⟩
theorem wit_RegistersFollowTheirAccessCodes :
    (∃ (d : Dev) (c : ChipReg), c = .pilotCtrl ∧ d.twin.state = .off) ∧ (∃ (d : Dev) (c : ChipReg), c ≠ .pilotCtrl ∧ d.twin.state ≠ .off) ∧
    (∃ v : Reg, rbit v 0 = false ∧ rbit v 1 = true) ∧ (∃ (d : Dev) (p : Nat) (v : Reg), rbit v 0 = (d.port p).enable ∧ rbit v 8 = false) :=
  ⟨⟨live, .pilotCtrl, rfl, rfl⟩, ⟨twinDev .paired, .fcCtrl, by decide, by decide⟩, ⟨2#64, rfl, rfl⟩, ⟨live, 127, 0#64, rfl, rfl⟩⟩
theorem wit_UnprivilegedWritesAreDiscarded :
    (∃ (s : State) (ep : Fin 16) (off : Nat), s.dev.epUp ep = true ∧ s.dev.barOpen ep = true ∧ off % 8 = 0 ∧ off = 0x10000 ∧
      s.dev.priv ep = false) ∧
    (∃ (s : State) (ep : Fin 16) (off : Nat), s.dev.epUp ep = true ∧ s.dev.barOpen ep = true ∧ off % 8 = 0 ∧ off = 0x10000 ∧
      s.dev.priv ep = true ∧ s.dev.barReaches ep (barReg off) = true) ∧
    (∃ (s : State) (ep : Fin 16) (off : Nat), s.dev.epUp ep = true ∧ s.dev.barOpen ep = true ∧ off % 8 = 0 ∧ off = 0x7FFFF8 ∧
      s.dev.priv ep = false) :=
  ⟨⟨at_ { live with boot := { live.boot with priv := 0 }, eps := [(4, openEp)] }, 4, 0x10000,
      by decide +kernel, by decide +kernel, by decide, rfl, by decide +kernel⟩,
    ⟨onEp openEp, 4, 0x10000, by decide +kernel, by decide +kernel, by decide, rfl,
      by decide +kernel⟩,
    ⟨at_ { live with boot := { live.boot with priv := 0 }, eps := [(4, openEp)] }, 4, 0x7FFFF8,
      by decide +kernel, by decide +kernel, by decide, rfl, by decide +kernel⟩⟩
/-- A read in another region's HBM, a whole write at the end of the remainder, and an aperture write. -/
theorem wit_HostWritesTouchOnlyTheirHbmBytes :
    (∃ (s t : State) (ep : Fin 16) (off : Nat) (data : List Byte) (r : Nat), exec (.bar4Access ep off (.write data)) s = .next t ∧
      r ≠ regionOf ep) ∧
    (∃ (s t : State) (ep : Fin 16) (off n : Nat), exec (.bar4Access ep off (.read n)) s = .next t) ∧
    (∃ (s : State) (ep : Fin 16) (off : Nat) (data : List Byte), s.dev.gatesRun = true ∧ s.dev.epExists ep = true ∧
      s.dev.barOpen ep = true ∧ s.dev.hbmRuns (regionOf ep) = true ∧
      off + data.length = (s.dev.region (regionOf ep)).carve.remainder ∧ 0 < data.length ∧
      Memory.wf hbmDefault (s.dev.region (regionOf ep)).hbm = true) ∧
    (∃ (s t : State) (ep : Fin 16) (off : Nat) (data : List Byte) (a : Nat), data.length = 8 ∧
      exec (.hbmApertureAccess ep off (.write data)) s = .next t ∧ ∀ b, s.dev.apertureAt ep off 8 = some b → (a < b ∨ b + 8 ≤ a)) :=
  ⟨⟨onEp openEp, _, 4, 0, [1], 0, rfl, by decide +kernel⟩, ⟨onEp openEp, _, 4, 0, 1, rfl⟩,
    ⟨onEp openEp, 4, ((onEp openEp).dev.region 1).carve.remainder - 4, [1, 2, 3, 4],
      by decide +kernel⟩,
    ⟨onEp openEp, _, 4, 0, zeros 8, 2 ^ 60, rfl, rfl, by decide +kernel⟩⟩
theorem wit_ResettingQueuesIgnoreSoftware :
    ∃ (s : State) (ep : Fin 16) (sq : Fin 8192) (data push : List Byte), s.dev.epUp ep = true ∧ s.dev.barOpen ep = true ∧
      (s.dev.sq ep sq).state = .resetting ∧ data.length = 4 ∧ push.length = 64 :=
  ⟨onEp { runEp with sqs := [(3, { Sq.reset with state := .resetting })] }, 4, 3, zeros 4, zeros 64,
    by decide +kernel, by decide +kernel, by decide +kernel, rfl, rfl⟩
theorem wit_LockCellsAreAbandonedAfterAReset :
    (∃ r id : Nat, id / 16384 = r) ∧ (∃ c : LockCell, c.state = 2) ∧
    (∃ (s : State) (r : Fin 4) (p : Packet), s.dev.regionRuns r = true ∧ lockOk r p 0x01 = true ∧ (s.dev.lockCell p.hdr.lockId).state = 2) ∧
    (∃ (d : Dev) (id : Nat), (d.lockCell id).waiters = []) :=
  ⟨⟨1, 16384, by decide⟩, ⟨LockCell.reset, rfl⟩, ⟨at_ live, 1, lockPkt 1,
      by decide +kernel⟩,
    ⟨live, 16384, by decide +kernel⟩⟩
theorem wit_QueueContextWritesKeepTheRest : ∃ (s t : State) (c : Instr) (ep : Fin 16) (sq : Fin 8192) (q : RecQ) (cfg : Reg),
    exec c s = .next t ∧ c ∈ [.sqEnable ep sq cfg, .sqDisable ep sq cfg, .sqDrainDone ep sq, .cqEnable ep q cfg, .cqDisable ep q cfg] :=
  ⟨onEp runEp, _, .sqEnable 4 3 0x19, 4, 3, .cq 0, 0x19, rfl, by simp⟩
theorem wit_SleepCommandsKeepTheRest : ∃ (s t : State) (c : Instr) (p : Fin 128), exec c s = .next t ∧
    c ∈ [.ckDetected p, .txSleepEntry p, .txWake p, .ckBeaconEnd p, .sleepRefresh p] :=
  ⟨onTrain { Train.reset with state := .detect }, _, .ckDetected 5, 5, rfl, by simp⟩

theorem wit_EveryStepKeepsTheHbmForm : ∃ s t : State, (∀ r : Nat, Memory.wf hbmDefault (s.dev.region r).hbm = true) ∧
    (s.dev.region 1).hbm = [(9, 7)] ∧ step s = .next t := by
  refine ⟨{ onRegion { Region.reset with hbm := [(9, 7)] } with pending := [.nopCommand .bellrope 7] }, _, fun r => ?_, rfl, rfl⟩
  by_cases h : r = 1
  · subst h; rfl
  · have e : ({ onRegion { Region.reset with hbm := [(9, 7)] } with pending := [.nopCommand .bellrope 7] } : State).dev.region r =
        (live.setRegion 1 { Region.reset with hbm := [(9, 7)] }).region r := rfl
    rw [e]
    rw [show (live.setRegion 1 { Region.reset with hbm := [(9, 7)] }).region r = live.region r from tgetD_tput_other _ _ _ h]
    rfl

/-! ## States and operands that meet the conditions of what each command answers -/

theorem wit_RailCommandsComplete :
    (∃ (s : State) (g : Rail) (since : Nat), (s.dev.lantern.powered = true) ∧ (s.dev.lantern.phase = .waiting g since) ∧ (s.dev.lanternNow < since + 20000000)) ∧
    (∃ (s : State) (g : Rail) (since : Nat), (s.dev.lanternRuns = true) ∧ (s.dev.lantern.phase = .settling g since) ∧ (since + 100000 ≤ s.dev.lanternNow)) ∧
    (∃ (s : State) (g : Rail) (since : Nat), (s.dev.lanternRuns = true) ∧ (s.dev.lantern.phase = .waiting g since) ∧ (since + 20000000 ≤ s.dev.lanternNow)) ∧
    (∃ (s : State) (g h : Rail) (since : Nat) (low : Bool), (s.dev.lantern.powered = true) ∧ (s.dev.lantern.phase = .removing g since) ∧ (low = true ∨ since + 10000000 ≤ s.dev.lanternNow) ∧ (topRail s.dev.lantern.enables = some h)) ∧
    (∃ (s : State) (g : Rail) (since : Nat) (low : Bool), (s.dev.lantern.powered = true) ∧ (s.dev.lantern.phase = .removing g since) ∧ (low = true ∨ since + 10000000 ≤ s.dev.lanternNow) ∧ (topRail s.dev.lantern.enables = none) ∧ ((s.dev.lantern.resetN && (s.dev.lantern.state == 0 || s.dev.lantern.exiting.isSome)) = false)) ∧
    (∃ (s : State) (g : Rail), (s.dev.lanternRuns = true) ∧ (bit s.dev.lantern.enables (railBit g) = true) ∧ (bit s.dev.lantern.cameUp (railBit g) = true)) ∧
    (∃ (s : State) (ns : Nat), (s.dev.lanternRuns = true) ∧ (2000 ≤ ns)) :=
  ⟨⟨lamp { onLamp with phase := .waiting .sram 0 }, .sram, 0,
      by decide +kernel⟩,
   ⟨lamp { onLamp with phase := .settling .hbm 0 } 100000, .hbm, 0,
      by decide +kernel⟩,
   ⟨lamp { onLamp with phase := .waiting .core 0 } 20000000, .core, 0,
      by decide +kernel⟩,
   ⟨lamp { onLamp with phase := .removing .hbm 0, enables := 7 }, .hbm, .loom, 0, true,
      by decide +kernel⟩,
   ⟨lamp { onLamp with phase := .removing .sram 0, enables := 0, resetN := false } 10000000, .sram, 0, false,
      by decide +kernel⟩,
   ⟨lamp onLamp, .hbm,
      by decide +kernel⟩,
   ⟨lamp onLamp, 2000,
      by decide +kernel⟩⟩

theorem wit_ResetAndSensorCommandsComplete :
    (∃ (s : State) (straps : BitVec 7), (s.dev.lantern.powered = true) ∧ (s.dev.lantern.resetN = false) ∧ (s.dev.lantern.phase = .off) ∧ (s.dev.lantern.exiting = none)) ∧
    (∃ (s : State), (s.dev.lanternRuns = true)) ∧
    (∃ (s : State) (ts : List Int) (a : Dev), (s.dev.lanternRuns = true) ∧ (ts.length = 16) ∧ (ts.any (fun t => decide (110 ≤ t)) = true) ∧ (a = forEach ts.zipIdx (fun x d => d.sensor (x.2 / 4) x.1) s.dev)) ∧
    (∃ (s : State) (t : Int), (s.dev.lanternRuns = true) ∧ (s.dev.lantern.tjStart + 1000000000 ≤ s.dev.lanternNow) ∧ (s.dev.lantern.tjHigh = some t) ∧ (85 ≤ t ∧ t < 95)) ∧
    (∃ (s : State) (t : Int), (s.dev.lanternRuns = true) ∧ (s.dev.lantern.tjStart + 1000000000 ≤ s.dev.lanternNow) ∧ (s.dev.lantern.tjHigh = some t) ∧ (95 ≤ t ∧ t ≤ 105)) ∧
    (∃ (s : State) (t : Int), (s.dev.lanternRuns = true) ∧ (s.dev.lantern.tjStart + 1000000000 ≤ s.dev.lanternNow) ∧ (s.dev.lantern.tjHigh = some t) ∧ (105 < t)) ∧
    (∃ (s : State) (t : Int), (s.dev.lanternRuns = true) ∧ (s.dev.lantern.tjStart + 1000000000 ≤ s.dev.lanternNow) ∧ (s.dev.lantern.tjHigh = some t) ∧ (t < 85)) ∧
    (∃ (s : State), (s.dev.lanternRuns = true) ∧ (s.dev.lantern.tjStart + 1000000000 ≤ s.dev.lanternNow) ∧ (s.dev.lantern.tjHigh = none)) ∧
    (∃ (s : State), (s.dev.lanternRuns = true) ∧ (s.dev.lantern.entering = none) ∧ (s.dev.lantern.exiting = none) ∧ (s.dev.lantern.state = 2) ∧ (s.dev.lantern.tripped = false) ∧ (s.dev.lantern.wakeCtrl.getLsbD 1 = true)) :=
  ⟨⟨State.reset, 0,
      by decide +kernel⟩,
   ⟨lamp onLamp,
    by decide +kernel⟩,
   ⟨lamp onLamp, List.replicate 16 110, forEach (List.replicate 16 110).zipIdx (fun x d => d.sensor (x.2 / 4) x.1) (lamp onLamp).dev,
    by decide +kernel,
    by decide +kernel,
    by decide +kernel,
    rfl⟩,
   ⟨lamp { onLamp with tjHigh := some 85 } 1000000000, 85,
      by decide +kernel⟩,
   ⟨lamp { onLamp with tjHigh := some 105 } 1000000000, 105,
      by decide +kernel⟩,
   ⟨lamp { onLamp with tjHigh := some 106 } 1000000000, 106,
      by decide +kernel⟩,
   ⟨lamp { onLamp with tjHigh := some 84 } 1000000000, 84,
      by decide +kernel⟩,
   ⟨lamp onLamp 1000000000,
      by decide +kernel⟩,
   ⟨lamp { onLamp with state := 2 },
      by decide +kernel⟩⟩

theorem wit_PortStateCommandsComplete :
    (∃ (s : State) (p : Fin 128), ((s.dev.port p).enable = true)) ∧
    (∃ (s : State) (p : Fin 128), ((s.dev.port p).enable = false)) ∧
    (∃ (s : State) (p : Fin 128), (s.dev.portRuns p = true) ∧ ((s.dev.port p).train.state = .up)) ∧
    (∃ (s : State) (p : Fin 128), (s.dev.portRuns p = true) ∧ ((s.dev.port p).train.state.training = true)) ∧
    (∃ (s : State) (p : Fin 128), (s.dev.portRuns p = true) ∧ ((s.dev.port p).train.state ≠ .up) ∧ ((s.dev.port p).train.state.training = false)) ∧
    (∃ (s : State) (p : Fin 128), (s.dev.portRuns p = true) ∧ ((s.dev.port p).train.state = .detect) ∧ ((s.dev.port p).train.since + 2000 ≤ s.dev.belfryNow (p / 32))) ∧
    (∃ (s : State) (p : Fin 128) (n : Nat), (s.dev.portRuns p = true) ∧ ((s.dev.port p).train.state.timeout = some n) ∧ ((s.dev.port p).train.since + n ≤ s.dev.belfryNow (p / 32)) ∧ ((s.dev.port p).train.agreed = false)) ∧
    (∃ (s : State) (p : Fin 128), (s.dev.portRuns p = true) ∧ ((s.dev.port p).train.state = .backoff) ∧ ((s.dev.port p).train.since + 10000000 ≤ s.dev.belfryNow (p / 32)) ∧ ((s.dev.port p).train.limpBackoff = false)) ∧
    (∃ (s : State) (p : Fin 128) (last : Nat), (s.dev.portRuns p = true) ∧ ((s.dev.port p).train.state ≠ .disabled) ∧ ((s.dev.port p).train.state ≠ .backoff) ∧ (max (s.dev.port p).train.ckAt last + 64 ≤ s.dev.belfryNow (p / 32))) ∧
    (∃ (s : State) (p : Fin 128), (s.dev.portRuns p = true) ∧ ((s.dev.port p).train.state = .step) ∧ ((s.dev.port p).train.since + 40000 ≤ s.dev.belfryNow (p / 32))) ∧
    (∃ (s : State) (p : Fin 128), (s.dev.portRuns p = true) ∧ ((s.dev.port p).train.state = .limp) ∧ ((s.dev.port p).train.since + 1000000000 ≤ s.dev.belfryNow (p / 32))) :=
  ⟨⟨onPort { Port.reset with ctrl := 1 }, 5,
    by decide +kernel⟩,
   ⟨onPort Port.reset, 5,
    by decide +kernel⟩,
   ⟨onTrain { Train.reset with state := .up }, 5,
      by decide +kernel⟩,
   ⟨onTrain { Train.reset with state := .step }, 5,
      by decide +kernel⟩,
   ⟨onTrain { Train.reset with state := .backoff }, 5,
      by decide +kernel⟩,
   ⟨onTrain { Train.reset with state := .detect } 2000, 5,
      by decide +kernel⟩,
   ⟨onTrain { Train.reset with state := .t0Config } 200000, 5, 200000,
      by decide +kernel⟩,
   ⟨onTrain { Train.reset with state := .backoff } 10000000, 5,
      by decide +kernel⟩,
   ⟨onTrain { Train.reset with state := .step } 64, 5, 0,
      by decide +kernel⟩,
   ⟨onTrain { Train.reset with state := .step } 40000, 5,
      by decide +kernel⟩,
   ⟨onTrain { Train.reset with state := .limp } 1000000000, 5,
      by decide +kernel⟩⟩

theorem wit_TrainingSetsComplete :
    (∃ (s : State) (p : Fin 128) (lane : Fin 8) (groups : Groups) (e : Dev) (syms : List Sym) (b : List Byte), (s.dev.portRuns p = true) ∧ (s.dev.receiveSet p lane groups = (e, some syms)) ∧ ((e.port p).train.state = .t0Align ∨ (e.port p).train.state = .t0Config) ∧ (trainingBody symTs1 syms = some b)) ∧
    (∃ (s : State) (p : Fin 128) (lane : Fin 8) (groups : Groups) (e : Dev) (syms : List Sym) (b : List Byte), (s.dev.portRuns p = true) ∧ (s.dev.receiveSet p lane groups = (e, some syms)) ∧ ((e.port p).train.goodLanes.contains lane.val = true) ∧ ((e.port p).train.state = .t0Config) ∧ ((e.port p).train.leader = false) ∧ ((e.port p).train.countdown = none) ∧ (trainingBody symTs2 syms = some b)) ∧
    (∃ (s : State) (p : Fin 128) (lane : Fin 8) (word : List Byte), (s.dev.rxRuns p = true) ∧ (s.dev.gated = false) ∧ ((s.dev.port p).train.state = .step) ∧ (goodWord word = true) ∧ ((s.dev.port p).train.leader = false) ∧ ((s.dev.port p).train.req = false) ∧ (byteAt word 16 ≠ 255)) ∧
    (∃ (s : State) (p : Fin 128) (c : Countdown), (s.dev.portRuns p = true) ∧ ((s.dev.port p).train.countdown = some c) ∧ ((s.dev.port p).train.state = .t0Config) ∧ (1 ≤ c.target) ∧ (c.ended = true)) :=
  ⟨⟨onTrain { Train.reset with state := .t0Align }, 5, 0, sent false (orderedSet symTs1 (List.replicate 13 0)), tookSet (onTrain { Train.reset with state := .t0Align }) 0 (sent false (orderedSet symTs1 (List.replicate 13 0))), orderedSet symTs1 (List.replicate 13 0), List.replicate 13 0,
      by decide +kernel⟩,
   ⟨onTrain { Train.reset with state := .t0Config, lanes := [(3, goodLane)] }, 5, 3, sent false (orderedSet symTs2 (List.replicate 13 0)), tookSet (onTrain { Train.reset with state := .t0Config, lanes := [(3, goodLane)] }) 3 (sent false (orderedSet symTs2 (List.replicate 13 0))), orderedSet symTs2 (List.replicate 13 0), List.replicate 13 0,
      by decide +kernel⟩,
   ⟨onTrain { Train.reset with state := .step }, 5, 0, leBytes 4 0x9B3E61C5 ++ zeros 12 ++ [9] ++ zeros 17 ++ leBytes 2 11035,
      by decide +kernel⟩,
   ⟨onTrain { Train.reset with state := .t0Config, countdown := some ⟨1, false, false, 0, 0, true⟩ }, 5, ⟨1, false, false, 0, 0, true⟩,
      by decide +kernel⟩⟩

theorem wit_LaneFailureAndSleepComplete :
    (∃ (s : State) (p : Fin 128) (lane : Fin 8), (s.dev.portRuns p = true) ∧ ((s.dev.port p).train.rxAsleep = false) ∧ ((s.dev.port p).train.state = .step)) ∧
    (∃ (s : State) (p : Fin 128) (worn : List Nat), (s.dev.portRuns p = true) ∧ ((s.dev.port p).train.state = .up) ∧ ((s.dev.port p).train.errStart + 1000000 ≤ s.dev.belfryNow (p / 32)) ∧ (s.dev.belfryNow (p / 32) < (s.dev.port p).train.errStart + 2000000) ∧ (worn = (List.range 8).filter (fun l => decide ((s.dev.port p).laneErrLimit < ((s.dev.port p).train.lane l).corrected)))) ∧
    (∃ (s : State) (p : Fin 128), (s.dev.portRuns p = true) ∧ ((s.dev.port p).train.state = .up) ∧ ((s.dev.port p).toll.state = .opened) ∧ ((s.dev.port p).sleepEn = true) ∧ ((s.dev.port p).train.txAsleep = false) ∧ ((s.dev.port p).needsSend = false) ∧ ((s.dev.port p).toll.txBlock = []) ∧ ((s.dev.port p).train.idleSince + (s.dev.port p).idleSleep ≤ s.dev.belfryNow (p / 32))) ∧
    (∃ (s : State) (p : Fin 128), (s.dev.portRuns p = true) ∧ ((s.dev.port p).train.state = .up) ∧ ((s.dev.port p).train.txAsleep = true) ∧ ((s.dev.port p).needsSend = true) ∧ (s.dev.lantern.entering = none)) ∧
    (∃ (s : State) (p : Fin 128), (s.dev.rxRuns p = true) ∧ ((s.dev.port p).train.state = .up) ∧ ((s.dev.port p).train.rxAsleep = true)) ∧
    (∃ (s : State) (p : Fin 128) (b : Nat), (s.dev.portRuns p = true) ∧ ((s.dev.port p).train.state = .up) ∧ ((s.dev.port p).train.rxAsleep = true) ∧ ((s.dev.port p).train.beaconEnd = some b) ∧ (b + 200 ≤ s.dev.belfryNow (p / 32))) ∧
    (∃ (s : State) (p : Fin 128), (s.dev.portRuns p = true) ∧ ((s.dev.port p).train.state = .up) ∧ ((s.dev.port p).train.txAsleep = true) ∧ ((s.dev.port p).train.txSince + 10000000 ≤ s.dev.belfryNow (p / 32))) :=
  ⟨⟨onTrain { Train.reset with state := .step }, 5, 3,
      by decide +kernel⟩,
   ⟨onTrain { Train.reset with state := .up, lanes := [(3, { goodLane with corrected := 4294967296 })] } 1000000, 5, [3],
      by decide +kernel⟩,
   ⟨onPort { Port.reset with ctrl := 0x80, train := { Train.reset with state := .up }, toll := { Toll.reset with state := .opened } } 1000, 5,
      by decide +kernel⟩,
   ⟨onPort { Port.reset with train := { Train.reset with state := .up, txAsleep := true }, toll := { Toll.reset with rxExpect := 1 } }, 5,
      by decide +kernel⟩,
   ⟨onTrain { Train.reset with state := .up, rxAsleep := true }, 5,
      by decide +kernel⟩,
   ⟨onTrain { Train.reset with state := .up, rxAsleep := true, beaconEnd := some 0 } 200, 5, 0,
      by decide +kernel⟩,
   ⟨onTrain { Train.reset with state := .up, txAsleep := true } 10000000, 5,
      by decide +kernel⟩⟩

set_option maxRecDepth 100000 in
theorem wit_LimpAndBitSlipCommandsComplete :
    (∃ (s : State) (p : Fin 128) (lanes : List Groups) (e : Dev) (syms : List (List Sym)) (b : List Byte), (s.dev.portRuns p = true) ∧ ((s.dev.port p).train.state = .limp) ∧ ((s.dev.ckSeen p).decodeLanes p (activeLanes (s.dev.port p).train.width) lanes = (e, syms)) ∧ (syms.any codeError = false) ∧ (lanes.length = (activeLanes (s.dev.port p).train.width).length) ∧ (frameOf syms = some b) ∧ (crc32 (b.take 132) = field b 132 4) ∧ (16 ≤ field b 0 4) ∧ (field b 0 4 ≤ 19)) ∧
    (∃ (s : State) (p : Fin 128) (lane : Fin 8) (groups : Groups) (e : Dev) (syms : List Sym) (b : List Byte), (s.dev.portRuns p = true) ∧ (s.dev.receiveSet p lane groups = (e, some syms)) ∧ ((activeLanes (e.port p).train.width).contains lane.val = true) ∧ ((e.port p).train.state = .limp) ∧ (setBody symFc syms = some b)) ∧
    (∃ (s : State) (p : Fin 128), (s.dev.portRuns p = true) ∧ ((s.dev.port p).train.state = .limp) ∧ ((s.dev.port p).stopSent ≠ (s.dev.port p).train.fcStop ∨ (s.dev.port p).train.fcAt + 4000 ≤ s.dev.belfryNow (p / 32))) ∧
    (∃ (s : State) (path : Path) (tag : Nat) (raw : List (List Byte)) (q : Request) (ptr : Nat), (Starts s slipForm path tag q ptr) ∧ (slipOp q.params = 0)) ∧
    (∃ (s : State) (path : Path) (tag : Nat) (q : Request) (ptr : Nat), (Starts s slipForm path tag q ptr) ∧ (slipOp q.params = 1) ∧ ((s.dev.started q ptr).slipStatus q.params false = Ocm.ok)) ∧
    (∃ (s : State) (path : Path) (tag : Nat) (seen : List (Nat × Nat)) (q : Request) (ptr : Nat), (Starts s slipForm path tag q ptr) ∧ (slipOp q.params = 2) ∧ ((s.dev.started q ptr).checkStatus q.params = Ocm.ok)) ∧
    (∃ (s : State) (path : Path) (tag : Nat) (q : Request) (ptr : Nat), (Starts s slipForm path tag q ptr) ∧ (slipOp q.params = 3)) :=
  ⟨⟨limpFrom, 5, limpLanes, ((limpFrom.dev.ckSeen 5).decodeLanes 5 [0] limpLanes).1, limpSyms, leBytes 132 16 ++ leBytes 4 2115648794,
      by decide +kernel⟩,
   ⟨onTrain { Train.reset with state := .limp }, 5, 0, sent false (fcSet 5 0), tookSet (onTrain { Train.reset with state := .limp }) 0 (sent false (fcSet 5 0)), fcSet 5 0, leBytes 3 5 ++ List.replicate 9 symFill ++ [0],
      by decide +kernel⟩,
   ⟨onTrain { Train.reset with state := .limp } 4000, 5,
      by decide +kernel⟩,
   ⟨asking (req 0x0311 0 0 (slipBytes 0)), .bellrope, 7, [], req 0x0311 0 0 (slipBytes 0), 0,
      by decide +kernel⟩,
   ⟨asking (req 0x0311 0 0 (slipBytes 1)), .bellrope, 7, req 0x0311 0 0 (slipBytes 1), 0,
      by decide +kernel⟩,
   ⟨asking (req 0x0311 0 0 (slipBytes 2)), .bellrope, 7, [], req 0x0311 0 0 (slipBytes 2), 0,
      by decide +kernel⟩,
   ⟨asking (req 0x0311 0 0 (slipBytes 3)), .bellrope, 7, req 0x0311 0 0 (slipBytes 3), 0,
      by decide +kernel⟩⟩

set_option maxRecDepth 100000 in
theorem wit_LinkCommandsComplete :
    (∃ (s : State) (p : Fin 128) (slot : List (List Byte)) (a : Dev), (s.dev.rxRuns p = true) ∧ (a = if s.dev.gated then s.dev else s.dev.laneErrorWindow p) ∧ ((a.port p).train.state = .up) ∧ ((a.port p).train.rxAsleep = false)) ∧
    (∃ (s : State) (p : Fin 128), (s.dev.portRuns p = true) ∧ ((s.dev.port p).train.state = .up) ∧ ((s.dev.port p).train.txAsleep = false) ∧ ((s.dev.port p).toll.state ≠ .opened)) ∧
    (∃ (s : State) (p : Fin 128) (u : Replay), (s.dev.portRuns p = true) ∧ ((s.dev.port p).train.state = .up) ∧ ((s.dev.port p).train.txAsleep = false) ∧ ((s.dev.port p).toll.state = .opened) ∧ ((s.dev.port p).toll.dataRun < 4095) ∧ ((s.dev.port p).toll.nextDue = some u)) ∧
    (∃ (s : State) (p : Fin 128), (s.dev.portRuns p = true) ∧ ((s.dev.port p).train.state = .up) ∧ ((s.dev.port p).train.txAsleep = false) ∧ ((s.dev.port p).toll.state = .opened) ∧ ((s.dev.port p).toll.dataRun < 4095) ∧ ((s.dev.port p).toll.nextDue = none) ∧ ((s.dev.port p).toll.hasCredit = true) ∧ ((s.dev.port p).toll.handed ≠ [])) ∧
    (∃ (s : State) (p : Fin 128), (s.dev.portRuns p = true) ∧ ((s.dev.port p).train.state = .up) ∧ ((s.dev.port p).train.txAsleep = false) ∧ ((s.dev.port p).toll.state = .opened) ∧ (4095 ≤ (s.dev.port p).toll.dataRun ∨ ((s.dev.port p).toll.nextDue = none ∧ ((s.dev.port p).toll.hasCredit = false ∨ (s.dev.port p).toll.handed = [])))) ∧
    (∃ (s : State) (p : Fin 128) (u : Replay), (s.dev.portRuns p = true) ∧ ((s.dev.port p).timedUnit = some u) ∧ ((s.dev.port p).toll.state = .opened) ∧ (u.sentAt + (s.dev.port p).resendTimeout ≤ s.dev.belfryNow (p / 32))) ∧
    (∃ (s : State) (p : Fin 128), (s.dev.rxRuns p = true) ∧ ((s.dev.port p).train.state = .up)) ∧
    (∃ (s : State) (p : Fin 128) (t : Nat) (e : Dev), (s.dev.portRuns p = true) ∧ (e = s.dev.starve p) ∧ ((e.port p).toll.starvedSince = some t) ∧ (t + (e.port p).creditTimeout ≤ e.belfryNow (p / 32))) ∧
    (∃ (s : State) (p : Fin 128) (t : Nat), (s.dev.portRuns p = true) ∧ ((s.dev.port p).toll.holdStart = some t) ∧ ((s.dev.port p).toll.state = .held) ∧ (t + (s.dev.port p).replayHold ≤ s.dev.belfryNow (p / 32))) :=
  ⟨⟨onTrain { Train.reset with state := .up }, 5, (List.range 8).map (laneBytes 8 goodUnit), (onTrain { Train.reset with state := .up }).dev.laneErrorWindow 5,
    by decide +kernel,
    rfl,
      by decide +kernel⟩,
   ⟨onTrain { Train.reset with state := .up }, 5,
      by decide +kernel⟩,
   ⟨onPort { Port.reset with train := { Train.reset with state := .up }, toll := { Toll.reset with state := .opened, nextSeq := 1, replay := [⟨0, [(3, zeros 128)], 1, 0⟩], due := [0] } }, 5, ⟨0, [(3, zeros 128)], 1, 0⟩,
      by decide +kernel⟩,
   ⟨onPort { Port.reset with train := { Train.reset with state := .up }, toll := { Toll.reset with state := .opened, handed := [(3, zeros 128)] } }, 5,
      by decide +kernel⟩,
   ⟨onPort { Port.reset with train := { Train.reset with state := .up }, toll := { Toll.reset with state := .opened, dataRun := 4095, handed := [(3, zeros 128)] } }, 5,
      by decide +kernel⟩,
   ⟨onPort { Port.reset with toll := { Toll.reset with state := .opened, replay := [⟨0, [], 0, 0⟩] } } 4000000, 5, ⟨0, [], 0, 0⟩,
      by decide +kernel⟩,
   ⟨onTrain { Train.reset with state := .up }, 5,
      by decide +kernel⟩,
   ⟨hungryPort, 5, 0, hungryPort.dev.starve 5,
    by decide +kernel,
    rfl,
      by decide +kernel⟩,
   ⟨onPort { Port.reset with toll := { Toll.reset with state := .held, holdStart := some 0 } } 4000000000, 5, 0,
      by decide +kernel⟩⟩

theorem wit_RoutingCommandsComplete :
    (∃ (s : State) (r : Fin 4) (input : Fin 64) (pkt : Packet) (x : Region) (p : Nat) (h : Hdr), (s.dev.regionRuns r = true) ∧ (input.val < 32 ∨ 56 ≤ input.val) ∧ (pkt.hdr.vc < 20) ∧ ((s.dev.region r).bindHeader input pkt.hdr.vc (flitsOf pkt.hdr.plen) s.dev.nextId = some x) ∧ (pkt.hdr.bad (netPort r input).isSome = false) ∧ (((s.dev.setRegion r x).takeId.hopOf r (netPort r input) pkt.hdr true).2 = some (.port p, h))) ∧
    (∃ (s : State) (r : Fin 4), (s.dev.regionRuns r = true)) ∧
    (∃ (s : State) (r : Fin 4) (p : Fin 128), (s.dev.regionRuns r = true)) ∧
    (∃ (s : State) (r : Fin 4), (s.dev.regionRuns r = true)) ∧
    (∃ (s : State) (r : Fin 4) (reg : ChipReg), (s.dev.regionRuns r = true)) :=
  ⟨⟨onRegion { Region.reset with live := 2 ^ 40 }, 1, 63, directed, { Region.reset with live := 2 ^ 40, arriving := [(63 * 20 + 16, ⟨1, 0, false, some 0⟩)] }, 40, { directed.hdr with hops := 1 },
      by decide +kernel⟩,
   ⟨onRegion Region.reset, 1,
    by decide +kernel⟩,
   ⟨onPort { Port.reset with toll := { Toll.reset with state := .opened } }, 1, 5,
    by decide +kernel⟩,
   ⟨onRegion Region.reset, 1,
    by decide +kernel⟩,
   ⟨onRegion Region.reset, 1, .fcMark,
    by decide +kernel⟩⟩

theorem wit_RouteTableCommandsComplete :
    (∃ (s : State) (path : Path) (tag : Nat) (q : Request) (ptr : Nat), (Starts s routeWriteForm path tag q ptr) ∧ (maskRegions q.params ≠ []) ∧ (routeRanged q.params = true) ∧ ((maskRegions q.params).all (s.dev.started q ptr).routesRun = true)) ∧
    (∃ (s : State) (path : Path) (tag : Nat) (q : Request) (ptr : Nat), (Starts s (Form.fixed 0x0502 8 [(4, 63)] 0) path tag q ptr) ∧ (maskRegions q.params ≠ []) ∧ ((maskRegions q.params).all (s.dev.started q ptr).routesRun = true)) ∧
    (∃ (s : State) (path : Path) (tag : Nat) (q : Request) (ptr : Nat), (Starts s (Form.fixed 0x0503 8 [(4, 63)] 40) path tag q ptr) ∧ ((maskRegions q.params).filter (s.dev.started q ptr).commits ≠ []) ∧ ((s.dev.started q ptr).chip.liveWrite = false)) ∧
    (∃ (s : State) (path : Path) (tag : Nat) (q : Request) (ptr : Nat), (Starts s routeReadForm path tag q ptr) ∧ (routeRanged q.params = true) ∧ ((s.dev.started q ptr).routesRun (bits (byteAt q.params 0) 1 0) = true)) :=
  ⟨⟨asking (req 0x0501 0 0 (leBytes 8 0x100000002 ++ zeros 32)), .bellrope, 7, req 0x0501 0 0 (leBytes 8 0x100000002 ++ zeros 32), 0,
      by decide +kernel⟩,
   ⟨asking (req 0x0502 0 0 (leBytes 8 2)), .bellrope, 7, req 0x0502 0 0 (leBytes 8 2), 0,
      by decide +kernel⟩,
   ⟨asking (req 0x0503 0 0 (leBytes 8 2)), .bellrope, 7, req 0x0503 0 0 (leBytes 8 2), 0,
      by decide +kernel⟩,
   ⟨asking (req 0x0504 0 0 (leBytes 8 0x100000001)), .bellrope, 7, req 0x0504 0 0 (leBytes 8 0x100000001), 0,
      by decide +kernel⟩⟩

theorem wit_FlowControlCommandsComplete :
    (∃ (s : State) (p : Fin 128) (vc : Fin 20) (flit : Flit) (x : Region) (a : Arriving), (s.dev.regionRuns (p / 32) = true) ∧ ((s.dev.region (p / 32)).flitOwner (cellKey (p % 32) vc) flit = a) ∧ (a.discard = false) ∧ ((s.dev.region (p / 32)).storeNet (s.dev.belfryNow (p / 32)) (p % 32) vc = ⟨x, true, none⟩)) ∧
    (∃ (s : State) (r : Fin 4) (input : Fin 64) (vc : Fin 20) (x : Region), (s.dev.regionRuns r = true) ∧ ((s.dev.region r).storeInternal input vc = some x)) ∧
    (∃ (s : State) (r : Fin 4), (s.dev.regionRuns r = true)) ∧
    (∃ (s : State) (r : Fin 4) (output : Fin 64) (i : Nat) (w : Waiting) (ptr vptr : Nat) (offers : List (Nat × (Waiting × Nat))), (s.dev.regionRuns r = true) ∧ (offers = (List.range 64).filterMap (fun i => (s.dev.selectVc r output i).map (fun o => (i, o)))) ∧ (arbitrate 64 (tgetD (s.dev.region r).outPtr output 0) (offers.map (fun o => o.2.1.req o.1)) = some (i, ptr)) ∧ (offers.find? (fun o => o.1 == i) = some (i, (w, vptr)))) ∧
    (∃ (s : State) (p : Fin 128) (vc ptr : Nat) (e : Egress), (s.dev.regionRuns (p / 32) = true) ∧ (arbitrate 20 (s.dev.port p).egressPtr ((s.dev.egressReady p).map (fun e => ⟨e.vc, if e.pkt.hdr.cls = 4 then 1 else 0, e.stamp⟩)) = some (vc, ptr)) ∧ ((s.dev.egressReady p).find? (fun e => e.vc == vc) = some e)) ∧
    (∃ (s : State) (r : Fin 4) (id : Nat) (w : Waiting), (s.dev.regionRuns r = true) ∧ ((s.dev.region r).waiting.find? (fun w => w.id == id) = some w) ∧ (w.pkt.hdr.cls = 4) ∧ (w.stamp + (s.dev.region r).chip.mgmtHold ≤ s.dev.belfryNow r)) :=
  ⟨⟨onRegion Region.reset, 32, 0, [], { Region.reset with cells := [(0, ⟨1, 0, 0⟩)] }, ⟨1, 0, false, none⟩,
    by decide +kernel,
    by decide +kernel,
    by decide +kernel,
    by rfl⟩,
   ⟨onRegion { Region.reset with arriving := [(63 * 20, ⟨1, 0, false, none⟩)] }, 1, 63, 0, { Region.reset with arriving := [(63 * 20, ⟨1, 0, false, none⟩)], cells := [(63 * 20, ⟨1, 0, 0⟩)] },
      by decide +kernel⟩,
   ⟨onRegion Region.reset, 1,
    by decide +kernel⟩,
   ⟨granting, 1, 8, 63, oneWaiting, 0, 0, [(63, (oneWaiting, 0))],
      by decide +kernel⟩,
   ⟨onPort { Port.reset with train := { Train.reset with state := .limp }, toll := { Toll.reset with peerStop := 0 }, egress := [oneEgress] }, 5, 16, 0, oneEgress,
      by decide +kernel⟩,
   ⟨onRegion { Region.reset with waiting := [oneWaiting] } 100000000, 1, 9, oneWaiting,
      by decide +kernel⟩⟩

theorem wit_GateLinkCommandsComplete :
    (∃ (s : State) (g : Fin 8), (s.dev.lantern.powered = true) ∧ (s.dev.gatesRun = true) ∧ (s.dev.bifurcated g = false)) ∧
    (∃ (s : State) (g : Fin 8), (s.dev.lantern.powered = true)) ∧
    (∃ (s : State) (ep : Fin 16) (width rate : Nat) (flit : Bool), (s.dev.gatesRun = true) ∧ (s.dev.epExists ep = true) ∧ ((s.dev.ep ep).state = .down) ∧ ((s.dev.ep ep).training = true) ∧ (s.dev.linkOk ep width rate flit = true)) ∧
    (∃ (s : State) (ep : Fin 16), (s.dev.gatesRun = true) ∧ (s.dev.epExists ep = true) ∧ ((s.dev.ep ep).state ≠ .down) ∧ ((s.dev.ep ep).linkWidth ≠ 0) ∧ ((s.dev.ep ep).d3cold = false)) ∧
    (∃ (s : State) (ep : Fin 16), (s.dev.cfgUp ep = true) ∧ ((s.dev.ep ep).readyAt ≤ s.dev.gateNow ep) ∧ ((s.dev.ep ep).state = .link ∨ (s.dev.ep ep).state = .halted)) ∧
    (∃ (s : State) (ep : Fin 16), (s.dev.cfgUp ep = true) ∧ ((s.dev.ep ep).readyAt ≤ s.dev.gateNow ep) ∧ ((s.dev.ep ep).state = .run)) ∧
    (∃ (s : State) (ep : Fin 16), (s.dev.cfgUp ep = true) ∧ ((s.dev.ep ep).readyAt ≤ s.dev.gateNow ep) ∧ ((s.dev.ep ep).state = .run ∨ (s.dev.ep ep).state = .link ∨ (s.dev.ep ep).state = .halted)) ∧
    (∃ (s : State) (ep : Fin 16), (s.dev.cfgUp ep = true) ∧ ((s.dev.ep ep).readyAt ≤ s.dev.gateNow ep) ∧ ((s.dev.ep ep).state = .d3hot)) ∧
    (∃ (s : State) (ep : Fin 16), (s.dev.gatesRun = true) ∧ (s.dev.epExists ep = true) ∧ ((s.dev.ep ep).state ≠ .down)) :=
  ⟨⟨onEp Endpoint.reset, 2,
      by decide +kernel⟩,
   ⟨onEp Endpoint.reset, 2,
    by decide +kernel⟩,
   ⟨onEp { Endpoint.reset with training := true }, 4, 16, 5, true,
      by decide +kernel⟩,
   ⟨onEp { Endpoint.reset with state := .link, linkWidth := 16 }, 4,
      by decide +kernel⟩,
   ⟨onEp { Endpoint.reset with state := .link, linkWidth := 16 }, 4,
      by decide +kernel⟩,
   ⟨onEp { Endpoint.reset with state := .run, linkWidth := 16 }, 4,
      by decide +kernel⟩,
   ⟨onEp { Endpoint.reset with state := .run, linkWidth := 16 }, 4,
      by decide +kernel⟩,
   ⟨onEp { Endpoint.reset with state := .d3hot, linkWidth := 16 }, 4,
      by decide +kernel⟩,
   ⟨onEp { Endpoint.reset with state := .link }, 4,
      by decide +kernel⟩⟩

theorem wit_GateResetAndStopCommandsComplete :
    (∃ (s : State) (ep : Fin 16), (s.dev.cfgUp ep = true) ∧ ((s.dev.ep ep).readyAt ≤ s.dev.gateNow ep) ∧ ((s.dev.ep ep).linkWidth ≠ 0)) ∧
    (∃ (s : State) (ep : Fin 16), (s.dev.gatesRun = true) ∧ (s.dev.epExists ep = true) ∧ ((s.dev.ep ep).state ≠ .down) ∧ ((s.dev.ep ep).linkWidth ≠ 0)) ∧
    (∃ (s : State) (ep : Fin 16), (s.dev.gatesRun = true) ∧ (s.dev.epExists ep = true) ∧ ((s.dev.ep ep).state ≠ .down) ∧ ((s.dev.ep ep).state ≠ .stopped)) :=
  ⟨⟨onEp { Endpoint.reset with state := .link, linkWidth := 16 }, 4,
      by decide +kernel⟩,
   ⟨onEp { Endpoint.reset with state := .link, linkWidth := 16 }, 4,
      by decide +kernel⟩,
   ⟨onEp { Endpoint.reset with state := .run, linkWidth := 16 }, 4,
      by decide +kernel⟩⟩

theorem wit_GateWindowPowerAndInterruptsComplete :
    (∃ (s : State) (ep : Fin 16) (off : Nat) (data : List Byte), (s.dev.gatesRun = true) ∧ (s.dev.epExists ep = true) ∧ (s.dev.barOpen ep = true) ∧ (s.dev.hbmRuns (ep / 4) = true) ∧ (off + data.length ≤ (s.dev.region (ep / 4)).carve.remainder) ∧ (data ≠ [])) ∧
    (∃ (s : State) (ep : Fin 16), (s.dev.gatesRun = true) ∧ (s.dev.epExists ep = true) ∧ ((s.dev.ep ep).cfg.aspmL1 = true) ∧ ((s.dev.ep ep).state ≠ .down) ∧ ((s.dev.ep ep).linkWidth ≠ 0) ∧ ((s.dev.ep ep).l1 = false) ∧ ((s.dev.ep ep).tags = []) ∧ ((s.dev.ep ep).wantTags = []) ∧ ((s.dev.ep ep).busyAt + (s.dev.ep ep).l1Idle ≤ s.dev.gateNow ep)) ∧
    (∃ (s : State) (ep : Fin 16) (up down : Nat), (s.dev.gatesRun = true) ∧ (s.dev.epExists ep = true) ∧ (rbits (s.dev.ep ep).gateCtrl 3 2 ≠ 0) ∧ ((s.dev.ep ep).cfg.l0p = true) ∧ ((s.dev.ep ep).state ≠ .down) ∧ ((s.dev.ep ep).linkWidth ≠ 0) ∧ ((s.dev.ep ep).l0pAt + 10000 ≤ s.dev.gateNow ep)) ∧
    (∃ (s : State) (ep : Fin 16) (acc : CfgAccess), (s.dev.cfgUp ep = true) ∧ ((s.dev.ep ep).readyAt ≤ s.dev.gateNow ep)) ∧
    (∃ (s : State) (ep : Fin 16) (vector : Fin 2048), (s.dev.gatesRun = true) ∧ (s.dev.epExists ep = true) ∧ (s.dev.barOpen ep = true)) :=
  ⟨⟨onEp { Endpoint.reset with state := .link, cfg := { PciCfg.reset with memEnable := true } }, 4, 64, [1, 2, 3, 4],
      by decide +kernel⟩,
   ⟨onEp { Endpoint.reset with state := .link, linkWidth := 16, cfg := { PciCfg.reset with aspmL1 := true } } 100000000, 4,
      by decide +kernel⟩,
   ⟨onEp { Endpoint.reset with state := .link, linkWidth := 16, gateCtrl := 4, cfg := { PciCfg.reset with l0p := true } } 10000, 4, 80, 0,
      by decide +kernel⟩,
   ⟨onEp { Endpoint.reset with state := .link, linkWidth := 16 }, 4, .read .deviceId,
      by decide +kernel⟩,
   ⟨onEp { Endpoint.reset with state := .link, cfg := { PciCfg.reset with memEnable := true } }, 4, 7,
      by decide +kernel⟩⟩

theorem wit_UpstreamRequestsAndDoorbellsComplete :
    (∃ (s : State) (ep : Fin 16) (c : Completion) (t : Tag) (data : List Byte), (s.dev.gatesRun = true) ∧ ((s.dev.ep ep).tag c.tag = some t) ∧ (t.agrees (s.dev.ep ep) c = true) ∧ (t.late = false) ∧ (t.failed = false) ∧ (s.dev.expired ep t = false) ∧ (c.res = .ok data)) ∧
    (∃ (s : State) (ep : Fin 16) (tag : Nat) (t : Tag), (s.dev.gatesRun = true) ∧ ((s.dev.ep ep).tag tag = some t) ∧ (t.issued + (s.dev.ep ep).cfg.timeout ≤ s.dev.gateNow ep)) ∧
    (∃ (s : State) (ep : Fin 16) (tag n : Nat), (s.dev.gatesRun = true) ∧ ((s.dev.ep ep).quarantine.find? (fun q => q.1 == tag) = some (tag, n)) ∧ (n ≤ s.dev.gateNow ep)) ∧
    (∃ (s : State) (ep : Fin 16) (walk : Nat) (res : HostRes) (w : Walk), (s.dev.gatesRun = true) ∧ (tget (s.dev.ep ep).walks walk = some w)) ∧
    (∃ (s : State) (ep : Fin 16) (k : Nat) (data : List Byte), (s.dev.epUp ep = true) ∧ (s.dev.barOpen ep = true) ∧ (k < 4096) ∧ (data.length = 8) ∧ ((s.dev.sq ep (2 * k)).state = .active) ∧ (idxDist (s.dev.sq ep (2 * k)).ci (bits (leNat data) 15 0) ≤ 2 ^ (s.dev.sq ep (2 * k)).log) ∧ (idxDist (s.dev.sq ep (2 * k)).pi (bits (leNat data) 15 0) ≤ 2 ^ (s.dev.sq ep (2 * k)).log)) ∧
    (∃ (s : State) (ep : Fin 16) (k : Nat) (data : List Byte), (s.dev.epUp ep = true) ∧ (s.dev.barOpen ep = true) ∧ (k < 4096) ∧ (data.length = 64) ∧ ((s.dev.sq ep (2 * k)).state = .active) ∧ ((s.dev.sq ep (2 * k)).pi = (s.dev.sq ep (2 * k)).ci) ∧ ((s.dev.sq ep (2 * k)).held = none) ∧ ((s.dev.sq ep (2 * k)).chain = none) ∧ (entSize data ≤ 1)) ∧
    (∃ (s : State) (ep : Fin 16) (k : Nat) (data : List Byte), (s.dev.epUp ep = true) ∧ (s.dev.barOpen ep = true) ∧ (k < 4096) ∧ (data.length = 8) ∧ (((s.dev.ep ep).cq (2 * k)).enable = true) ∧ (((s.dev.ep ep).cq (2 * k)).badBell (leNat data) = false)) :=
  ⟨⟨onEp { Endpoint.reset with state := .run, tags := [aTag .payload .spec 4] }, 4, ⟨3, 0, 4, 0, .ok [1, 2, 3, 4], 0⟩, aTag .payload .spec 4, [1, 2, 3, 4],
      by decide +kernel⟩,
   ⟨onEp { Endpoint.reset with state := .run, tags := [aTag .payload .spec 4] } 210000000, 4, 3, aTag .payload .spec 4,
      by decide +kernel⟩,
   ⟨onEp { Endpoint.reset with state := .run, quarantine := [(3, 9)] } 10, 4, 3, 9,
      by decide +kernel⟩,
   ⟨onEp { Endpoint.reset with state := .run, walks := [(2, aWalk)], tags := [aTag .walk (.walk 2) 8] }, 4, 2, .ok (zeros 8), aWalk,
      by decide +kernel⟩,
   ⟨onEp { openEp with sqs := [(6, { Sq.reset with state := .active, cfg := 0x19 })] }, 4, 3, leBytes 8 5,
      by decide +kernel⟩,
   ⟨onEp { openEp with sqs := [(6, { Sq.reset with state := .active, cfg := 0x19 })] }, 4, 3, zeros 64,
      by decide +kernel⟩,
   ⟨onEp { openEp with cqs := [(6, { Cq.reset with cfg := 0xD })] }, 4, 3, zeros 8,
      by decide +kernel⟩⟩

theorem wit_QueueContextCommandsComplete :
    (∃ (s : State) (ep : Fin 16) (sq : Fin 8192) (cfg : Reg) (x : Sq), (s.dev.epUp ep = true) ∧ (s.dev.barOpen ep = true) ∧ ((s.dev.sq ep sq).state = .disabled) ∧ (x = { s.dev.sq ep sq with cfg := (cfg ||| 1#64) &&& sqCfgMask }) ∧ (6 ≤ x.log) ∧ (x.log ≤ 15) ∧ (((s.dev.ep ep).cq x.cqn).enable = true)) ∧
    (∃ (s : State) (ep : Fin 16) (sq : Fin 8192) (cfg : Reg), (s.dev.epUp ep = true) ∧ (s.dev.barOpen ep = true) ∧ ((s.dev.sq ep sq).state = .active) ∧ ((cfg &&& ~~~1#64) &&& sqCfgMask = (s.dev.sq ep sq).cfg &&& sqCfgMask)) ∧
    (∃ (s : State) (ep : Fin 16) (sq : Fin 8192), (s.dev.epUp ep = true) ∧ ((s.dev.sq ep sq).state = .draining) ∧ ((s.dev.ep ep).idle sq = true)) ∧
    (∃ (s : State) (ep : Fin 16) (n : Fin 8192) (cfg : Reg), (s.dev.epUp ep = true) ∧ (s.dev.barOpen ep = true) ∧ (((s.dev.ep ep).cq n).enable = false)) ∧
    (∃ (s : State) (ep : Fin 16) (n : Fin 8192) (cfg : Reg), (s.dev.epUp ep = true) ∧ (s.dev.barOpen ep = true) ∧ (((s.dev.ep ep).cq n).enable = true) ∧ ((cfg &&& ~~~1#64) &&& cqCfgMask = ((s.dev.ep ep).cq n).cfg &&& cqCfgMask) ∧ ((s.dev.ep ep).cqUsed n = false) ∧ (((s.dev.ep ep).cq n).reserved = 0)) ∧
    (∃ (s : State) (ep : Fin 16) (sq : Fin 8192), (s.dev.epUp ep = true) ∧ (s.dev.barOpen ep = true) ∧ ((s.dev.sq ep sq).state ≠ .resetting)) ∧
    (∃ (s : State) (ep : Fin 16) (sq : Fin 8192), (s.dev.epUp ep = true) ∧ ((s.dev.sq ep sq).state = .resetting) ∧ (s.dev.epRuns ep = true → ∀ a ∈ (s.dev.sq ep sq).work, s.dev.liveRecv ep sq a.id = false ∧ s.dev.liveLock ep sq a.id = false)) ∧
    (∃ (s : State) (ep : Fin 16) (q ptr : Nat), (s.dev.epUp ep = true) ∧ (s.dev.nextFetch ep = some (q, ptr))) ∧
    (∃ (s : State) (ep : Fin 16) (sq : Fin 8192) (res : HostRes) (t : Tag) (y : Reading), (s.dev.epUp ep = true) ∧ ((s.dev.ep ep).outstanding (.ring sq) = some t) ∧ (s.dev.expired ep t = false) ∧ (res = .ur ∨ res = .ca ∨ res = .poison) ∧ (t.reading = some y.id) ∧ (y.who = .ring sq) ∧ (t.silent = false) ∧ ((((s.dev.freeTag ep t.tag).reportRes ep res).ep ep).readings.find? (fun z => z.id == y.id) = some y)) :=
  ⟨⟨onEp { openEp with cqs := [(0, { Cq.reset with cfg := 0xD })] }, 4, 3, 0x18, { Sq.reset with cfg := 0x18 },
      by decide +kernel⟩,
   ⟨onEp { openEp with sqs := [(3, { Sq.reset with state := .active, cfg := 0x19 })] }, 4, 3, 0x18,
      by decide +kernel⟩,
   ⟨onEp { openEp with sqs := [(3, { Sq.reset with state := .draining })] }, 4, 3,
      by decide +kernel⟩,
   ⟨onEp openEp, 4, 3, 0xC,
      by decide +kernel⟩,
   ⟨onEp { openEp with cqs := [(3, { Cq.reset with cfg := 0xD })] }, 4, 3, 0xC,
      by decide +kernel⟩,
   ⟨onEp { openEp with sqs := [(3, { Sq.reset with state := .stopped })] }, 4, 3,
      by decide +kernel⟩,
   ⟨onEp { openEp with sqs := [(3, { Sq.reset with state := .resetting })] }, 4, 3,
      by decide +kernel⟩,
   ⟨onEp { openEp with state := .run, sqs := [(3, { Sq.reset with state := .active, cfg := 0x19, pi := 1, pushed := some (0, zeros 32) })], cqs := [(0, { Cq.reset with cfg := 0xD })] }, 4, 3, 0,
      by decide +kernel⟩,
   ⟨ringState, 4, 3, .ur, ringTag, ringReading,
      by decide +kernel⟩⟩

theorem wit_QueueEntriesComplete :
    (∃ (s : State) (ep : Fin 16) (sq : Fin 8192) (h : Fetched), (s.dev.epUp ep = true) ∧ ((s.dev.sq ep sq).held = some h) ∧ (s.dev.accepts ep sq 0x00 = true)) ∧
    (∃ (s : State) (ep : Fin 16) (sq : Fin 8192) (h : Fetched), (s.dev.epUp ep = true) ∧ ((s.dev.sq ep sq).held = some h) ∧ (s.dev.accepts ep sq 0x01 = true)) ∧
    (∃ (s : State) (ep : Fin 16) (sq : Fin 8192) (h : Fetched), (s.dev.epUp ep = true) ∧ ((s.dev.sq ep sq).held = some h) ∧ (s.dev.accepts ep sq 0x10 = true)) ∧
    (∃ (s : State) (ep : Fin 16) (sq : Fin 8192) (h : Fetched), (s.dev.epUp ep = true) ∧ ((s.dev.sq ep sq).held = some h) ∧ (s.dev.accepts ep sq 0x11 = true)) ∧
    (∃ (s : State) (ep : Fin 16) (sq : Fin 8192) (h : Fetched), (s.dev.epUp ep = true) ∧ ((s.dev.sq ep sq).held = some h) ∧ (s.dev.accepts ep sq 0x12 = true)) ∧
    (∃ (s : State) (ep : Fin 16) (sq : Fin 8192) (h : Fetched), (s.dev.epUp ep = true) ∧ ((s.dev.sq ep sq).held = some h) ∧ (s.dev.accepts ep sq 0x13 = true) ∧ (field h.bytes 56 8 % 8 = 0)) ∧
    (∃ (s : State) (ep : Fin 16) (sq : Fin 8192) (h : Fetched), (s.dev.epUp ep = true) ∧ ((s.dev.sq ep sq).held = some h) ∧ (s.dev.accepts ep sq 0x20 = true) ∧ (field h.bytes 24 8 % 8 = 0) ∧ (field h.bytes 16 8 % 8 = 0)) ∧
    (∃ (s : State) (ep : Fin 16) (sq : Fin 8192) (h : Fetched), (s.dev.epUp ep = true) ∧ ((s.dev.sq ep sq).held = some h) ∧ (s.dev.accepts ep sq 0x21 = true) ∧ (field h.bytes 24 8 % 16 = 0) ∧ (field h.bytes 16 8 % 16 = 0)) ∧
    (∃ (s : State) (ep : Fin 16) (sq : Fin 8192) (h : Fetched), (s.dev.epUp ep = true) ∧ ((s.dev.sq ep sq).held = some h) ∧ (s.dev.accepts ep sq 0x30 = true)) ∧
    (∃ (s : State) (ep : Fin 16) (sq : Fin 8192) (h : Fetched), (s.dev.epUp ep = true) ∧ ((s.dev.sq ep sq).held = some h) ∧ (s.dev.accepts ep sq 0x31 = true)) ∧
    (∃ (s : State) (ep : Fin 16) (sq : Fin 8192) (h : Fetched), (s.dev.epUp ep = true) ∧ ((s.dev.sq ep sq).held = some h) ∧ (s.dev.accepts ep sq 0x32 = true) ∧ ((s.dev.accept ep sq h).regionRuns (ep / 4) = true)) ∧
    (∃ (s : State) (ep : Fin 16) (sq : Fin 8192) (h : Fetched), (s.dev.epUp ep = true) ∧ ((s.dev.sq ep sq).held = some h) ∧ (s.dev.accepts ep sq 0x40 = true) ∧ ((s.dev.accept ep sq h).regionRuns (ep / 4) = true) ∧ (((s.dev.accept ep sq h).fenced && (s.dev.accept ep sq h).collSends (bits (field h.bytes 32 2) 11 0)) = false)) ∧
    (∃ (s : State) (ep : Fin 16) (sq : Fin 8192) (h : Fetched), (s.dev.epUp ep = true) ∧ ((s.dev.sq ep sq).held = some h) ∧ (s.dev.accepts ep sq 0x50 = true) ∧ ((s.dev.accept ep sq h).regionRuns (field h.bytes 24 2 / 16384) = true) ∧ ((s.dev.accept ep sq h).fenced = false)) ∧
    (∃ (s : State) (ep : Fin 16) (sq : Fin 8192) (h : Fetched), (s.dev.epUp ep = true) ∧ ((s.dev.sq ep sq).held = some h) ∧ (s.dev.accepts ep sq 0x51 = true) ∧ ((s.dev.accept ep sq h).regionRuns (field h.bytes 24 2 / 16384) = true) ∧ ((s.dev.accept ep sq h).fenced = false)) ∧
    (∃ (s : State) (ep : Fin 16) (sq : Fin 8192) (h : Fetched), (s.dev.epUp ep = true) ∧ ((s.dev.sq ep sq).held = some h) ∧ (s.dev.accepts ep sq 0x70 = true)) :=
  ⟨⟨holding (0x00 :: zeros 31), 4, 3, ⟨0x00 :: zeros 31, false⟩,
      by decide +kernel⟩,
   ⟨holding (0x01 :: zeros 31), 4, 3, ⟨0x01 :: zeros 31, false⟩,
      by decide +kernel⟩,
   ⟨holding (0x10 :: zeros 63), 4, 3, ⟨0x10 :: zeros 63, false⟩,
      by decide +kernel⟩,
   ⟨holding (0x11 :: zeros 63), 4, 3, ⟨0x11 :: zeros 63, false⟩,
      by decide +kernel⟩,
   ⟨holding (0x12 :: zeros 63), 4, 3, ⟨0x12 :: zeros 63, false⟩,
      by decide +kernel⟩,
   ⟨holding (0x13 :: zeros 63), 4, 3, ⟨0x13 :: zeros 63, false⟩,
      by decide +kernel⟩,
   ⟨holding (0x20 :: zeros 63), 4, 3, ⟨0x20 :: zeros 63, false⟩,
      by decide +kernel⟩,
   ⟨holding (0x21 :: zeros 95), 4, 3, ⟨0x21 :: zeros 95, false⟩,
      by decide +kernel⟩,
   ⟨holding (0x30 :: zeros 63), 4, 3, ⟨0x30 :: zeros 63, false⟩,
      by decide +kernel⟩,
   ⟨holding (0x31 :: zeros 63), 4, 3, ⟨0x31 :: zeros 63, false⟩,
      by decide +kernel⟩,
   ⟨holding (0x32 :: zeros 63), 4, 3, ⟨0x32 :: zeros 63, false⟩,
      by decide +kernel⟩,
   ⟨holding (0x40 :: zeros 63), 4, 3, ⟨0x40 :: zeros 63, false⟩,
      by decide +kernel⟩,
   ⟨holding (0x50 :: zeros 63), 4, 3, ⟨0x50 :: zeros 63, false⟩,
      by decide +kernel⟩,
   ⟨holding (0x51 :: zeros 63), 4, 3, ⟨0x51 :: zeros 63, false⟩,
      by decide +kernel⟩,
   ⟨holding cmdBytes, 4, 3, ⟨cmdBytes, false⟩,
      by decide +kernel⟩⟩

theorem wit_TranslationCommandsComplete :
    (∃ (s : State) (ep : Fin 16) (op : Reg) (c : Cover), (s.dev.barUp ep = true) ∧ ((s.dev.ep ep).inval = none) ∧ (c = ⟨1, rbits (withOp op 1) 23 4, 4096 * bits (s.dev.ep ep).opAddr.toNat 63 12, rbits (withOp op 1) 63 34, rbits (withOp op 1) 33 24⟩) ∧ (c.pages ≠ 0) ∧ (rbits (withOp op 1) 2 0 = 1)) ∧
    (∃ (s : State) (ep : Fin 16) (op : Reg) (c : Cover), (s.dev.barUp ep = true) ∧ ((s.dev.ep ep).inval = none) ∧ (c = ⟨2, rbits (withOp op 2) 23 4, 4096 * bits (s.dev.ep ep).opAddr.toNat 63 12, rbits (withOp op 2) 63 34, rbits (withOp op 2) 33 24⟩) ∧ (rbits (withOp op 2) 2 0 = 2)) ∧
    (∃ (s : State) (ep : Fin 16) (op : Reg) (c : Cover), (s.dev.barUp ep = true) ∧ ((s.dev.ep ep).inval = none) ∧ (c = ⟨3, rbits (withOp op 3) 23 4, 4096 * bits (s.dev.ep ep).opAddr.toNat 63 12, rbits (withOp op 3) 63 34, rbits (withOp op 3) 33 24⟩) ∧ (rbits (withOp op 3) 2 0 = 3)) ∧
    (∃ (s : State) (ep : Fin 16) (op : Reg) (c : Cover), (s.dev.barUp ep = true) ∧ ((s.dev.ep ep).inval = none) ∧ (c = ⟨4, rbits (withOp op 4) 23 4, 4096 * bits (s.dev.ep ep).opAddr.toNat 63 12, rbits (withOp op 4) 63 34, rbits (withOp op 4) 33 24⟩) ∧ (rbits (withOp op 4) 2 0 = 4)) ∧
    (∃ (s : State) (ep : Fin 16) (i : Inval), (s.dev.epUp ep = true) ∧ ((s.dev.ep ep).inval = some i) ∧ (s.dev.released ep i.waits = true)) :=
  ⟨⟨onEp openEp, 4, BitVec.ofNat 64 (2 ^ 34), ⟨1, 0, 0, 1, 0⟩,
      by decide +kernel⟩,
   ⟨onEp openEp, 4, 0x70, ⟨2, 7, 0, 0, 0⟩,
      by decide +kernel⟩,
   ⟨onEp openEp, 4, 0x5000000, ⟨3, 0, 0, 0, 5⟩,
      by decide +kernel⟩,
   ⟨onEp openEp, 4, 0, ⟨4, 0, 0, 0, 0⟩,
      by decide +kernel⟩,
   ⟨onEp { openEp with inval := some ⟨4, 0, 0, 0, 0, [9]⟩ }, 4, ⟨4, 0, 0, 0, 0, [9]⟩,
      by decide +kernel⟩⟩

theorem wit_KeyAndApertureCommandsComplete :
    (∃ (s : State) (ep : Fin 16) (k s0 base limit : Nat), (s.dev.epUp ep = true) ∧ (s.dev.belfryRuns (ep / 4) = true) ∧ ((s.dev.ep ep).keyOp = some (1, k, s0, base, limit)) ∧ (((s.dev.ep ep).key k).state = .free) ∧ (base < limit)) ∧
    (∃ (s : State) (ep : Fin 16) (k s0 base limit : Nat), (s.dev.epUp ep = true) ∧ (s.dev.belfryRuns (ep / 4) = true) ∧ ((s.dev.ep ep).keyOp = some (2, k, s0, base, limit)) ∧ (((s.dev.ep ep).key k).state = .valid)) ∧
    (∃ (s : State) (ep : Fin 16) (slot : Fin 1024), (s.dev.epUp ep = true) ∧ (s.dev.belfryRuns (ep / 4) = true) ∧ (((s.dev.ep ep).key slot).state = .revoking) ∧ (((s.dev.ep ep).key slot).inflight = 0) ∧ (s.dev.released ep ((s.dev.ep ep).key slot).waits = true)) ∧
    (∃ (s : State) (ep : Fin 16) (off : Nat) (acc : Access) (a : Nat), (s.dev.epUp ep = true) ∧ (s.dev.barOpen ep = true) ∧ (s.dev.apertureAt ep off (accessLen acc) = some a) ∧ (s.dev.hbmRuns (ep / 4) = true)) :=
  ⟨⟨onEp { openEp with keyOp := some (1, 5, 0, 0, 4096) }, 4, 5, 0, 0, 4096,
      by decide +kernel⟩,
   ⟨onEp { openEp with keyOp := some (2, 5, 0, 0, 0), keys := [(5, { Key.reset with state := .valid })] }, 4, 5, 0, 0, 0,
      by decide +kernel⟩,
   ⟨onEp { openEp with keys := [(5, { Key.reset with state := .revoking })] }, 4, 5,
      by decide +kernel⟩,
   ⟨tableState, 4, 8, .write (leBytes 8 77), tableState.dev.quarterBase 4 + 8,
      by decide +kernel⟩⟩

theorem wit_RemoteAccessAtTheTargetCompletes :
    (∃ (s : State) (r : Fin 4) (pkt : Packet) (b a : Dev) (e k : Nat) (tr : Tracked), (s.dev.regionRuns r = true) ∧ (b = s.dev.takeIntake r pkt) ∧ (opOk pkt 0x00 = true) ∧ (b.targetUp r pkt.hdr = true) ∧ (e = b.targetEp r pkt.hdr) ∧ (b.keyCheck e pkt = none) ∧ (k = keyIndex pkt.hdr.reachKey) ∧ ((b.modKey e k (fun x => { x with inflight := x.inflight + 1 })).track r e pkt = (a, tr))) ∧
    (∃ (s : State) (r : Fin 4) (pkt : Packet) (b : Dev) (e k : Nat), (s.dev.regionRuns r = true) ∧ (b = s.dev.takeIntake r pkt) ∧ (opOk pkt 0x01 = true) ∧ (b.targetUp r pkt.hdr = true) ∧ (e = b.targetEp r pkt.hdr) ∧ (b.keyCheck e pkt = none) ∧ (k = keyIndex pkt.hdr.reachKey)) ∧
    (∃ (s : State) (r : Fin 4) (pkt : Packet) (b : Dev) (e k : Nat), (s.dev.regionRuns r = true) ∧ (b = s.dev.takeIntake r pkt) ∧ (opOk pkt 0x02 = true) ∧ (b.targetUp r pkt.hdr = true) ∧ (e = b.targetEp r pkt.hdr) ∧ (b.keyCheck e pkt = none) ∧ (k = keyIndex pkt.hdr.reachKey)) ∧
    (∃ (s : State) (r : Fin 4) (pkt : Packet) (b : Dev) (e k : Nat), (s.dev.regionRuns r = true) ∧ (b = s.dev.takeIntake r pkt) ∧ (opOk pkt 0x03 = true) ∧ (b.targetUp r pkt.hdr = true) ∧ (e = b.targetEp r pkt.hdr) ∧ (b.keyCheck e pkt = none) ∧ (k = keyIndex pkt.hdr.reachKey)) ∧
    (∃ (s : State) (r : Fin 4) (work : Nat) (w : Work), (s.dev.regionRuns r = true) ∧ (s.dev.work r work = some w) ∧ (w.stage = .writing) ∧ (s.dev.epRuns w.ep = true) ∧ (w.tracker = none)) ∧
    (∃ (s : State) (r : Fin 4) (work : Nat) (data : List Byte) (w : Work) (t : Tag), (s.dev.regionRuns r = true) ∧ (s.dev.work r work = some w) ∧ (w.stage = .reading) ∧ ((s.dev.ep w.ep).outstanding (.work work) = some t) ∧ (s.dev.expired w.ep t = false)) ∧
    (∃ (s : State) (r : Fin 4) (work : Nat) (data : List Byte) (w : Work) (t : Tag), (s.dev.regionRuns r = true) ∧ (s.dev.work r work = some w) ∧ (w.stage ≠ .reading) ∧ ((s.dev.ep w.ep).outstanding (.work work) = some t) ∧ (s.dev.expired w.ep t = false)) ∧
    (∃ (s : State) (r : Fin 4) (tracker u : Nat) (t : Tracker), (s.dev.regionRuns r = true) ∧ (tget (s.dev.region r).trackers tracker = some t) ∧ (t.unacked = some u) ∧ (u + (s.dev.region r).chip.ackDelay ≤ s.dev.belfryNow r)) ∧
    (∃ (s : State) (r : Fin 4) (conn : Nat) (c : Conn), (s.dev.regionRuns r = true) ∧ (s.dev.conn r conn = some c) ∧ (c.map ≠ 0) ∧ (c.mapOpened + (s.dev.region r).chip.ackDelay ≤ s.dev.belfryNow r)) ∧
    (∃ (s : State) (r : Fin 4) (tracker : Nat) (t : Tracker), (s.dev.regionRuns r = true) ∧ (tget (s.dev.region r).trackers tracker = some t) ∧ (t.newest + (s.dev.region r).chip.trackerIdle ≤ s.dev.belfryNow r)) :=
  ⟨⟨keyed 0, 1, toKey 0, (keyed 0).dev.takeIntake 1 (toKey 0), ((keyed 0).dev.takeIntake 1 (toKey 0)).modKey 4 5 (fun x => { x with inflight := x.inflight + 1 }), 4, 5, .whole,
    by decide +kernel,
    rfl,
      by decide +kernel⟩,
   ⟨keyed 1, 1, toKey 1, (keyed 1).dev.takeIntake 1 (toKey 1), 4, 5,
    by decide +kernel,
    rfl,
      by decide +kernel⟩,
   ⟨keyed 2, 1, toKey 2, (keyed 2).dev.takeIntake 1 (toKey 2), 4, 5,
    by decide +kernel,
    rfl,
      by decide +kernel⟩,
   ⟨keyed 3, 1, toKey 3, (keyed 3).dev.takeIntake 1 (toKey 3), 4, 5,
    by decide +kernel,
    rfl,
      by decide +kernel⟩,
   ⟨working .writing, 1, 9, oneWork .writing,
      by decide +kernel⟩,
   ⟨working .reading, 1, 9, [1], oneWork .reading, aTag .payload (.work 9) 8,
      by decide +kernel⟩,
   ⟨working (.loopRead 0), 1, 9, zeros 8, oneWork (.loopRead 0), aTag .payload (.work 9) 8,
      by decide +kernel⟩,
   ⟨onRegion { Region.reset with trackers := [(9, oneTracker)] } 1000000000, 1, 9, 0, oneTracker,
      by decide +kernel⟩,
   ⟨onRegion { Region.reset with conns := [(2, { oneConn with map := 1 })] } 1000000000, 1, 2, { oneConn with map := 1 },
      by decide +kernel⟩,
   ⟨onRegion { Region.reset with trackers := [(9, oneTracker)] } 1000000000000, 1, 9, oneTracker,
      by decide +kernel⟩⟩

theorem wit_RemoteAccessAtTheInitiatorCompletes :
    (∃ (s : State) (g : Fin 8) (id q ptr : Nat) (a : Dev) (o m : Op) (n : Nat) (cands : List (Nat × Op)), (s.dev.gatesRun = true) ∧ (s.dev.regionRuns (g / 2) = true) ∧ (a = s.dev.startOps (g / 2)) ∧ (cands = (a.region (g / 2)).ops.filter (fun o => o.2.ep / 2 == g.val && a.maySend (g / 2) o.1 o.2)) ∧ (minBy (fun o : Nat × Op => o.2.stamp) cands = some (n, m)) ∧ (arbitrate 8192 (a.gate g).injectPtr ((((cands.filter (fun o => o.2.stamp == m.stamp)).map (fun o => o.2.sq)).eraseDups).map (fun q => ⟨q, 0, 0⟩)) = some (q, ptr)) ∧ ((cands.filter (fun o => o.2.stamp == m.stamp)).find? (fun o => o.2.sq == q) = some (id, o))) ∧
    (∃ (s : State) (r : Fin 4) (pkt : Packet) (k id : Nat) (c : Conn) (o : Op) (b a : Dev), (s.dev.regionRuns r = true) ∧ (b = s.dev.takeIntake r pkt) ∧ (opOk pkt 0x08 = true) ∧ ((b.region r).findConn pkt.hdr.dstFen pkt.hdr.srcFen 0 = some (k, c)) ∧ (a = b.modConn r k (fun c => { c with syncing := false, used := b.belfryNow r })) ∧ (a.targetUp r pkt.hdr = true) ∧ ((a.region r).findOp pkt.hdr pkt.hdr.msgSeq = some (id, o)) ∧ (o.attempt % 4 = pkt.hdr.attempt) ∧ (o.takesAck = true) ∧ (a.opParked o = false) ∧ (a.op r id = some o) ∧ (o.expired (a.belfryNow r) = false)) ∧
    (∃ (s : State) (r : Fin 4) (pkt : Packet) (k id : Nat) (c : Conn) (o : Op) (b a : Dev), (s.dev.regionRuns r = true) ∧ (b = s.dev.takeIntake r pkt) ∧ (opOk pkt 0x09 = true) ∧ ((b.region r).findConn pkt.hdr.dstFen pkt.hdr.srcFen 0 = some (k, c)) ∧ (a = b.modConn r k (fun c => { c with syncing := false, used := b.belfryNow r })) ∧ (a.targetUp r pkt.hdr = true) ∧ (setBits pkt.hdr.rMap 64 = [0]) ∧ ((a.region r).findOp pkt.hdr (pkt.hdr.msgSeq % 2 ^ 24) = some (id, o)) ∧ (o.takesAck = true) ∧ (o.kind ≠ .signal) ∧ (a.opParked o = false) ∧ (o.msgSeq = pkt.hdr.msgSeq % 2 ^ 24) ∧ (a.op r id = some o) ∧ (o.expired (a.belfryNow r) = false)) ∧
    (∃ (s : State) (r : Fin 4) (pkt : Packet) (k id : Nat) (c : Conn) (o : Op) (b a : Dev), (s.dev.regionRuns r = true) ∧ (b = s.dev.takeIntake r pkt) ∧ (opOk pkt 0x0A = true) ∧ ((b.region r).findConn pkt.hdr.dstFen pkt.hdr.srcFen 0 = some (k, c)) ∧ (a = b.modConn r k (fun c => { c with syncing := false, used := b.belfryNow r })) ∧ (a.targetUp r pkt.hdr = true) ∧ ((a.region r).findOp pkt.hdr pkt.hdr.msgSeq = some (id, o)) ∧ (o.attempt % 4 = pkt.hdr.attempt) ∧ (o.kind = .get) ∧ (a.opParked o = false) ∧ (pkt.payload ≠ []) ∧ ((o.landingOf pkt.hdr.msgOff pkt.payload.length).any (fun x => x.2.isNone) = false) ∧ (a.op r id = some o) ∧ (o.expired (a.belfryNow r) = false)) ∧
    (∃ (s : State) (r : Fin 4) (pkt : Packet) (k id : Nat) (c : Conn) (o : Op) (b a : Dev), (s.dev.regionRuns r = true) ∧ (b = s.dev.takeIntake r pkt) ∧ (opOk pkt 0x0B = true) ∧ ((b.region r).findConn pkt.hdr.dstFen pkt.hdr.srcFen 0 = some (k, c)) ∧ (a = b.modConn r k (fun c => { c with syncing := false, used := b.belfryNow r })) ∧ (a.targetUp r pkt.hdr = true) ∧ ((a.region r).findOp pkt.hdr pkt.hdr.msgSeq = some (id, o)) ∧ (o.attempt % 4 = pkt.hdr.attempt) ∧ (o.kind = .atomic) ∧ (a.opParked o = false) ∧ (a.op r id = some o) ∧ (o.expired (a.belfryNow r) = false)) ∧
    (∃ (s : State) (r : Fin 4) (pkt : Packet) (k id : Nat) (c : Conn) (o : Op) (b a : Dev), (s.dev.regionRuns r = true) ∧ (b = s.dev.takeIntake r pkt) ∧ (opOk pkt 0x0C = true) ∧ ((b.region r).findConn pkt.hdr.dstFen pkt.hdr.srcFen 0 = some (k, c)) ∧ (a = b.modConn r k (fun c => { c with syncing := false, used := b.belfryNow r })) ∧ (a.targetUp r pkt.hdr = true) ∧ ((a.region r).findOp pkt.hdr pkt.hdr.msgSeq = some (id, o)) ∧ (o.attempt % 4 = pkt.hdr.attempt) ∧ (o.lent = none) ∧ (a.opParked o = false) ∧ (a.op r id = some o) ∧ (o.expired (a.belfryNow r) = false)) ∧
    (∃ (s : State) (r : Fin 4) (op off : Nat) (o : Op) (x : Nat × Nat) (rest : List (Nat × Nat)), (s.dev.regionRuns r = true) ∧ (s.dev.op r op = some o) ∧ (takeFirst (fun x : Nat × Nat => x.1 == off && decide (x.2 ≤ s.dev.belfryNow r)) o.resend = some (x, rest)) ∧ (s.dev.opParked o = false) ∧ (o.localFault = none)) ∧
    (∃ (s : State) (r : Fin 4) (op : Nat) (o : Op), (s.dev.regionRuns r = true) ∧ (s.dev.op r op = some o) ∧ (o.expired (s.dev.belfryNow r) = true) ∧ (o.lent = none) ∧ (o.kind ≠ .atomic) ∧ (o.kind ≠ .signal) ∧ (s.dev.opParked o = false)) ∧
    (∃ (s : State) (r : Fin 4) (op : Nat) (o : Op), (s.dev.regionRuns r = true) ∧ (s.dev.op r op = some o) ∧ (o.expired (s.dev.belfryNow r) = true) ∧ (o.kind = .atomic ∨ o.kind = .signal) ∧ (s.dev.opParked o = false)) :=
  ⟨⟨sending, 2, 7, 3, 0, sending.dev.startOps 1, oneOp, oneOp, 7, [(7, oneOp)],
    by decide +kernel,
    by decide +kernel,
    rfl,
      by decide +kernel⟩,
   ⟨answering { sentOp with kind := .signal }, 1, fromPeer 0x08, 2, 7, oneConn, { sentOp with kind := .signal }, afterIntake (answering { sentOp with kind := .signal }) (fromPeer 0x08), afterConn (answering { sentOp with kind := .signal }) (fromPeer 0x08),
    by decide +kernel,
    rfl,
    by decide +kernel,
    by decide +kernel,
    rfl,
      by decide +kernel⟩,
   ⟨answering sentOp, 1, mapFromPeer, 2, 7, oneConn, sentOp, afterIntake (answering sentOp) mapFromPeer, afterConn (answering sentOp) mapFromPeer,
    by decide +kernel,
    rfl,
    by decide +kernel,
    by decide +kernel,
    rfl,
      by decide +kernel⟩,
   ⟨answering landingOp, 1, { fromPeer 0x0A with payload := [1, 2, 3, 4] }, 2, 7, oneConn, landingOp, afterIntake (answering landingOp) ({ fromPeer 0x0A with payload := [1, 2, 3, 4] }), afterConn (answering landingOp) ({ fromPeer 0x0A with payload := [1, 2, 3, 4] }),
    by decide +kernel,
    rfl,
    by decide +kernel,
    by decide +kernel,
    rfl,
      by decide +kernel⟩,
   ⟨answering { sentOp with kind := .atomic }, 1, fromPeer 0x0B, 2, 7, oneConn, { sentOp with kind := .atomic }, afterIntake (answering { sentOp with kind := .atomic }) (fromPeer 0x0B), afterConn (answering { sentOp with kind := .atomic }) (fromPeer 0x0B),
    by decide +kernel,
    rfl,
    by decide +kernel,
    by decide +kernel,
    rfl,
      by decide +kernel⟩,
   ⟨answering { sentOp with kind := .atomic }, 1, fromPeer 0x0C, 2, 7, oneConn, { sentOp with kind := .atomic }, afterIntake (answering { sentOp with kind := .atomic }) (fromPeer 0x0C), afterConn (answering { sentOp with kind := .atomic }) (fromPeer 0x0C),
    by decide +kernel,
    rfl,
    by decide +kernel,
    by decide +kernel,
    rfl,
      by decide +kernel⟩,
   ⟨answering { sentOp with resend := [(64, 0)] }, 1, 7, 64, { sentOp with resend := [(64, 0)] }, (64, 0), [],
      by decide +kernel⟩,
   ⟨answering { sentOp with timer := some 0 } 10000000000, 1, 7, { sentOp with timer := some 0 },
      by decide +kernel⟩,
   ⟨answering { sentOp with kind := .signal, timer := some 0 } 10000000000, 1, 7, { sentOp with kind := .signal, timer := some 0 },
      by decide +kernel⟩⟩

theorem wit_MessagesArriveAndComplete :
    (∃ (s : State) (r : Fin 4) (pkt : Packet) (b a f : Dev) (e cid : Nat), (s.dev.regionRuns r = true) ∧ (b = s.dev.takeIntake r pkt) ∧ (opOk pkt 0x10 = true) ∧ (b.targetUp r pkt.hdr = true) ∧ (e = b.targetEp r pkt.hdr) ∧ ((b.messageTimers r e pkt.hdr).takeConn e pkt.hdr.dstFen pkt.hdr.srcFen 0 = (a, some cid)) ∧ (f = (a.rebase r cid e pkt.hdr).touchRx r cid (sendSeqOf pkt.hdr))) ∧
    (∃ (s : State) (r : Fin 4) (pkt : Packet) (b a f : Dev) (e cid : Nat), (s.dev.regionRuns r = true) ∧ (b = s.dev.takeIntake r pkt) ∧ (opOk pkt 0x11 = true) ∧ (b.targetUp r pkt.hdr = true) ∧ (e = b.targetEp r pkt.hdr) ∧ ((b.messageTimers r e pkt.hdr).takeConn e pkt.hdr.dstFen pkt.hdr.srcFen 0 = (a, some cid)) ∧ (f = (a.rebase r cid e pkt.hdr).touchRx r cid (sendSeqOf pkt.hdr))) ∧
    (∃ (s : State) (r : Fin 4) (conn l : Nat) (c : Conn), (s.dev.regionRuns r = true) ∧ (s.dev.conn r conn = some c) ∧ (c.rxHeld ≠ 0) ∧ ((s.dev.region r).chip.msgHold ≤ age24 (s.dev.belfryNow r) c.rxGap) ∧ (s.dev.lowestHeld c = some l)) ∧
    (∃ (s : State) (r : Fin 4) (entry : Nat), (s.dev.regionRuns r = true)) ∧
    (∃ (s : State) (r : Fin 4) (entry e : Nat) (m : Match), (s.dev.regionRuns r = true) ∧ (e ∈ epsOf r) ∧ (∀ f ∈ epsOf r, f < e → tget (s.dev.ep f).store entry = none) ∧ (tget (s.dev.ep e).store entry = some m) ∧ (m.kind = .matched) ∧ (m.rndv = false) ∧ (m.blocks ≠ []) ∧ (m.copying = false) ∧ (m.msgLen ≤ m.done) ∧ (m.toStore = []) ∧ (s.dev.recvParked e m = false) ∧ (s.dev.stepRuns r entry = true)) ∧
    (∃ (s : State) (r : Fin 4) (entry : Nat), (s.dev.regionRuns r = true)) ∧
    (∃ (s : State) (r : Fin 4) (entry e : Nat) (m : Match), (s.dev.regionRuns r = true) ∧ (e ∈ epsOf r) ∧ (∀ f ∈ epsOf r, f < e → tget (s.dev.ep f).store entry = none) ∧ (tget (s.dev.ep e).store entry = some m) ∧ (m.kind ≠ .posted) ∧ (m.done < m.msgLen) ∧ (m.rndv = true → m.pulling = true) ∧ (m.newest + (s.dev.region r).chip.msgHold ≤ s.dev.belfryNow r) ∧ (m.kind = .matched → s.dev.recvParked e m = false)) ∧
    (∃ (s : State) (r : Fin 4), (s.dev.regionRuns r = true)) ∧
    (∃ (s : State) (r : Fin 4) (conn : Nat) (c : Conn), (s.dev.regionRuns r = true) ∧ (s.dev.conn r conn = some c) ∧ (s.dev.evictable r c = true)) :=
  ⟨⟨keyed 0, 1, toKey 0x10, arriving 0x10, (arrive 0x10).1, arrived 0x10, 4, 0,
    by decide +kernel,
    rfl,
    by decide +kernel,
    by decide +kernel,
    by decide +kernel,
    by decide +kernel,
    rfl⟩,
   ⟨keyed 0, 1, toKey 0x11, arriving 0x11, (arrive 0x11).1, arrived 0x11, 4, 0,
    by decide +kernel,
    rfl,
    by decide +kernel,
    by decide +kernel,
    by decide +kernel,
    by decide +kernel,
    rfl⟩,
   ⟨heldState, 1, 2, 3, { oneConn with rxHeld := 1 },
      by decide +kernel⟩,
   ⟨onRegion Region.reset, 1, 9,
    by decide +kernel⟩,
   ⟨copying, 1, 9, 4, copyEntry,
      by decide +kernel⟩,
   ⟨onRegion Region.reset, 1, 9,
    by decide +kernel⟩,
   ⟨onEp { runEp with store := [(9, { oneMatch with kind := .unexpected })] } 10000000000, 1, 9, 4, { oneMatch with kind := .unexpected },
      by decide +kernel⟩,
   ⟨onRegion Region.reset, 1,
    by decide +kernel⟩,
   ⟨onRegion { Region.reset with conns := [(2, { oneConn with outstanding := 0 })] } 1000000000000, 1, 2, { oneConn with outstanding := 0 },
      by decide +kernel⟩⟩

theorem wit_RendezvousCommandsComplete :
    (∃ (s : State) (r : Fin 4) (pkt : Packet) (k id : Nat) (c : Conn) (o : Op) (b a : Dev), (s.dev.regionRuns r = true) ∧ (b = s.dev.takeIntake r pkt) ∧ (opOk pkt 0x18 = true) ∧ ((b.region r).findConn pkt.hdr.dstFen pkt.hdr.srcFen 0 = some (k, c)) ∧ (a = b.modConn r k (fun c => { c with syncing := false, used := b.belfryNow r })) ∧ (a.targetUp r pkt.hdr = true) ∧ ((a.region r).findOp pkt.hdr pkt.hdr.msgSeq = some (id, o)) ∧ (o.attempt % 4 = pkt.hdr.attempt) ∧ (o.kind = .rts) ∧ (o.lent = none) ∧ (a.opParked o = false) ∧ (a.op r id = some o) ∧ (o.expired (a.belfryNow r) = false)) ∧
    (∃ (s : State) (r : Fin 4) (pkt : Packet) (b a : Dev) (id : Nat) (o : Op), (s.dev.regionRuns r = true) ∧ (b = s.dev.takeIntake r pkt) ∧ (opOk pkt 0x12 = true) ∧ (b.targetUp r pkt.hdr = true) ∧ (b.lentSend r pkt.hdr = (a, some (id, o)))) ∧
    (∃ (s : State) (r : Fin 4) (pkt : Packet) (b : Dev) (id : Nat) (o : Op), (s.dev.regionRuns r = true) ∧ (b = s.dev.takeIntake r pkt) ∧ ((b.region r).findOp pkt.hdr pkt.hdr.msgSeq = some (id, o)) ∧ (o.kind = .pull)) ∧
    (∃ (s : State) (r : Fin 4) (pkt : Packet) (b a f : Dev) (id : Nat) (o : Op), (s.dev.regionRuns r = true) ∧ (b = s.dev.takeIntake r pkt) ∧ (opOk pkt 0x13 = true) ∧ (b.targetUp r pkt.hdr = true) ∧ (a = b.sendAck (b.targetEp r pkt.hdr) pkt.hdr 0 pkt.hdr.cmark (b.belfryNow r)) ∧ (a.lentSend r pkt.hdr = (f, some (id, o))) ∧ (f.opParked o = false)) ∧
    (∃ (s : State) (r : Fin 4) (e id : Nat) (rest : List (Nat × Nat)) (m : Match), (s.dev.regionRuns r = true) ∧ ((s.dev.region r).activePulls < (s.dev.region r).chip.rndvMaxActive) ∧ ((s.dev.region r).pullQueue = (e, id) :: rest) ∧ (s.dev.stepRuns r id = true) ∧ (tget (((s.dev.modRegion r (fun x => { x with pullQueue := rest })).stepEnd r id).ep e).store id = some m)) ∧
    (∃ (s : State) (r : Fin 4) (op t : Nat) (l : Nat) (o : Op), (s.dev.regionRuns r = true) ∧ (s.dev.op r op = some o) ∧ (o.lent = some l) ∧ (o.lastGet = some t) ∧ (t + (s.dev.region r).chip.msgHold ≤ s.dev.belfryNow r) ∧ (s.dev.opParked o = false)) ∧
    (∃ (s : State) (r : Fin 4) (op t : Nat) (o : Op), (s.dev.regionRuns r = true) ∧ (s.dev.op r op = some o) ∧ (o.lent = some t) ∧ (o.lastGet = none) ∧ ((s.dev.region r).chip.lendTimeout ≠ 0) ∧ (t + (s.dev.region r).chip.lendTimeout ≤ s.dev.belfryNow r) ∧ (s.dev.opParked o = false)) :=
  ⟨⟨answering { sentOp with kind := .rts }, 1, fromPeer 0x18, 2, 7, oneConn, { sentOp with kind := .rts }, afterIntake (answering { sentOp with kind := .rts }) (fromPeer 0x18), afterConn (answering { sentOp with kind := .rts }) (fromPeer 0x18),
    by decide +kernel,
    rfl,
    by decide +kernel,
    by decide +kernel,
    rfl,
      by decide +kernel⟩,
   ⟨lending, 1, lentPkt 0x12, afterIntake lending (lentPkt 0x12), afterIntake lending (lentPkt 0x12), 7, lentOp,
    by decide +kernel,
    rfl,
      by decide +kernel⟩,
   ⟨answering { sentOp with kind := .pull }, 1, fromPeer 0x19, afterIntake (answering { sentOp with kind := .pull }) (fromPeer 0x19), 7, { sentOp with kind := .pull },
    by decide +kernel,
    rfl,
      by decide +kernel⟩,
   ⟨lending, 1, lentPkt 0x13, afterIntake lending (lentPkt 0x13), (afterIntake lending (lentPkt 0x13)).sendAck 4 (lentPkt 0x13).hdr 0 false 0, (afterIntake lending (lentPkt 0x13)).sendAck 4 (lentPkt 0x13).hdr 0 false 0, 7, lentOp,
    by decide +kernel,
    rfl,
    by decide +kernel,
    by decide +kernel,
    rfl,
      by decide +kernel⟩,
   ⟨pulling, 1, 4, 9, [], { oneMatch with kind := .matched, rndv := true },
      by decide +kernel⟩,
   ⟨answering { lentOp with lastGet := some 0, served := [(0, 64)] } 10000000000, 1, 7, 0, 0, { lentOp with lastGet := some 0, served := [(0, 64)] },
      by decide +kernel⟩,
   ⟨limited, 1, 7, 0, lentOp,
      by decide +kernel⟩⟩

theorem wit_CollectivePacketsComplete :
    (∃ (s : State) (r : Fin 4) (pkt : Packet) (t : Tree) (i : Instance) (b a : Dev) (j first : Nat), (s.dev.regionRuns r = true) ∧ (b = s.dev.takeIntake r pkt) ∧ (b.tree r pkt.hdr.treeId = some t) ∧ (pkt.hdr.opcode = 1 ∧ pkt.hdr.cls = 2) ∧ (argSlot pkt.hdr < t.numChildren) ∧ (childLocal (t.child (argSlot pkt.hdr)) = false) ∧ (childFen (t.child (argSlot pkt.hdr)) = pkt.hdr.srcFen) ∧ (t.accepts pkt.hdr.inst = true) ∧ (a = b.openInst r pkt.hdr.treeId pkt.hdr.inst (argOp pkt.hdr) pkt.hdr.dtype pkt.hdr.redop pkt.hdr.exact_ (argTotal pkt.hdr)) ∧ ((a.tree r pkt.hdr.treeId).bind (fun t => t.inst pkt.hdr.inst) = some i) ∧ (i.differs (argOp pkt.hdr) pkt.hdr.dtype pkt.hdr.redop pkt.hdr.exact_ (argTotal pkt.hdr) = false) ∧ (t.upLate i (a.belfryNow r) = false) ∧ (bit i.absent (argSlot pkt.hdr) = false) ∧ (j = (if i.carries then pkt.hdr.elemOffset / i.size else 0)) ∧ (first = (if i.carries then pkt.hdr.elemOffset % i.size else 0)) ∧ (i.segsUp ≤ j ∧ j < i.upSegs) ∧ (first + pkt.hdr.elemCount ≤ i.upElems j) ∧ ((i.seg j).has (argSlot pkt.hdr) first pkt.hdr.elemCount = false)) ∧
    (∃ (s : State) (r : Fin 4) (pkt : Packet) (t : Tree) (i : Instance) (b : Dev) (j : Nat), (s.dev.regionRuns r = true) ∧ (b = s.dev.takeIntake r pkt) ∧ (b.tree r pkt.hdr.treeId = some t) ∧ (pkt.hdr.opcode = 2 ∧ pkt.hdr.cls = 3) ∧ (t.root = false) ∧ (t.parentFen = pkt.hdr.srcFen) ∧ (t.accepts pkt.hdr.inst = true) ∧ (t.inst pkt.hdr.inst = some i) ∧ (t.downLate i (b.belfryNow r) = false) ∧ (j = (if i.collOp = 0 then 0 else pkt.hdr.elemOffset / i.size)) ∧ (j < i.downSegs) ∧ (j ∉ i.downGot)) ∧
    (∃ (s : State) (r : Fin 4) (pkt : Packet) (t : Tree) (i : Instance) (b : Dev) (j : Nat), (s.dev.regionRuns r = true) ∧ (b = s.dev.takeIntake r pkt) ∧ (b.tree r pkt.hdr.treeId = some t) ∧ (pkt.hdr.opcode = 3 ∧ pkt.hdr.cls = 3) ∧ (t.root = false) ∧ (t.parentFen = pkt.hdr.srcFen) ∧ (t.accepts pkt.hdr.inst = true) ∧ (t.inst pkt.hdr.inst = some i) ∧ (t.downLate i (b.belfryNow r) = false) ∧ (j = (if i.collOp = 0 then 0 else pkt.hdr.elemOffset / i.size)) ∧ (j < i.downSegs) ∧ (j ∉ i.downGot)) ∧
    (∃ (s : State) (r : Fin 4) (tree child seg : Nat) (data : List Byte) (t : Tree) (p : Posting) (x : Tag), (s.dev.regionRuns r = true) ∧ (s.dev.tree r tree = some t) ∧ (t.reader child seg = some p) ∧ ((s.dev.ep p.ep).outstanding (.contrib r tree child seg) = some x) ∧ (s.dev.expired p.ep x = false)) ∧
    (∃ (s : State) (r : Fin 4) (tree : Nat) (t : Tree), (s.dev.regionRuns r = true) ∧ (s.dev.tree r tree = some t)) ∧
    (∃ (s : State) (r : Fin 4) (tree : Nat) (t : Tree), (s.dev.regionRuns r = true) ∧ (s.dev.tree r tree = some t)) :=
  ⟨⟨withTree oneTree, 1, upPkt, oneTree, oneInst, afterIntake (withTree oneTree) upPkt, (afterIntake (withTree oneTree) upPkt).openInst 1 6 0 0 0 0 false 0, 0, 0,
    by decide +kernel,
    rfl,
    by decide +kernel,
    by decide +kernel,
    by decide +kernel,
    by decide +kernel,
    by decide +kernel,
    by decide +kernel,
    rfl,
      by decide +kernel⟩,
   ⟨withTree (goingDown 1), 1, downPkt 2, goingDown 1, downInst 1, afterIntake (withTree (goingDown 1)) (downPkt 2), 0,
    by decide +kernel,
    rfl,
      by decide +kernel⟩,
   ⟨withTree (goingDown 0), 1, downPkt 3, goingDown 0, downInst 0, afterIntake (withTree (goingDown 0)) (downPkt 3), 0,
    by decide +kernel,
    rfl,
      by decide +kernel⟩,
   ⟨contributing, 1, 6, 0, 0, zeros 8, readTree, onePosting, aTag .payload (.contrib 1 6 0 0) 8,
      by decide +kernel⟩,
   ⟨withTree lateTree, 1, 6, lateTree,
      by decide +kernel⟩,
   ⟨withTree (goingDown 1), 1, 6, goingDown 1,
      by decide +kernel⟩⟩

theorem wit_TreeCommandsComplete :
    (∃ (s : State) (path : Path) (tag : Nat) (q : Request) (ptr r id w : Nat) (a : Dev) (kids : List Nat) (t : Tree), (Starts s treeSetForm path tag q ptr) ∧ (a = s.dev.started q ptr) ∧ (r = treeRegionOf q.params) ∧ (w = field q.params 8 32) ∧ (id = bits w 11 0) ∧ (kids = (List.range (setChildren q.params)).map (fun c => field q.params (40 + 4 * c) 4)) ∧ (treeSetOk w kids = true) ∧ (a.treeRegion id = none) ∧ ((a.region r).treesOf (id % 2) < 512 ∧ (a.region r).scratchUsed + Tree.scratchNeed (bits w 59 56) ≤ (a.region r).scratchTotal) ∧ (t = { static := leBytes 32 (w &&& staticMask), state := 1, cur := bits w 143 128, scratch := (Config.unstated a.free).toNat % 2 ^ 32, children := kids, insts := [], postings := [], abortNew := 0 })) ∧
    (∃ (s : State) (path : Path) (tag : Nat) (q : Request) (ptr r : Nat) (t : Tree), (Starts s (Form.fixed 0x0C02 8 [(16, 63)] 0) path tag q ptr) ∧ ((s.dev.started q ptr).heldTree (treeIdOf q.params) = some (r, t)) ∧ (t.state = 1)) ∧
    (∃ (s : State) (path : Path) (tag : Nat) (q : Request) (ptr r : Nat) (t : Tree), (Starts s (Form.fixed 0x0C03 8 [(32, 63)] 0) path tag q ptr) ∧ ((s.dev.started q ptr).heldTree (treeIdOf q.params) = some (r, t))) ∧
    (∃ (s : State) (r : Fin 4) (tree : Nat) (t : Tree) (a : Dev), (s.dev.regionRuns r = true) ∧ (s.dev.tree r tree = some t) ∧ (t.state = 3) ∧ ((t.postings.filter (fun p => p.admitted)).any (fun p => p.writing != 0) = false) ∧ (a = forEach (t.postings.filter (fun p => p.admitted)) (fun p d => d.complete p.ep p.sq p.entry ⟨0x0B, p.written, 0, 0, 0⟩) (s.dev.modTree r tree (fun t => { t with state := 1, postings := t.postings.filter (fun p => !p.admitted) })))) ∧
    (∃ (s : State) (path : Path) (tag : Nat) (q : Request) (ptr r : Nat) (t : Tree), (Starts s (Form.fixed 0x0C04 8 [(16, 63)] 512) path tag q ptr) ∧ ((s.dev.started q ptr).heldTree (treeIdOf q.params) = some (r, t))) :=
  ⟨⟨asking treeSetReq, .bellrope, 7, treeSetReq, 0, 1, 6, field treeSetReq.params 8 32, (asking treeSetReq).dev.started treeSetReq 0, [3], _,
    by decide +kernel,
    rfl,
    by decide +kernel,
    rfl,
    by decide +kernel,
    by decide +kernel,
    by decide +kernel,
    by decide +kernel,
    by decide +kernel,
    rfl⟩,
   ⟨askingTree (req 0x0C02 0 0 (leBytes 8 6)), .bellrope, 7, req 0x0C02 0 0 (leBytes 8 6), 0, 1, oneTree,
      by decide +kernel⟩,
   ⟨askingTree (req 0x0C03 0 0 (leBytes 8 6)), .bellrope, 7, req 0x0C03 0 0 (leBytes 8 6), 0, 1, oneTree,
      by decide +kernel⟩,
   ⟨withTree { oneTree with state := 3 }, 1, 6, { oneTree with state := 3 }, _,
    by decide +kernel,
    by decide +kernel,
    by decide +kernel,
    by decide +kernel,
    rfl⟩,
   ⟨askingTree (req 0x0C04 0 0 (leBytes 8 6)), .bellrope, 7, req 0x0C04 0 0 (leBytes 8 6), 0, 1, oneTree,
      by decide +kernel⟩⟩

theorem wit_LockCellAndLockCommandsComplete :
    (∃ (s : State) (r : Fin 4) (pkt : Packet) (b : Dev) (c : LockCell), (s.dev.regionRuns r = true) ∧ (b = s.dev.takeIntake r pkt) ∧ (lockOk r pkt 1 = true) ∧ (c = b.lockCell pkt.hdr.lockId) ∧ (c.state ≠ 1)) ∧
    (∃ (s : State) (r : Fin 4) (pkt : Packet) (b : Dev), (s.dev.regionRuns r = true) ∧ (b = s.dev.takeIntake r pkt) ∧ (lockOk r pkt 2 = true) ∧ ((b.lockCell pkt.hdr.lockId).heldBy pkt.hdr = true)) ∧
    (∃ (s : State) (r : Fin 4) (pkt : Packet) (b : Dev), (s.dev.regionRuns r = true) ∧ (b = s.dev.takeIntake r pkt) ∧ (lockOk r pkt 3 = true) ∧ ((b.lockCell pkt.hdr.lockId).waiters.any (fun v => v.is pkt.hdr) = true)) ∧
    (∃ (s : State) (path : Path) (tag : Nat) (q : Request) (ptr id : Nat) (a : Dev), (Starts s forceForm path tag q ptr) ∧ (id = field q.params 0 2) ∧ (((s.dev.started q ptr).lockCell id).state = 1) ∧ (((s.dev.started q ptr).lockCell id).grantSeq = field q.params 4 4) ∧ (a = ((s.dev.started q ptr).forceLock (id / 16384) id).pendServe (id / 16384))) ∧
    (∃ (s : State) (path : Path) (tag : Nat) (q : Request) (ptr : Nat) (t : Dev × Nat × Nat), (Starts s (Form.fixed 0x0D02 8 [(32, 63)] 8) path tag q ptr) ∧ (t = (allRegions.filter (s.dev.started q ptr).regionRuns).foldl (fun (s : Dev × Nat × Nat) r => ((s.1.abandonAll r (abandonMatch (field q.params 0 4))).1.pendServe r, s.2.1 + (s.1.abandonAll r (abandonMatch (field q.params 0 4))).2.1, s.2.2 + (s.1.abandonAll r (abandonMatch (field q.params 0 4))).2.2)) (s.dev.started q ptr, 0, 0))) ∧
    (∃ (s : State) (path : Path) (tag : Nat) (q : Request) (ptr : Nat) (c : LockCell), (Starts s lockReadForm path tag q ptr) ∧ (c = (s.dev.started q ptr).lockCell (field q.params 0 2))) :=
  ⟨⟨onRegion Region.reset, 1, lockPkt 1, afterIntake (onRegion Region.reset) (lockPkt 1), (afterIntake (onRegion Region.reset) (lockPkt 1)).lockCell (lockPkt 1).hdr.lockId,
    by decide +kernel,
    rfl,
    by decide +kernel,
    rfl,
    by decide +kernel⟩,
   ⟨holdingLock, 1, lockPkt 2, afterIntake holdingLock (lockPkt 2),
    by decide +kernel,
    rfl,
      by decide +kernel⟩,
   ⟨waitingLock, 1, lockPkt 3, afterIntake waitingLock (lockPkt 3),
    by decide +kernel,
    rfl,
      by decide +kernel⟩,
   ⟨askingLock (req 0x0D01 0 0 (leBytes 8 16384)), .bellrope, 7, req 0x0D01 0 0 (leBytes 8 16384), 0, 16384, _,
    by decide +kernel,
    by decide +kernel,
    by decide +kernel,
    by decide +kernel,
    rfl⟩,
   ⟨askingLock (req 0x0D02 0 0 (leBytes 8 0)), .bellrope, 7, req 0x0D02 0 0 (leBytes 8 0), 0, _,
    by decide +kernel,
    rfl⟩,
   ⟨askingLock (req 0x0D03 0 0 (leBytes 8 16384)), .bellrope, 7, req 0x0D03 0 0 (leBytes 8 16384), 0, _,
    by decide +kernel,
    rfl⟩⟩

theorem wit_LockResponsesComplete :
    (∃ (s : State) (r : Fin 4) (pkt : Packet) (q : Pend) (a : Dev), (s.dev.regionRuns r = true) ∧ (a = ((s.dev.takeIntake r pkt).lockRepeat r (argPend pkt.hdr)).lockProbe r (argPend pkt.hdr)) ∧ (lockOk r pkt 0x81 = true) ∧ (a.pend r (argPend pkt.hdr) = some q) ∧ (q.state = .sent ∨ q.state = .queued) ∧ (q.fen = pkt.hdr.dstFen ∧ q.epi = pkt.hdr.srcEpi ∧ q.router = fenRouter pkt.hdr.srcFen ∧ q.lockId = pkt.hdr.lockId) ∧ (a.targetUp r pkt.hdr = true) ∧ ((a.sq q.ep q.sq).state ≠ .halted) ∧ (q.lost = false) ∧ (q.unlock = false)) ∧
    (∃ (s : State) (r : Fin 4) (pkt : Packet) (q : Pend) (a : Dev), (s.dev.regionRuns r = true) ∧ (a = ((s.dev.takeIntake r pkt).lockRepeat r (argPend pkt.hdr)).lockProbe r (argPend pkt.hdr)) ∧ (lockOk r pkt 0x82 = true) ∧ (a.pend r (argPend pkt.hdr) = some q) ∧ (q.state = .sent ∨ q.state = .queued) ∧ (q.fen = pkt.hdr.dstFen ∧ q.epi = pkt.hdr.srcEpi ∧ q.router = fenRouter pkt.hdr.srcFen ∧ q.lockId = pkt.hdr.lockId) ∧ (a.targetUp r pkt.hdr = true) ∧ ((a.sq q.ep q.sq).state ≠ .halted) ∧ (q.lost = false) ∧ (q.unlock = false)) ∧
    (∃ (s : State) (r : Fin 4) (pkt : Packet) (q : Pend) (a : Dev), (s.dev.regionRuns r = true) ∧ (a = ((s.dev.takeIntake r pkt).lockRepeat r (argPend pkt.hdr)).lockProbe r (argPend pkt.hdr)) ∧ (lockOk r pkt 0x83 = true) ∧ (a.pend r (argPend pkt.hdr) = some q) ∧ (q.state = .sent ∨ q.state = .queued) ∧ (q.fen = pkt.hdr.dstFen ∧ q.epi = pkt.hdr.srcEpi ∧ q.router = fenRouter pkt.hdr.srcFen ∧ q.lockId = pkt.hdr.lockId) ∧ (a.targetUp r pkt.hdr = true) ∧ ((a.sq q.ep q.sq).state ≠ .halted) ∧ (q.lost = false)) ∧
    (∃ (s : State) (r : Fin 4) (pkt : Packet) (q : Pend) (a : Dev), (s.dev.regionRuns r = true) ∧ (a = ((s.dev.takeIntake r pkt).lockRepeat r (argPend pkt.hdr)).lockProbe r (argPend pkt.hdr)) ∧ (lockOk r pkt 0x84 = true) ∧ (a.pend r (argPend pkt.hdr) = some q) ∧ (q.state = .sent ∨ q.state = .queued) ∧ (q.fen = pkt.hdr.dstFen ∧ q.epi = pkt.hdr.srcEpi ∧ q.router = fenRouter pkt.hdr.srcFen ∧ q.lockId = pkt.hdr.lockId) ∧ (a.targetUp r pkt.hdr = true) ∧ ((a.sq q.ep q.sq).state ≠ .halted) ∧ (q.lost = false) ∧ (q.unlock = true)) ∧
    (∃ (s : State) (r : Fin 4) (pkt : Packet) (a : Dev), (s.dev.regionRuns r = true) ∧ (a = s.dev.takeIntake r pkt) ∧ (lockOk r pkt 0x85 = true) ∧ (a.targetUp r pkt.hdr = true)) ∧
    (∃ (s : State) (r : Fin 4) (pkt : Packet) (a : Dev), (s.dev.regionRuns r = true) ∧ (a = s.dev.takeIntake r pkt) ∧ (lockOk r pkt 0x86 = true) ∧ (a.targetUp r pkt.hdr = true)) ∧
    (∃ (s : State) (r : Fin 4) (pend : Nat) (p : Pend), (s.dev.regionRuns r = true) ∧ (s.dev.pend r pend = some p) ∧ (p.state = .sent) ∧ (p.since + (s.dev.region r).chip.msgTimeout ≤ s.dev.belfryNow r) ∧ ((s.dev.sq p.ep p.sq).state ≠ .halted) ∧ (p.repeats < (s.dev.region r).chip.maxRetries) ∧ (s.dev.fenced = false) ∧ (p.lost = false)) ∧
    (∃ (s : State) (r : Fin 4) (pend : Nat) (p : Pend), (s.dev.regionRuns r = true) ∧ (s.dev.pend r pend = some p) ∧ (p.state = .sent) ∧ (p.since + (s.dev.region r).chip.msgTimeout ≤ s.dev.belfryNow r) ∧ ((s.dev.sq p.ep p.sq).state ≠ .halted) ∧ (s.dev.fenced = true) ∧ (p.flushed = 0)) ∧
    (∃ (s : State) (r : Fin 4) (pend : Nat) (q : Pend), (s.dev.regionRuns r = true) ∧ (s.dev.pend r pend = some q) ∧ (q.state = .queued) ∧ (q.since + (s.dev.region r).chip.probe ≤ s.dev.belfryNow r) ∧ ((s.dev.sq q.ep q.sq).state ≠ .halted) ∧ (q.unanswered = false) ∧ (s.dev.fenced = false) ∧ (q.lost = false)) :=
  ⟨⟨pendingLock onePend, 1, fromSlice 0x81, onePend, lockAnswered (pendingLock onePend) 0x81,
    by decide +kernel,
    rfl,
      by decide +kernel⟩,
   ⟨pendingLock onePend, 1, fromSlice 0x82, onePend, lockAnswered (pendingLock onePend) 0x82,
    by decide +kernel,
    rfl,
      by decide +kernel⟩,
   ⟨pendingLock onePend, 1, fromSlice 0x83, onePend, lockAnswered (pendingLock onePend) 0x83,
    by decide +kernel,
    rfl,
      by decide +kernel⟩,
   ⟨pendingLock { onePend with unlock := true }, 1, fromSlice 0x84, { onePend with unlock := true }, lockAnswered (pendingLock { onePend with unlock := true }) 0x84,
    by decide +kernel,
    rfl,
      by decide +kernel⟩,
   ⟨pendingLock onePend, 1, fromSlice 0x85, afterIntake (pendingLock onePend) (fromSlice 0x85),
    by decide +kernel,
    rfl,
      by decide +kernel⟩,
   ⟨pendingLock onePend, 1, fromSlice 0x86, afterIntake (pendingLock onePend) (fromSlice 0x86),
    by decide +kernel,
    rfl,
      by decide +kernel⟩,
   ⟨pendingLock onePend 1000000000000, 1, 5, onePend,
      by decide +kernel⟩,
   ⟨fencedPending, 1, 5, onePend,
      by decide +kernel⟩,
   ⟨pendingLock { onePend with state := .queued } 1000000000000, 1, 5, { onePend with state := .queued },
      by decide +kernel⟩⟩

theorem wit_CommandTransportCompletes :
    (∃ (s : State) (r : Fin 4) (pkt : Packet) (b : Dev) (q : Request), (s.dev.regionRuns r = true) ∧ (b = s.dev.takeIntake r pkt) ∧ (b.wardenRuns = true) ∧ (pkt.hdr.cls = 4 ∧ pkt.hdr.opcode ≠ 2 ∧ pkt.hdr.opcode ≠ 3) ∧ (q = ⟨.inband pkt.hdr.srcFen pkt.hdr.srcEpi, b.wardenNow, pkt.payload, some pkt.hdr, r, 0⟩) ∧ (b.warden.knows q.path q.tag = false) ∧ ((b.warden.intake.filter (fun x => x.path != .bellrope)).length < 252) ∧ (b.warden.intake.length < 256)) ∧
    (∃ (s : State) (r : Fin 4) (pkt : Packet) (b : Dev) (c : Outstanding), (s.dev.regionRuns r = true) ∧ (b = s.dev.takeIntake r pkt) ∧ (b.wardenRuns = true) ∧ ((pkt.hdr.opcode = 2 ∨ pkt.hdr.opcode = 3) ∧ pkt.hdr.cls = 4) ∧ (b.callOf r pkt.hdr (Ocm.tag pkt.payload) = some c) ∧ (b.warden.calls.find? (fun x => x.id == c.id) = some c) ∧ (b.callNow c < c.since + b.warden.cmdTimeout) ∧ (Ocm.type pkt.payload = 2) ∧ (c.forward = none)) ∧
    (∃ (s : State) (path : Path) (tag : Nat) (x : Exec), (s.dev.wardenRuns = true) ∧ (s.dev.warden.exec path tag = some x) ∧ (path ≠ .bellrope) ∧ (s.dev.warden.nextInterim x ≤ s.dev.wardenNow)) ∧
    (∃ (s : State) (call : Nat) (c : Outstanding) (m : Cmd), (s.dev.gatesRun = true) ∧ (s.dev.warden.calls.find? (fun c => c.id == call) = some c) ∧ (c.since + s.dev.warden.cmdTimeout ≤ s.dev.callNow c) ∧ (c.forward = none) ∧ (c.orphan = 0) ∧ ((s.dev.sq c.ep c.sq).state ≠ .halted) ∧ ((s.dev.sq c.ep c.sq).cmdOf c.tag = some m)) ∧
    (∃ (s : State) (addr : BitVec 7), (s.dev.lanternRuns = true) ∧ (s.dev.lantern.rope = .idle) ∧ (addr.toNat = s.dev.lantern.brAddr)) ∧
    (∃ (s : State) (addr : BitVec 7) (wake : Bool), (s.dev.lanternRuns = true) ∧ (s.dev.lantern.rope = .idle) ∧ (addr.toNat ≠ s.dev.lantern.brAddr)) ∧
    (∃ (s : State) (symbols : List RopeSym) (bytes : List Byte) (q : Request) (e b : Dev), (s.dev.lanternRuns = true) ∧ (s.dev.lantern.rope = .matched) ∧ (requestBytes symbols = some bytes) ∧ (q = ⟨.bellrope, s.dev.wardenNow, bytes, none, 0, 0⟩) ∧ (e = s.dev.emit (.brAck (fourPhases (symbols.takeWhile (fun x => x != .dlm)).length))) ∧ (b = (e.setRope (.waiting (some q.tag))).register q) ∧ (b.counter Ctr.cmdsReceived ≠ s.dev.counter Ctr.cmdsReceived)) ∧
    (∃ (s : State) (symbols : List RopeSym), (s.dev.lanternRuns = true) ∧ (s.dev.lantern.rope = .matched) ∧ (requestBytes symbols = none)) ∧
    (∃ (s : State) (bytes : List Byte), (s.dev.lanternRuns = true) ∧ (s.dev.lantern.rope = .answer bytes)) ∧
    (∃ (s : State) (ns : Nat), (s.dev.lanternRuns = true) ∧ (100000 ≤ ns)) :=
  ⟨⟨onRegion Region.reset, 1, inbandPkt 1 (req 0x0E00 0 0 []).bytes, afterIntake (onRegion Region.reset) (inbandPkt 1 (req 0x0E00 0 0 []).bytes), ⟨.inband 37 0, 0, (req 0x0E00 0 0 []).bytes, some (inbandPkt 1 []).hdr, 1, 0⟩,
    by decide +kernel,
    rfl,
      by decide +kernel⟩,
   ⟨calling, 1, inbandPkt 2 (Ocm.build 2 0 0x0E00 7 0 0 []), afterIntake calling (inbandPkt 2 (Ocm.build 2 0 0x0E00 7 0 0 [])), oneCall,
    by decide +kernel,
    rfl,
      by decide +kernel⟩,
   ⟨executing oneExec 1000000000000, .gate 4 3, 7, oneExec,
      by decide +kernel⟩,
   ⟨callingLate, 8, oneCall, oneCmd,
      by decide +kernel⟩,
   ⟨lamp onLamp, 0,
      by decide +kernel⟩,
   ⟨lamp onLamp, 1, false,
      by decide +kernel⟩,
   ⟨matchedRope, requestSyms (req 0x0E00 0 0 []).bytes, (req 0x0E00 0 0 []).bytes, req 0x0E00 0 0 [], _, _,
    by decide +kernel,
    by decide +kernel,
    by decide +kernel,
    by decide +kernel,
    rfl,
    rfl,
    by decide +kernel⟩,
   ⟨matchedRope, bytesSyms [3, 0, 1] ++ [.dlm],
      by decide +kernel⟩,
   ⟨lamp { onLamp with rope := .answer [1] }, [1],
      by decide +kernel⟩,
   ⟨lamp onLamp, 100000,
      by decide +kernel⟩⟩

theorem wit_ManagementCommandsComplete :
    (∃ (s : State) (path : Path) (tag : Nat) (q : Request) (ptr : Nat), (Starts s { Form.fixed 0x0E00 0 [] 0 with down := Dev.placeDown } path tag q ptr)) ∧
    (∃ (s : State) (path : Path) (tag : Nat) (q : Request) (ptr n : Nat) (a : Dev), (Starts s (Form.fixed 0x0E04 0 [] 16) path tag q ptr) ∧ (a = s.dev.started q ptr) ∧ (n = (Config.nonce a.free).toNat) ∧ (a.liveNonces.length < 8)) ∧
    (∃ (s : State) (path : Path) (tag : Nat) (q : Request) (ptr r : Nat) (a : Dev) (h : Hdr), (Starts s fwdForm path tag q ptr) ∧ (a = s.dev.started q ptr) ∧ (24 ≤ q.params.length) ∧ (1 ≤ bits (byteAt q.params 0) 3 0 ∧ bits (byteAt q.params 0) 3 0 ≤ 8) ∧ (fwdHopsOk q.params = true) ∧ (r = a.fwdRegion q) ∧ (h = { dstFen := 0, srcFen := fenOf (a.region r).chip.routerId 0, cls := 4, mode := 2, interGroup := bits (byteAt q.params 0) 3 0, unit := 3, opcode := Ocm.type (q.params.drop 8), laSet := bits (field q.params 0 8) 63 8 })) ∧
    (∃ (s : State) (path : Path) (tag : Nat) (q : Request) (ptr : Nat) (x : Exec), (Starts s (Form.fixed 0x0E06 8 [(16, 63)] 0) path tag q ptr) ∧ ((s.dev.started q ptr).abortable q.path (abortTag q.params) = some x) ∧ (x.aborting = false)) :=
  ⟨⟨asking (req 0x0E00 0 0 []), .bellrope, 7, req 0x0E00 0 0 [], 0,
    by decide +kernel⟩,
   ⟨asking (req 0x0E04 0 0 []), .bellrope, 7, req 0x0E04 0 0 [], 0, _, _,
    by decide +kernel,
    rfl,
    rfl,
    by decide +kernel⟩,
   ⟨asking forwardReq, .bellrope, 7, forwardReq, 0, 0, _, _,
    by decide +kernel,
    rfl,
    by decide +kernel,
    by decide +kernel,
    by decide +kernel,
    by decide +kernel,
    rfl⟩,
   ⟨aborting, .bellrope, 7, req 0x0E06 0 0 (leBytes 8 9), 0, regionReset9,
    by decide +kernel,
    by decide +kernel,
    rfl⟩⟩

theorem wit_RegisterAccessCommandsComplete :
    (∃ (s : State) (path : Path) (tag : Nat) (q : Request) (ptr addr n : Nat) (a : Dev), (Starts s regReadForm path tag q ptr) ∧ (a = s.dev.started q ptr) ∧ (addr = field q.params 0 8) ∧ (n = regCount q.params) ∧ (a.addrOk addr = true) ∧ (1 ≤ n ∧ n ≤ 256)) ∧
    (∃ (s : State) (path : Path) (tag : Nat) (q : Request) (ptr addr n : Nat) (a : Dev), (Starts s regWriteForm path tag q ptr) ∧ (a = s.dev.started q ptr) ∧ (addr = field q.params 0 8) ∧ (n = regCount q.params) ∧ (a.addrOk addr = true) ∧ (1 ≤ n ∧ n ≤ 256)) ∧
    (∃ (s : State) (path : Path) (tag : Nat) (q : Request) (ptr addr : Nat) (a : Dev) (old new mask : Reg), (Starts s regModifyForm path tag q ptr) ∧ (a = s.dev.started q ptr) ∧ (addr = field q.params 0 8) ∧ (a.addrOk addr = true) ∧ (old = BitVec.ofNat 64 (a.regValue s.fuses (addrEp addr) (regOf addr 0))) ∧ (mask = BitVec.ofNat 64 (field q.params 8 8)) ∧ (new = (old &&& ~~~mask) ||| (BitVec.ofNat 64 (field q.params 16 8) &&& mask))) ∧
    (∃ (s : State) (path : Path) (tag : Nat) (q : Request) (ptr first n : Nat) (a : Dev), (Starts s counterReadForm path tag q ptr) ∧ (a = s.dev.started q ptr) ∧ (first = counterFirst q.params) ∧ (n = counterCount q.params) ∧ (1 ≤ n ∧ n ≤ 256)) ∧
    (∃ (s : State) (path : Path) (tag : Nat) (q : Request) (ptr n : Nat), (Starts s counterClearForm path tag q ptr) ∧ (n = clearCount q.params) ∧ (1 ≤ n ∧ n ≤ 1048576)) ∧
    (∃ (s : State) (ep : Fin 16) (off : Nat) (value : Reg) (a : RegAt), (s.dev.epUp ep = true) ∧ (s.dev.barOpen ep = true) ∧ (a = barReg off) ∧ (∀ o, a ≠ .aperture o) ∧ (off % 8 = 0) ∧ (needsPriv off = false ∨ s.dev.priv ep = true) ∧ (s.dev.barReaches ep a = true)) ∧
    (∃ (s : State) (ep : Fin 16) (word : Fin 22) (value : Reg), (s.dev.epUp ep = true) ∧ (s.dev.barOpen ep = true) ∧ (s.dev.wardenRuns = true)) ∧
    (∃ (s : State) (ep : Fin 16) (n size : Nat), (s.dev.epUp ep = true) ∧ (s.dev.barOpen ep = true) ∧ (s.dev.priv ep = true) ∧ (n < 2 ^ 19) ∧ (s.dev.countersDown n 1 = false) ∧ (size = 4 ∨ size = 8)) :=
  ⟨⟨asking (req 0x0E01 0 0 (leBytes 8 0x100000000 ++ leBytes 8 1)), .bellrope, 7, req 0x0E01 0 0 (leBytes 8 0x100000000 ++ leBytes 8 1), 0, 0x100000000, 1, _,
    by decide +kernel,
    rfl,
      by decide +kernel⟩,
   ⟨asking (req 0x0E02 0 0 (leBytes 8 0x100000000 ++ leBytes 8 1 ++ leBytes 8 5)), .bellrope, 7, req 0x0E02 0 0 (leBytes 8 0x100000000 ++ leBytes 8 1 ++ leBytes 8 5), 0, 0x100000000, 1, _,
    by decide +kernel,
    rfl,
      by decide +kernel⟩,
   ⟨asking (req 0x0E03 0 0 (leBytes 8 0x100000000 ++ leBytes 8 1 ++ leBytes 8 1)), .bellrope, 7, req 0x0E03 0 0 (leBytes 8 0x100000000 ++ leBytes 8 1 ++ leBytes 8 1), 0, 0x100000000, _, _, _, _,
    by decide +kernel,
    rfl,
    by decide +kernel,
    by decide +kernel,
    rfl,
    rfl,
    rfl⟩,
   ⟨asking (req 0x0E08 0 0 (leBytes 8 0x200000000)), .bellrope, 7, req 0x0E08 0 0 (leBytes 8 0x200000000), 0, 0, 2, _,
    by decide +kernel,
    rfl,
      by decide +kernel⟩,
   ⟨asking (req 0x0E09 0 0 (leBytes 8 0x200000000)), .bellrope, 7, req 0x0E09 0 0 (leBytes 8 0x200000000), 0, 2,
      by decide +kernel⟩,
   ⟨onEp openEp, 4, 0x1000, 8, .gateCtrl,
    by decide +kernel,
    by decide +kernel,
    rfl,
    (fun _ h => nomatch h),
      by decide +kernel⟩,
   ⟨onEp openEp, 4, 3, 1,
      by decide +kernel⟩,
   ⟨onEp openEp, 4, 0x2000, 8,
      by decide +kernel⟩⟩

theorem wit_CageAndClockCommandsComplete :
    (∃ (s : State) (din : BitVec 512), (s.dev.wardenRuns = true) ∧ (s.dev.warden.cageSets = []) ∧ (s.dev.gatesRun = true)) ∧
    (∃ (s : State) (path : Path) (tag : Nat) (q : Request) (ptr : Nat), (Starts s (Form.fixed 0x0E10 24 [(133, 191)] 16) path tag q ptr) ∧ ((s.dev.started q ptr).gatesRun = true)) ∧
    (∃ (s : State) (path : Path) (tag : Nat) (q : Request) (ptr : Nat), (Starts s (Form.fixed 0x0E11 0 [] 128) path tag q ptr)) ∧
    (∃ (s : State) (cage : Fin 128), (s.dev.wardenRuns = true) ∧ ((s.dev.cage cage).pwrEn = true) ∧ ((s.dev.cage cage).pwrGood = false) ∧ ((s.dev.cage cage).since + s.dev.warden.cagePgWait ≤ s.dev.wardenNow)) ∧
    (∃ (s : State) (path : Path) (tag : Nat) (run : ClockRun) (q : Request) (ptr : Nat) (a : Dev), (s.dev.warden.exec path tag = none) ∧ (Starts s (Form.fixed 0x0E20 0 [] 16) path tag q ptr) ∧ (a = s.dev.started q ptr) ∧ (a.warden.clockTurn q = true) ∧ (a.warden.allRun = false) ∧ (run.ppm.natAbs ≤ 150)) ∧
    (∃ (s : State) (path : Path) (tag : Nat) (run : ClockRun) (q : Request) (ptr : Nat) (a : Dev), (s.dev.warden.exec path tag = none) ∧ (Starts s (Form.fixed 0x0E20 0 [] 16) path tag q ptr) ∧ (a = s.dev.started q ptr) ∧ (a.warden.clockTurn q = true) ∧ (a.warden.allRun = false) ∧ (150 < run.ppm.natAbs)) ∧
    (∃ (s : State) (path : Path) (tag : Nat) (run : ClockRun) (x : Exec), (s.dev.wardenRuns = true) ∧ (s.dev.warden.exec path tag = some x) ∧ (x.opcode = 0x0E20) ∧ (s.dev.warden.clockTurn x.req = true) ∧ (x.a = 1)) ∧
    (∃ (s : State) (path : Path) (tag : Nat) (run : ClockRun) (x : Exec) (bad : List Nat), (s.dev.wardenRuns = true) ∧ (s.dev.warden.exec path tag = some x) ∧ (x.opcode = 0x0E20) ∧ (s.dev.warden.clockTurn x.req = true) ∧ (x.a = 2) ∧ (bad = allRegions.filter (fun r => bit x.b r || (!bit s.dev.warden.hbm r && run.hbmFails.any (fun x => x.val == r))))) ∧
    (∃ (s : State) (path : Path) (tag : Nat) (run : ClockRun) (x : Exec) (up fresh : List Nat), (s.dev.wardenRuns = true) ∧ (s.dev.warden.exec path tag = some x) ∧ (x.opcode = 0x0E20) ∧ (s.dev.warden.clockTurn x.req = true) ∧ (x.a = 3) ∧ (up = s.dev.warden.belfryNext x.b) ∧ (fresh = up.filter (fun r => !bit s.dev.warden.belfry r))) ∧
    (∃ (s : State) (path : Path) (tag : Nat) (run : ClockRun) (x : Exec) (bs : List Nat), (s.dev.wardenRuns = true) ∧ (s.dev.warden.exec path tag = some x) ∧ (x.opcode = 0x0E20) ∧ (s.dev.warden.clockTurn x.req = true) ∧ (x.a = 4) ∧ (bs = (allRegions.filter (fun r => bit s.dev.warden.belfry r)).flatMap blocksOf)) ∧
    (∃ (s : State) (path : Path) (tag : Nat) (run : ClockRun) (x : Exec) (a : Dev), (s.dev.wardenRuns = true) ∧ (s.dev.warden.exec path tag = some x) ∧ (x.opcode = 0x0E20) ∧ (s.dev.warden.clockTurn x.req = true) ∧ (x.a = 5) ∧ (a = (s.dev.modWarden (fun w => { w with pll := true, done := true })).modExec x.req.path x.req.tag (fun x => { x with b := 0 }))) :=
  ⟨⟨onPort Port.reset, 0,
      by decide +kernel⟩,
   ⟨asking (req 0x0E10 0 0 (zeros 24)), .bellrope, 7, req 0x0E10 0 0 (zeros 24), 0,
      by decide +kernel⟩,
   ⟨asking (req 0x0E11 0 0 []), .bellrope, 7, req 0x0E11 0 0 [], 0,
    by decide +kernel⟩,
   ⟨poweredCage, 3,
      by decide +kernel⟩,
   ⟨askingClock, .bellrope, 7, cleanRun, req 0x0E20 0 0 [], 0, _,
    by decide +kernel,
    by decide +kernel,
    rfl,
      by decide +kernel⟩,
   ⟨askingClock, .bellrope, 7, ⟨151, [], []⟩, req 0x0E20 0 0 [], 0, _,
    by decide +kernel,
    by decide +kernel,
    rfl,
      by decide +kernel⟩,
   ⟨switching 1 0, .bellrope, 7, cleanRun, clockExec 1 0,
      by decide +kernel⟩,
   ⟨switching 2 0, .bellrope, 7, cleanRun, clockExec 2 0, [],
      by decide +kernel⟩,
   ⟨at_ { live with warden := { Warden.reset with hbm := 15, executing := [clockExec 3 0] } }, .bellrope, 7, cleanRun, clockExec 3 0, [0, 1, 2, 3], [0, 1, 2, 3],
      by decide +kernel⟩,
   ⟨switching 4 0, .bellrope, 7, cleanRun, clockExec 4 0, [],
      by decide +kernel⟩,
   ⟨switching 5 240, .bellrope, 7, cleanRun, clockExec 5 240, _,
    by decide +kernel,
    by decide +kernel,
    by decide +kernel,
    by decide +kernel,
    by decide +kernel,
    rfl⟩⟩

theorem wit_TwinCommandsAndEventsComplete :
    (∃ (s : State) (path : Path) (tag : Nat) (q : Request) (ptr : Nat) (a : Dev), (Starts s (Form.fixed 0x0F01 40 twinSetZero 0) path tag q ptr) ∧ (a = (s.dev.started q ptr).silenceFence) ∧ (a.twinSetOk q.params = true) ∧ (a.chip.idValid = true) ∧ (a.twin.state ≠ .taken)) ∧
    (∃ (s : State) (path : Path) (tag : Nat) (q : Request) (ptr : Nat), (Starts s (Form.fixed 0x0F02 0 [] 40) path tag q ptr)) ∧
    (∃ (s : State) (path : Path) (tag : Nat) (q : Request) (ptr : Nat) (a : Dev), (Starts s twinForm path tag q ptr) ∧ (byteAt q.params 0 = 1) ∧ (a = (s.dev.started q ptr).silenceFence) ∧ (a.twin.state = .joining ∨ a.twin.state = .paired)) ∧
    (∃ (s : State) (path : Path) (tag : Nat) (q : Request) (ptr : Nat) (a b : Dev), (Starts s twinForm path tag q ptr) ∧ (a = s.dev.started q ptr) ∧ (byteAt q.params 0 = 2) ∧ (a.twin.state = .taken) ∧ (b = a.dropAlt.modTwin (fun t => { t with state := if a.heardLately then .paired else .joining, windowStart := t.lastHeard.getD a.wardenNow, windowOpen := true }))) ∧
    (∃ (s : State) (path : Path) (tag : Nat) (q : Request) (ptr : Nat) (a : Dev), (Starts s (Form.fixed 0x0F04 16 [(62, 63), (68, 71), (88, 95), (110, 111)] 0) path tag q ptr) ∧ (a = s.dev.started q ptr) ∧ (a.twin.state ≠ .off) ∧ (field q.params 0 6 = a.twin.peerSerial) ∧ (bits (field q.params 6 2) 13 0 = a.twin.peerRouter)) ∧
    (∃ (s : State) (a : Dev) (pkt : List Byte) (hd : Hdr), (s.dev.wardenRuns = true) ∧ (a = s.dev.silenceFence) ∧ (a.twin.state ≠ .off) ∧ (a.twin.lastIssued + a.twin.period ≤ a.wardenNow) ∧ (pkt = Ocm.build 1 0 0x0F04 ((Config.unstated a.free).toNat % 65536) 0 0 a.heartbeat) ∧ (hd = { srcFen := fenOf a.chip.routerId 0, cls := 4, unit := 3, opcode := 1 }) ∧ (a.twin.fabricHb = false)) ∧
    (∃ (s : State) (a : Dev), (s.dev.wardenRuns = true) ∧ (a = s.dev.silenceFence) ∧ (a.windowOver = true) ∧ (a.twin.auto = false)) ∧
    (∃ (s : State), (s.dev.wardenRuns = true) ∧ (s.dev.twin.state = .joining ∨ s.dev.twin.state = .paired) ∧ (s.dev.twin.lastIssued + s.dev.twin.deadTime ≤ s.dev.wardenNow)) :=
  ⟨⟨askingTwin .off twinSetReq, .bellrope, 7, twinSetReq, 0, _,
    by decide +kernel,
    rfl,
      by decide +kernel⟩,
   ⟨asking (req 0x0F02 0 0 []), .bellrope, 7, req 0x0F02 0 0 [], 0,
    by decide +kernel⟩,
   ⟨askingTwin .paired (req 0x0F03 0 0 (leBytes 8 1)), .bellrope, 7, req 0x0F03 0 0 (leBytes 8 1), 0, _,
    by decide +kernel,
    by decide +kernel,
    rfl,
    by decide +kernel⟩,
   ⟨askingTwin .taken (req 0x0F03 0 0 (leBytes 8 2)), .bellrope, 7, req 0x0F03 0 0 (leBytes 8 2), 0, _, _,
    by decide +kernel,
    rfl,
    by decide +kernel,
    by decide +kernel,
    rfl⟩,
   ⟨askingTwin .paired beatReq, .bellrope, 7, beatReq, 0, _,
    by decide +kernel,
    rfl,
      by decide +kernel⟩,
   ⟨twinned .joining 20000, _, _, _,
    by decide +kernel,
    rfl,
    by decide +kernel,
    by decide +kernel,
    rfl,
    rfl,
    by decide +kernel⟩,
   ⟨deafTwin, _,
    by decide +kernel,
    rfl,
      by decide +kernel⟩,
   ⟨twinned .joining 1000000000,
      by decide +kernel⟩⟩

theorem wit_EngineBlockCommandsComplete :
    (∃ (s : State) (b : Fin 64) (item : Item) (e : Nat) (a : Dev), (s.dev.blockRuns b = true) ∧ (a = s.dev.sweepItems b) ∧ ((a.block b).state = .run) ∧ (minBy (fun (i : Item) => i.stamp) (a.block b).queue = some item) ∧ (a.freeEngine b = some e)) ∧
    (∃ (s : State) (path : Path) (tag : Nat) (q : Request) (ptr : Nat) (a : Dev), (Starts s (blockForm 0x0F10 [(40, 63), (96, 127)]) path tag q ptr) ∧ (a = s.dev.started q ptr) ∧ (field q.params 0 4 ≤ 1000000) ∧ (a.blockHeld q.index = false)) ∧
    (∃ (s : State) (b : Fin 64) (a : Dev), (s.dev.regionRuns (b / 16) = true) ∧ (a = s.dev.sweepItems b) ∧ ((a.block b).state = .migrating) ∧ ((a.block b).running = [] ∨ (a.block b).limit ≤ a.belfryNow (b / 16))) ∧
    (∃ (s : State) (b : Fin 64) (x : Exec) (a c : Dev), (s.dev.blockRuns b = true) ∧ (s.dev.regionRuns (b / 16) = true) ∧ (s.dev.blockCommand b = some x) ∧ ((s.dev.block b).state = .resetting) ∧ (a = (s.dev.modBlock b (fun y => { y with version := y.loading, code := y.newCode, newCode := [] })).setBlock b .run) ∧ (c = (a.count (if x.opcode = 0x0F10 then Ctr.blockResets (b / 16) else Ctr.blockLoads (b / 16))).finishAll x.opcode b 0 Ocm.ok (a.block b).reply) ∧ (c.blockBad b = false) ∧ (x.aborting = false)) :=
  ⟨⟨queuedItem, 16, oneItem, 0, _,
    by decide +kernel,
    rfl,
      by decide +kernel⟩,
   ⟨asking (req 0x0F10 2 17 (zeros 16)), .bellrope, 7, req 0x0F10 2 17 (zeros 16), 0, _,
    by decide +kernel,
    rfl,
      by decide +kernel⟩,
   ⟨blockState .migrating, 16, _,
    by decide +kernel,
    rfl,
      by decide +kernel⟩,
   ⟨blockLoading, 16, loadExec, _, _,
    by decide +kernel,
    by decide +kernel,
    by decide +kernel,
    by decide +kernel,
    rfl,
    rfl,
      by decide +kernel⟩⟩

theorem wit_RegionResetAndResumeComplete :
    (∃ (s : State) (path : Path) (tag : Nat) (q : Request) (ptr t : Nat) (a : Dev), (Starts s (regionForm 0x0F20 8 [(32, 63)] 8) path tag q ptr) ∧ (a = s.dev.started q ptr) ∧ (t = field q.params 0 4) ∧ (1 ≤ t ∧ t ≤ 1000000) ∧ ((a.region q.index).state = .run)) ∧
    (∃ (s : State) (r : Fin 4) (a : Dev), (s.dev.regionRuns r = true) ∧ ((s.dev.region r).state = .draining) ∧ (s.dev.emptied r = true ∨ (s.dev.region r).drainEnd ≤ s.dev.belfryNow r) ∧ (a = (s.dev.setRState r .drained).count (Ctr.regionDrains r))) ∧
    (∃ (s : State) (path : Path) (tag : Nat) (q : Request) (ptr : Nat) (a : Dev), (Starts s (regionForm 0x0F21 8 [(1, 63)] 8) path tag q ptr) ∧ (a = s.dev.started q ptr) ∧ ((a.region q.index).state = .draining ∨ (a.region q.index).state = .drained ∨ ((a.region q.index).state = .run ∧ bit (byteAt q.params 0) 0 = true))) ∧
    (∃ (s : State) (r : Fin 4) (stillBad : List Nat), (s.dev.belfryRuns r = true) ∧ ((s.dev.region r).state = .resetting)) ∧
    (∃ (s : State) (path : Path) (tag : Nat) (q : Request) (ptr : Nat) (a : Dev), (Starts s (regionForm 0x0F22 0 [] 0) path tag q ptr) ∧ (a = s.dev.started q ptr) ∧ ((a.region q.index).state = .drained ∨ (a.region q.index).state = .ready)) :=
  ⟨⟨asking (req 0x0F20 1 1 (leBytes 8 5)), .bellrope, 7, req 0x0F20 1 1 (leBytes 8 5), 0, 5, _,
    by decide +kernel,
    rfl,
      by decide +kernel⟩,
   ⟨onRegion { Region.reset with state := .draining }, 1, _,
    by decide +kernel,
    by decide +kernel,
    by decide +kernel,
    rfl⟩,
   ⟨asking (req 0x0F21 1 1 (leBytes 8 1)), .bellrope, 7, req 0x0F21 1 1 (leBytes 8 1), 0, _,
    by decide +kernel,
    rfl,
    by decide +kernel⟩,
   ⟨onRegion { Region.reset with state := .resetting }, 1, [],
      by decide +kernel⟩,
   ⟨askingOn { Region.reset with state := .drained } (req 0x0F22 1 1 []), .bellrope, 7, req 0x0F22 1 1 [], 0, _,
    by decide +kernel,
    rfl,
    by decide +kernel⟩⟩

theorem wit_PowerStateCommandsComplete :
    (∃ (s : State) (path : Path) (tag : Nat) (q : Request) (ptr target : Nat) (a : Dev), (Starts s (Form.fixed 0x1001 8 [(3, 63)] 0) path tag q ptr) ∧ (a = s.dev.started q ptr) ∧ (target = bits (byteAt q.params 0) 1 0) ∧ (2 ≤ target) ∧ (a.powerRefused target (bit (byteAt q.params 0) 2) = false)) ∧
    (∃ (s : State) (e : Entry) (a : Dev), (s.dev.lanternRuns = true) ∧ (s.dev.lantern.entering = some e) ∧ (e.window = none) ∧ (a = s.dev.sleepAll.parkSteps)) ∧
    (∃ (s : State) (target start w : Nat), (s.dev.lanternRuns = true) ∧ (s.dev.lantern.entering = some ⟨target, start, some w⟩) ∧ (w + 320 ≤ s.dev.lanternNow)) ∧
    (∃ (s : State) (p : Fin 128) (bursts gaps : List Nat), (s.dev.lanternRuns = true) ∧ (isPattern bursts gaps = true)) ∧
    (∃ (s : State) (f t : Nat) (a : Dev), (s.dev.lanternRuns = true) ∧ (s.dev.lantern.exiting = some (f, t)) ∧ (f ≠ 3 ∨ s.dev.boot.stage = .running) ∧ (a = s.dev.modLantern (fun l => { l with state := 0, exiting := none }))) ∧
    (∃ (s : State) (path : Path) (tag : Nat) (q : Request) (ptr : Nat), (Starts s wakeForm path tag q ptr) ∧ (sendsPattern q.params = false)) ∧
    (∃ (s : State) (path : Path) (tag : Nat) (q : Request) (ptr p : Nat) (a : Dev), (Starts s wakeForm path tag q ptr) ∧ (sendsPattern q.params = true) ∧ (p = patternPort q.params) ∧ (a = s.dev.started q ptr) ∧ (a.lantern.state < 2) ∧ ((a.port p).train.state = .disabled ∨ (a.port p).train.state = .detect ∨ (a.port p).train.state = .backoff)) ∧
    (∃ (s : State) (path : Path) (tag : Nat) (q : Request) (ptr : Nat) (a : Dev), (Starts s (Form.fixed 0x1002 0 [] 40) path tag q ptr) ∧ (a = s.dev.started q ptr)) :=
  ⟨⟨asking (req 0x1001 0 0 (leBytes 8 3)), .bellrope, 7, req 0x1001 0 0 (leBytes 8 3), 0, 3, _,
    by decide +kernel,
    rfl,
      by decide +kernel⟩,
   ⟨lamp { onLamp with entering := some ⟨3, 0, none⟩ }, ⟨3, 0, none⟩, _,
    by decide +kernel,
    by decide +kernel,
    by decide +kernel,
    rfl⟩,
   ⟨lamp { onLamp with entering := some ⟨3, 0, some 0⟩ } 1000000000, 3, 0, 0,
      by decide +kernel⟩,
   ⟨lamp onLamp, 3, [1000, 1000, 1000, 1000], [1000, 1000, 1000],
      by decide +kernel⟩,
   ⟨lamp { onLamp with exiting := some (2, 0), state := 2 }, 2, 0, _,
    by decide +kernel,
    by decide +kernel,
    by decide +kernel,
    rfl⟩,
   ⟨asking (req 0x1003 0 0 (zeros 32)), .bellrope, 7, req 0x1003 0 0 (zeros 32), 0,
      by decide +kernel⟩,
   ⟨asking (req 0x1003 0 0 (zeros 24 ++ leBytes 8 0x301)), .bellrope, 7, req 0x1003 0 0 (zeros 24 ++ leBytes 8 0x301), 0, 3, _,
    by decide +kernel,
    by decide +kernel,
    by decide +kernel,
    rfl,
      by decide +kernel⟩,
   ⟨asking (req 0x1002 0 0 []), .bellrope, 7, req 0x1002 0 0 [], 0, _,
    by decide +kernel,
    rfl⟩⟩

theorem wit_StartupAndAttestationComplete :
    (∃ (s : State) (readFails : List Bool) (x : Boot × List (Nat × List Byte)) (a b c : Dev), (s.dev.boot.stage = .released) ∧ (x = s.chooseBoot readFails) ∧ (a = Dev.loadRecord { s.dev with boot := x.1 } x.2) ∧ (b = if a.lantern.retainValid && !x.1.recovery then a.restore else a) ∧ (c = if x.1.recovery then b.raise Isl.warden (Src.chip 0) 1 0 else b)) ∧
    (∃ (s : State) (readFail : Bool) (a : Dev), (s.dev.wardenRuns = true) ∧ (s.dev.gatesRun = true) ∧ (s.dev.unloaded ≠ []) ∧ (s.dev.boot.recovery = false) ∧ (s.dev.boot.engineLoaded = false) ∧ (s.dev.boot.engineFail = false) ∧ (a = forEach (List.range 64) (fun b d => d.modBlock b (fun x => { x with version := s.dev.boot.version, code := slotSection s.flash s.dev.boot.slot 32 })) { s.dev with boot := { s.dev.boot with engineLoaded := true } })) ∧
    (∃ (s : State) (path : Path) (tag : Nat) (q : Request) (ptr : Nat), (s.dev.warden.exec path tag = none) ∧ (Starts s (Form.fixed 0x1110 32 [] 644) path tag q ptr)) ∧
    (∃ (s : State) (path : Path) (tag : Nat) (x : Exec) (b : List Byte), (s.dev.wardenRuns = true) ∧ (s.dev.warden.exec path tag = some x) ∧ (x.opcode = 0x1110) ∧ (b = s.report x.req.params)) ∧
    (∃ (s : State) (path : Path) (tag : Nat) (q : Request) (ptr : Nat), (Starts s (Form.fixed 0x1111 0 [] 196) path tag q ptr)) ∧
    (∃ (s : State) (t : Nat), (s.dev.wardenRuns = true) ∧ (s.dev.boot.resetAt = some t) ∧ (t ≤ s.dev.wardenNow)) :=
  ⟨⟨releasedState, [], _, _, _, _,
    rfl,
    rfl,
    rfl,
    rfl,
    rfl⟩,
   ⟨blockState .resetting, true, _,
    by decide +kernel,
    by decide +kernel,
    by decide +kernel,
    by decide +kernel,
    by decide +kernel,
    by decide +kernel,
    rfl⟩,
   ⟨asking (req 0x1110 0 0 (zeros 32)), .bellrope, 7, req 0x1110 0 0 (zeros 32), 0,
      by decide +kernel⟩,
   ⟨executing (execTagged .bellrope 0x1110 7 0), .bellrope, 7, execTagged .bellrope 0x1110 7 0, _,
    by decide +kernel,
    by decide +kernel,
    by decide +kernel,
    rfl⟩,
   ⟨asking (req 0x1111 0 0 []), .bellrope, 7, req 0x1111 0 0 [], 0,
    by decide +kernel⟩,
   ⟨resetPending, 5,
      by decide +kernel⟩⟩

theorem wit_FlashAndImageCommandsComplete :
    (∃ (s : State) (path : Path) (tag : Nat) (q : Request) (ptr : Nat), (Starts s readForm path tag q ptr) ∧ (4 ≤ flashLen q.params ∧ flashLen q.params ≤ 4080 ∧ flashLen q.params % 4 = 0) ∧ (flashAddr q.params % 4 = 0 ∧ flashAddr q.params < 2 ^ 26)) ∧
    (∃ (s : State) (path : Path) (tag : Nat) (x : Exec) (a n : Nat) (b : Dev), (s.dev.wardenRuns = true) ∧ (s.dev.warden.exec path tag = some x) ∧ (x.opcode = 0x1102) ∧ (a = flashAddr x.req.params + 4096 * x.a) ∧ (n = flashLen x.req.params) ∧ (b = s.dev.emit (.spi 0 a []))) ∧
    (∃ (s t : State) (path : Path) (tag : Nat) (x : Exec) (a : Nat), (s.dev.wardenRuns = true) ∧ (s.dev.warden.exec path tag = some x) ∧ (x.opcode = 0x1102) ∧ (a = flashAddr x.req.params + 4096 * x.a) ∧ (t = State.spoil { s with dev := s.dev.emit (.spi 0 a []) } a 4096)) ∧
    (∃ (s t : State) (path : Path) (tag : Nat) (x : Exec) (page : List Byte), (s.dev.wardenRuns = true) ∧ (s.dev.warden.exec path tag = some x) ∧ (x.opcode = 0x1103) ∧ (page = x.data.take (256 - x.a % 256)) ∧ (t = s.program x.a page) ∧ (Sys2Proof.Machine.flashRead t.flash x.a page.length = page)) ∧
    (∃ (s t : State) (path : Path) (tag : Nat) (x : Exec), (s.dev.wardenRuns = true) ∧ (s.dev.warden.exec path tag = some x) ∧ (x.opcode = 0x1103) ∧ (t = s.spoil x.a (x.data.take (256 - x.a % 256)).length)) ∧
    (∃ (s t : State) (path : Path) (tag : Nat) (readFail : Bool) (x : Exec) (slot : Nat), (s.dev.wardenRuns = true) ∧ (s.dev.warden.exec path tag = some x) ∧ (x.opcode = 0x1104) ∧ (slot = bits (byteAt x.req.params 0) 0 0) ∧ (bit (byteAt x.req.params 0) 2 = false ∨ (s.fuses.ownerFused = false ∧ s.dev.boot.ownerKey.isEmpty = false)) ∧ (t = (s.writeDir slot).burn (bit (byteAt x.req.params 0) 1) (bit (byteAt x.req.params 0) 2))) :=
  ⟨⟨asking (req 0x1101 0 0 (leBytes 8 0x800000000)), .bellrope, 7, req 0x1101 0 0 (leBytes 8 0x800000000), 0,
      by decide +kernel⟩,
   ⟨executing (execTagged .bellrope 0x1102 7 1), .bellrope, 7, execTagged .bellrope 0x1102 7 1, 4096, 0, _,
    by decide +kernel,
    by decide +kernel,
    by decide +kernel,
    by decide +kernel,
    by decide +kernel,
    rfl⟩,
   ⟨executing (execTagged .bellrope 0x1102 7 1), _, .bellrope, 7, execTagged .bellrope 0x1102 7 1, 4096,
    by decide +kernel,
    by decide +kernel,
    by decide +kernel,
    by decide +kernel,
    rfl⟩,
   ⟨executing { execTagged .bellrope 0x1103 7 0x3F0000 with data := [1, 2, 3, 4] }, _, .bellrope, 7, { execTagged .bellrope 0x1103 7 0x3F0000 with data := [1, 2, 3, 4] }, [1, 2, 3, 4],
    by decide +kernel,
    by decide +kernel,
    by decide +kernel,
    by decide +kernel,
    rfl,
    by decide +kernel⟩,
   ⟨executing { execTagged .bellrope 0x1103 7 0x3F0000 with data := [1, 2, 3, 4] }, _, .bellrope, 7, { execTagged .bellrope 0x1103 7 0x3F0000 with data := [1, 2, 3, 4] },
    by decide +kernel,
    by decide +kernel,
    by decide +kernel,
    rfl⟩,
   ⟨executing (execTagged .bellrope 0x1104 7 0), _, .bellrope, 7, false, execTagged .bellrope 0x1104 7 0, 0,
    by decide +kernel,
    by decide +kernel,
    by decide +kernel,
    by decide +kernel,
    by decide +kernel,
    rfl⟩⟩

theorem wit_ErrorEventsComplete :
    (∃ (s : State) (r : Fin 4), (s.dev.scopeRuns (.region r) = true) ∧ (s.dev.wardenRuns = true)) ∧
    (∃ (s : State) (scope : ErrScope) (what : ErrData) (a : Dev), (s.dev.scopeRuns scope = true) ∧ (s.dev.silentError what = false) ∧ (a = s.dev.count (dropsCtr scope))) ∧
    (∃ (s : State) (r : Fin 4) (array bank : Nat) (dropped : List ErrData), (s.dev.scopeRuns (.region r) = true) ∧ (s.dev.quarantine.copying.contains (r.val, array, bank) = true)) ∧
    (∃ (s : State) (a : Dev) (n : Nat), (s.dev.wardenRuns = true) ∧ (n = (s.dev.wardenNow - s.dev.errStart) / 1000000000) ∧ (1 ≤ n) ∧ (a = forEach allRegions (fun r d => (d.limitEvent r 4 r (tgetD d.errRise r (0, 0)).1 d.corrLimit).limitEvent r 5 (4 + r) (tgetD d.errRise r (0, 0)).2 d.hbmCorrLimit) s.dev)) :=
  ⟨⟨onRegion Region.reset, 1,
      by decide +kernel⟩,
   ⟨onRegion Region.reset, .region 1, .tracker 1 5, _,
    by decide +kernel,
    by decide +kernel,
    rfl⟩,
   ⟨copyingBank, 1, 5, 3, [.tracker 1 5],
      by decide +kernel⟩,
   ⟨onRegion Region.reset 3000000000, _, 3,
    by decide +kernel,
    by decide +kernel,
    by decide +kernel,
    rfl⟩⟩

theorem wit_EventCommandsComplete :
    (∃ (s : State) (x : Raise) (rest : List Raise), (s.dev.wardenRuns = true) ∧ (s.dev.raises = x :: rest)) ∧
    (∃ (s : State) (src : Fin 1408) (w : Window), (s.dev.wardenRuns = true) ∧ (tget s.dev.events.windows src = some w) ∧ (w.ends ≤ s.dev.wardenNow)) ∧
    (∃ (s : State) (path : Path) (tag : Nat) (q : Request) (ptr : Nat) (a : Dev) (entries : List (Nat × Nat)), (Starts s mapSetForm path tag q ptr) ∧ (a = s.dev.started q ptr) ∧ (entries = (List.range (mapCount q.params)).map (fun i => (mapFirst q.params + i, field q.params (8 + 8 * i) 8))) ∧ (1 ≤ mapCount q.params ∧ mapCount q.params ≤ 509) ∧ (mapFirst q.params + mapCount q.params ≤ 1408) ∧ (entries.all (fun x => a.mapOk x.2) = true)) ∧
    (∃ (s : State) (path : Path) (tag : Nat) (q : Request) (ptr : Nat) (a : Dev), (Starts s mapReadForm path tag q ptr) ∧ (a = s.dev.started q ptr) ∧ (1 ≤ mapCount q.params ∧ mapCount q.params ≤ 510) ∧ (mapFirst q.params + mapCount q.params ≤ 1408)) ∧
    (∃ (s : State) (path : Path) (tag : Nat) (q : Request) (ptr : Nat) (a : Dev), (Starts s { Form.fixed 0x1203 0 [] 16 with down := Dev.placeDown } path tag q ptr) ∧ (a = s.dev.started q ptr) ∧ ((a.quarantine.reply q.level q.index).length ≤ q.replyMax)) :=
  ⟨⟨raised, oneRaise, [],
      by decide +kernel⟩,
   ⟨heldEvent, 5, ⟨0, 1, oneRaise, oneRaise, true⟩,
      by decide +kernel⟩,
   ⟨asking (req 0x1201 0 0 (leBytes 8 0x10005 ++ leBytes 8 0x40)), .bellrope, 7, req 0x1201 0 0 (leBytes 8 0x10005 ++ leBytes 8 0x40), 0, _, _,
    by decide +kernel,
    rfl,
    rfl,
      by decide +kernel⟩,
   ⟨asking (req 0x1202 0 0 (leBytes 8 0x10005)), .bellrope, 7, req 0x1202 0 0 (leBytes 8 0x10005), 0, _,
    by decide +kernel,
    rfl,
      by decide +kernel⟩,
   ⟨asking (req 0x1203 0 0 []), .bellrope, 7, req 0x1203 0 0 [], 0, _,
    by decide +kernel,
    rfl,
    by decide +kernel⟩⟩

/-! ## Signed commands and verified images

Whether a signature or a digest verifies is open (the algorithms are opaque constants of Config), so these witnesses take it as
their hypothesis: given one that verifies, a state meets the statement's hypotheses. -/

/-- A signed request on Bellrope with nonce 0 and a signature of zeros. -/
def signedReq (op : Nat) (params : List Byte) : Request :=
  let h := leBytes 12 (pack [(1, 4), (1, 4), (0, 8), (op, 16), (7, 16), (0, 16), (params.length, 16), (4080, 16)])
  ⟨.bellrope, 0, h ++ leBytes 4 (Ocm.chk (h ++ zeros 4 ++ params ++ zeros 128)) ++ params ++ zeros 128, none, 0, 0⟩
/-- It waits at a device with an owner key, and nonce 0 is live. -/
def askingSigned (q : Request) : State :=
  at_ { live with warden := { live.warden with nonces := [(0, 10000000000)], intake := [q] },
                  boot := { live.boot with ownerKey := [1] } }
/-- The signature of such a request verifies. -/
def Verifies (q : Request) : Prop := Config.ed448Verify [1] (signedMessage q.bytes) (zeros 114) = true

/-- What such a request must meet beside its signature to start as a command of a form. -/
def SignedReady (q : Request) (f : Form) : Prop :=
  (askingSigned q).dev.startable f .bellrope 7 = some (q, 0) ∧ Ocm.signed q.bytes = true ∧
    sliceBytes (sliceBytes q.bytes (16 + Ocm.paramLen q.bytes) 128) 14 114 = zeros 114 ∧
    (0 == field (sliceBytes q.bytes (16 + Ocm.paramLen q.bytes) 128) 0 8) = true ∧
    (Ocm.row q.opcode).any (fun r => decide (q.needs r ≤ 2)) = true ∧ (askingSigned q).dev.targetDown f q = false ∧
    (f.fits q.params && f.ranged q.params && decide (q.replyMax < f.replyLen q.params)) = false ∧ f.fits q.params = true

theorem signed_starts {q : Request} {f : Form} (hv : Verifies q) (h : SignedReady q f) : Starts (askingSigned q) f .bellrope 7 q 0 := by
  obtain ⟨h1, h2, h3, h4, h5, h6, h7, h8⟩ := h
  refine ⟨h1, ?_⟩
  have hk : (askingSigned q).dev.boot.ownerKey = [1] := rfl
  have hl : (askingSigned q).dev.liveNonces = [(0, 10000000000)] := rfl
  have hg : (askingSigned q).dev.goodSignature q.bytes = true := by
    have hv : Config.ed448Verify [1] (signedMessage q.bytes) (zeros 114) = true := hv
    simp only [Dev.goodSignature, hk, hl, h3, List.any_cons, h4, hv]
    rfl
  have h7' : (f.ranged q.params && decide (q.replyMax < f.replyLen q.params)) = false := by simpa [h8] using h7
  simp only [Dev.judge, h2, hg]
  simp only [Bool.not_true, Bool.and_false, if_true, h6, h7', h8, Bool.true_and]
  cases hr : Ocm.row q.opcode with
  | none => rw [hr] at h5; exact absurd h5 (by simp)
  | some r =>
    have h5' : ¬ 2 < q.needs r := by rw [hr] at h5; simpa using h5
    simp [h5']

set_option maxRecDepth 100000 in
theorem wit_chipReset (hv : Verifies (signedReq 0x1120 (zeros 8))) :
    ∃ (s : State) (path : Path) (tag : Nat) (q : Request) (ptr delay : Nat) (a : Dev), (Starts s (Form.fixed 0x1120 8 [(32, 63)] 0) path tag q ptr) ∧ (a = s.dev.started q ptr) ∧ (delay = if field q.params 0 4 = 0 then 100 else field q.params 0 4) ∧ (100 ≤ delay ∧ delay ≤ 1000000) :=
  ⟨askingSigned (signedReq 0x1120 (zeros 8)), .bellrope, 7, signedReq 0x1120 (zeros 8), 0, 100, _,
    signed_starts hv (by unfold SignedReady; decide +kernel),
    rfl,
      by decide +kernel⟩

set_option maxRecDepth 100000 in
theorem wit_flashErase (hv : Verifies (signedReq 0x1102 (leBytes 8 0x100401000))) :
    ∃ (s : State) (path : Path) (tag : Nat) (q : Request) (ptr a n : Nat) (b : Dev), (s.dev.warden.exec path tag = none) ∧ (Starts s (Form.fixed 0x1102 8 [] 0) path tag q ptr) ∧ (a = flashAddr q.params) ∧ (n = flashLen q.params) ∧ (a % 4096 = 0) ∧ (1 ≤ n ∧ n ≤ 16384) ∧ ((s.dev.started q ptr).boot.protects a (4096 * n) = false) ∧ (b = (s.dev.started q ptr).emit (.spi 0 a [])) :=
  ⟨askingSigned (signedReq 0x1102 (leBytes 8 0x100401000)), .bellrope, 7, signedReq 0x1102 (leBytes 8 0x100401000), 0, 0x401000, 1, _,
    rfl,
    signed_starts hv (by unfold SignedReady; decide +kernel),
    by decide +kernel,
    by decide +kernel,
    by decide +kernel,
    by decide +kernel,
    by decide +kernel,
    rfl⟩

/-- A signed write of one word at 0x3F0000. -/
def writeReq : Request := signedReq 0x1103 (leBytes 4 0x3F0000 ++ leBytes 4 4 ++ leBytes 4 0x12345678)
set_option maxRecDepth 100000 in
theorem wit_flashWrite (hv : Verifies writeReq) :
    ∃ (s t : State) (path : Path) (tag : Nat) (q : Request) (ptr a n : Nat) (data page : List Byte), (s.dev.warden.exec path tag = none) ∧ (Starts s writeForm path tag q ptr) ∧ (a = flashAddr q.params) ∧ (n = flashLen q.params) ∧ (a % 4 = 0 ∧ n % 4 = 0 ∧ n ≤ 3944 ∧ n ≠ 0) ∧ ((s.dev.started q ptr).boot.protects a n = false) ∧ (data = sliceBytes q.params 8 n) ∧ (page = data.take (256 - a % 256)) ∧ (t = State.program { s with dev := s.dev.started q ptr } a page) ∧ (Sys2Proof.Machine.flashRead t.flash a page.length = page) :=
  ⟨askingSigned writeReq, (State.program { askingSigned writeReq with dev := (askingSigned writeReq).dev.started writeReq 0 } 0x3F0000
      (sliceBytes writeReq.params 8 4)), .bellrope, 7, writeReq, 0, 0x3F0000, 4, sliceBytes writeReq.params 8 4, sliceBytes writeReq.params 8 4,
    rfl,
    signed_starts hv (by unfold SignedReady; decide +kernel),
    by decide +kernel,
    by decide +kernel,
    by decide +kernel,
    by decide +kernel,
    rfl,
    by decide +kernel,
    rfl,
    by decide +kernel⟩

set_option maxRecDepth 100000 in
theorem wit_eventInject (hv : Verifies (signedReq 0x1204 (zeros 16))) :
    ∃ (s : State) (path : Path) (tag : Nat) (q : Request) (ptr : Nat) (a : Dev), (Starts s (Form.fixed 0x1204 16 [(32, 63)] 0) path tag q ptr) ∧ (a = s.dev.started q ptr) ∧ (Src.reserved (field q.params 0 2) = false) :=
  ⟨askingSigned (signedReq 0x1204 (zeros 16)), .bellrope, 7, signedReq 0x1204 (zeros 16), 0, _,
    signed_starts hv (by unfold SignedReady; decide +kernel),
    rfl,
    by decide +kernel⟩

set_option maxRecDepth 100000 in
theorem wit_imageActivate (flash : List Host.Cell) (hf : imageFail flash ⟨0, false, []⟩ 0 false = 0) (hv : Verifies (signedReq 0x1104 (zeros 8))) :
    ∃ (s : State) (path : Path) (tag : Nat) (q : Request) (ptr : Nat), (s.dev.warden.exec path tag = none) ∧ (Starts s (Form.fixed 0x1104 8 [(3, 63)] 8) path tag q ptr) ∧ (imageFail s.flash s.fuses (bits (byteAt q.params 0) 0 0) false = 0) :=
  ⟨{ askingSigned (signedReq 0x1104 (zeros 8)) with flash := flash }, .bellrope, 7, signedReq 0x1104 (zeros 8), 0,
    rfl,
    signed_starts hv (by unfold SignedReady; decide +kernel),
    hf⟩

theorem wit_blockLoad (flash : List Host.Cell) (hf : imageFail flash ⟨0, false, []⟩ 0 false = 0) :
    ∃ (s : State) (path : Path) (tag : Nat) (q : Request) (ptr slot version : Nat) (a : Dev), (Starts s (blockForm 0x0F11 [(33, 39), (40, 63), (96, 127)]) path tag q ptr) ∧ (a = s.dev.started q ptr) ∧ (slot = bits (byteAt q.params 4) 0 0) ∧ (version = hdrVersion (slotHeader s.flash slot)) ∧ (field q.params 0 4 ≤ 1000000) ∧ (a.blockHeld q.index = false) ∧ (imageFail s.flash s.fuses slot false = 0) ∧ (field q.params 8 4 = 0 ∨ field q.params 8 4 = version) ∧ (((a.versionsOf (q.index / 16)).filter (fun v => v != version)).length < 2) :=
  have h : Starts (asking (req 0x0F11 2 17 (zeros 16))) (blockForm 0x0F11 [(33, 39), (40, 63), (96, 127)]) .bellrope 7 (req 0x0F11 2 17 (zeros 16)) 0 := by decide +kernel
  ⟨{ asking (req 0x0F11 2 17 (zeros 16)) with flash := flash }, .bellrope, 7, req 0x0F11 2 17 (zeros 16), 0, 0, _, _, h, rfl, by decide +kernel, rfl, by decide +kernel,
    (by decide +kernel : ((asking (req 0x0F11 2 17 (zeros 16))).dev.started (req 0x0F11 2 17 (zeros 16)) 0).blockHeld (req 0x0F11 2 17 (zeros 16)).index = false), hf, Or.inl (by decide +kernel), Nat.lt_of_le_of_lt (List.length_filter_le _ _)
      (by decide +kernel : (((asking (req 0x0F11 2 17 (zeros 16))).dev.started (req 0x0F11 2 17 (zeros 16)) 0).versionsOf ((req 0x0F11 2 17 (zeros 16)).index / 16)).length < 2)⟩

end Sys2Proof.Tests
end

section
/-! The nanosecond that passes when no command waits (00 R13): where a region's Belfry has nothing to do by itself, its tick steps
the LFSR twice and counts its stopped VCs, and the four regions' ticks do not meet. -/

namespace Sys2Proof.Machine

@[simp] theorem forEach_nil {α β : Type} (f : α → β → β) (b : β) : forEach [] f b = b := rfl
@[simp] theorem forEach_cons {α β : Type} (x : α) (xs : List α) (f : α → β → β) (b : β) :
    forEach (x :: xs) f b = forEach xs f (f x b) := rfl

/-! ## Counting a list of counters -/

/-- Each counter of a list incremented once. -/
def Dev.countEach (d : Dev) (ns : List Nat) : Dev := forEach ns (fun n d => d.count n) d

@[simp] theorem Dev.countEach_nil (d : Dev) : d.countEach [] = d := rfl
@[simp] theorem Dev.countEach_cons (d : Dev) (n : Nat) (ns : List Nat) : d.countEach (n :: ns) = (d.count n).countEach ns := rfl
theorem Dev.countEach_append (d : Dev) (ns ms : List Nat) : d.countEach (ns ++ ms) = (d.countEach ns).countEach ms := by
  simp [Dev.countEach, forEach]

theorem Dev.countEach_frame (d : Dev) (ns : List Nat) : ∃ cs, d.countEach ns = { d with counters := cs } := by
  induction ns generalizing d with
  | nil => exact ⟨d.counters, rfl⟩
  | cons n ns ih =>
    obtain ⟨cs, h⟩ := ih (d.count n)
    exact ⟨cs, by rw [Dev.countEach_cons, h]; rfl⟩

@[simp] theorem Dev.countEach_port (d : Dev) (ns : List Nat) (p : Nat) : (d.countEach ns).port p = d.port p := by
  obtain ⟨cs, h⟩ := d.countEach_frame ns
  rw [h]; rfl
@[simp] theorem Dev.countEach_region (d : Dev) (ns : List Nat) (r : Nat) : (d.countEach ns).region r = d.region r := by
  obtain ⟨cs, h⟩ := d.countEach_frame ns
  rw [h]; rfl

theorem Dev.countEach_counter (d : Dev) {ns : List Nat} (hn : ns.Nodup) (m : Nat) :
    (d.countEach ns).counter m = if m ∈ ns then (d.counter m + 1) % 2 ^ 64 else d.counter m := by
  induction ns generalizing d with
  | nil => rfl
  | cons n ns ih =>
    obtain ⟨hnot, hns⟩ := List.nodup_cons.1 hn
    rw [Dev.countEach_cons, ih _ hns]
    by_cases hm : m = n
    · subst hm; simp [hnot]
    · simp [hm, Dev.count_other]

/-! ## The counters of the stopped VCs of a region -/

theorem mem_portsOf {p r : Nat} : p ∈ portsOf r ↔ p / 32 = r := by
  simp only [portsOf, List.mem_map, List.mem_range]
  constructor
  · rintro ⟨a, ha, rfl⟩; omega
  · rintro rfl; exact ⟨p % 32, by omega, by omega⟩

theorem portsOf_nodup (r : Nat) : (portsOf r).Nodup :=
  List.pairwise_map.2 (List.nodup_range.imp fun hne h => hne (Nat.add_left_cancel h))

theorem mem_setBits {x n i : Nat} : i ∈ setBits x n ↔ i < n ∧ bit x i = true := by simp [setBits]

theorem setBits_nodup (x n : Nat) : (setBits x n).Nodup := List.nodup_range.filter _

theorem Ctr.stopNs_inj {p q v w : Nat} (hv : v < 20) (hw : w < 20) (h : Ctr.stopNs p v = Ctr.stopNs q w) : p = q ∧ v = w := by
  simp only [Ctr.stopNs, Ctr.portBase] at h; omega

/-- STOP_NS of each VC that an input of a port stops. -/
def Dev.portStops (d : Dev) (p : Nat) : List Nat := (setBits (d.port p).stopSent 20).map (Ctr.stopNs p)

/-- STOP_NS of each VC that an input of a region stops, while its Belfry island runs. -/
def Dev.regionStops (d : Dev) (r : Nat) : List Nat := if d.belfryRuns r then (portsOf r).flatMap d.portStops else []

theorem Dev.mem_portStops {d : Dev} {p n : Nat} :
    n ∈ d.portStops p ↔ ∃ v, v < 20 ∧ bit (d.port p).stopSent v = true ∧ Ctr.stopNs p v = n := by
  simp [Dev.portStops, mem_setBits, and_assoc]

theorem Dev.mem_regionStops {d : Dev} {r n : Nat} :
    n ∈ d.regionStops r ↔ d.belfryRuns r = true ∧ ∃ p, p / 32 = r ∧ n ∈ d.portStops p := by
  unfold Dev.regionStops
  split <;> simp_all [mem_portsOf]

theorem Dev.stopNs_mem_portStops {d : Dev} {p q v : Nat} (hv : v < 20) :
    Ctr.stopNs p v ∈ d.portStops q ↔ q = p ∧ bit (d.port p).stopSent v = true := by
  rw [Dev.mem_portStops]
  constructor
  · rintro ⟨w, hw, hb, h⟩
    obtain ⟨rfl, rfl⟩ := Ctr.stopNs_inj hw hv h
    exact ⟨rfl, hb⟩
  · rintro ⟨rfl, hb⟩; exact ⟨v, hv, hb, rfl⟩

theorem Dev.stopNs_mem_regionStops {d : Dev} {p v r : Nat} (hv : v < 20) :
    Ctr.stopNs p v ∈ d.regionStops r ↔ d.belfryRuns r = true ∧ p / 32 = r ∧ bit (d.port p).stopSent v = true := by
  rw [Dev.mem_regionStops]
  constructor
  · rintro ⟨hr, q, hq, hm⟩
    obtain ⟨rfl, hb⟩ := (Dev.stopNs_mem_portStops hv).1 hm
    exact ⟨hr, hq, hb⟩
  · rintro ⟨hr, hp, hb⟩; exact ⟨hr, p, hp, (Dev.stopNs_mem_portStops hv).2 ⟨rfl, hb⟩⟩

theorem Dev.portStops_nodup (d : Dev) (p : Nat) : (d.portStops p).Nodup :=
  List.pairwise_map.2 ((setBits_nodup _ _).imp fun hne h => hne (Nat.add_left_cancel h))

theorem Dev.portStops_disjoint {d : Dev} {p q n : Nat} (h : p ≠ q) (hp : n ∈ d.portStops p) : n ∉ d.portStops q := by
  obtain ⟨v, hv, -, rfl⟩ := Dev.mem_portStops.1 hp
  exact fun hq => h ((Dev.stopNs_mem_portStops hv).1 hq).1.symm

theorem Dev.regionStops_nodup (d : Dev) (r : Nat) : (d.regionStops r).Nodup := by
  unfold Dev.regionStops
  split
  · refine List.pairwise_flatMap.2 ⟨fun p _ => d.portStops_nodup p, (portsOf_nodup r).imp fun hne n hn m hm h => ?_⟩
    exact Dev.portStops_disjoint hne hn (h ▸ hm)
  · exact List.nodup_nil

theorem Dev.regionStops_disjoint {d : Dev} {r q n : Nat} (h : r ≠ q) (hr : n ∈ d.regionStops r) : n ∉ d.regionStops q := by
  obtain ⟨-, p, rfl, hp⟩ := Dev.mem_regionStops.1 hr
  obtain ⟨v, hv, -, rfl⟩ := Dev.mem_portStops.1 hp
  exact fun hq => h ((Dev.stopNs_mem_regionStops hv).1 hq).2.1

/-! ## The tick of a region that has nothing to do by itself -/

/-- No port of a region trains or is in LIMP, no internal flit waits for its pool and no swap of its banks is planned. -/
def Dev.Quiet (d : Dev) (r : Nat) : Prop :=
  (d.region r).poolWaits = [] ∧ (d.region r).swaps = [] ∧
    ∀ p ∈ portsOf r, (d.port p).train.state.training = false ∧ (d.port p).train.state ≠ .limp

/-- A region whose LFSR has stepped twice (05 R153). -/
def Region.lfsrTwice (x : Region) : Region := { x with lfsr := lfsrStep (lfsrStep x.lfsr) }

theorem Dev.tickPort_quiet {d : Dev} {p : Nat} (ht : (d.port p).train.state.training = false) (hl : (d.port p).train.state ≠ .limp) :
    d.tickPort p = d := by
  simp [Dev.tickPort, ht, hl]

theorem Dev.tickPorts_quiet {d : Dev} {ps : List Nat}
    (h : ∀ p ∈ ps, (d.port p).train.state.training = false ∧ (d.port p).train.state ≠ .limp) :
    forEach ps (fun p d => d.tickPort p) d = d := by
  induction ps with
  | nil => rfl
  | cons p ps ih =>
    obtain ⟨⟨ht, hl⟩, hps⟩ := List.forall_mem_cons.1 h
    rw [forEach_cons, Dev.tickPort_quiet ht hl, ih hps]

/-- Counting the stopped VCs port by port counts the numbers of them all: no count changes a port. -/
theorem Dev.countStops_eq (d : Dev) (ps : List Nat) :
    forEach ps (fun p d => forEach (setBits (d.port p).stopSent 20) (fun v d => d.count (Ctr.stopNs p v)) d) d =
      d.countEach (ps.flatMap d.portStops) := by
  induction ps generalizing d with
  | nil => rfl
  | cons p ps ih =>
    have hp : forEach (setBits (d.port p).stopSent 20) (fun v d => d.count (Ctr.stopNs p v)) d = d.countEach (d.portStops p) := by
      simp [Dev.countEach, Dev.portStops, forEach, List.foldl_map]
    have hs : (d.countEach (d.portStops p)).portStops = d.portStops := by
      funext q; simp [Dev.portStops]
    rw [forEach_cons, hp, ih, hs, ← Dev.countEach_append, List.flatMap_cons]

theorem Dev.tickRegion_quiet {d : Dev} {r : Nat} (hr : d.belfryRuns r = true) (hq : d.Quiet r) :
    d.tickRegion r = (d.modRegion r Region.lfsrTwice).countEach (d.regionStops r) := by
  obtain ⟨hpool, hswaps, hports⟩ := hq
  have hserve : d.poolServe r (d.region r).poolWaits.length = d := by rw [hpool]; rfl
  have hdue : d.dueSwaps r = d := by simp [Dev.dueSwaps, hswaps, forEach]
  simp only [Dev.tickRegion, hr, hserve, hdue, Dev.tickPorts_quiet hports, Dev.countStops_eq, Dev.regionStops]
  rfl

theorem Dev.tickRegion_stopped {d : Dev} {r : Nat} (hr : d.belfryRuns r = false) : d.tickRegion r = d := by
  simp [Dev.tickRegion, hr]

/-! ## The regions one after the other -/

/-- What the ticks of the quiet regions of a list make of a device. -/
structure Dev.Ticked (d : Dev) (rs : List Nat) (e : Dev) : Prop where
  frame : ∃ rgs cs, e = { d with regions := rgs, counters := cs }
  region : ∀ r, e.region r = if r ∈ rs ∧ d.belfryRuns r = true then (d.region r).lfsrTwice else d.region r
  counter : ∀ n, e.counter n = if n ∈ rs.flatMap d.regionStops then (d.counter n + 1) % 2 ^ 64 else d.counter n

theorem Dev.Ticked.start (d : Dev) : d.Ticked [] d := ⟨⟨_, _, rfl⟩, fun r => by simp, fun n => by simp⟩

theorem Dev.Ticked.step {d e : Dev} {rs : List Nat} {r : Nat} (h : d.Ticked rs e) (hr : r ∉ rs)
    (hq : d.belfryRuns r = true → d.Quiet r) : d.Ticked (rs ++ [r]) (e.tickRegion r) := by
  obtain ⟨⟨rgs, cs, he⟩, hregion, hcounter⟩ := h
  have hports : e.port = d.port := by rw [he]; rfl
  have hruns : e.belfryRuns = d.belfryRuns := by rw [he]; rfl
  have hstops : e.regionStops r = d.regionStops r := by rw [he]; rfl
  have hown : e.region r = d.region r := by simp [hregion, hr]
  cases hb : d.belfryRuns r with
  | false =>
    have hnone : d.regionStops r = [] := by simp [Dev.regionStops, hb]
    rw [Dev.tickRegion_stopped (by rw [hruns, hb])]
    refine ⟨⟨rgs, cs, he⟩, fun q => ?_, fun n => by simp [hcounter, hnone]⟩
    by_cases hqr : q = r
    · subst hqr; simp [hown, hb]
    · simp [hregion, hqr]
  | true =>
    have heq : e.Quiet r := by simpa only [Dev.Quiet, hown, hports] using hq hb
    rw [Dev.tickRegion_quiet (by rw [hruns, hb]) heq, hstops]
    refine ⟨?_, fun q => ?_, fun n => ?_⟩
    · obtain ⟨cs', hc⟩ := (e.modRegion r Region.lfsrTwice).countEach_frame (d.regionStops r)
      exact ⟨(e.modRegion r Region.lfsrTwice).regions, cs', by rw [hc, he]; rfl⟩
    · by_cases hqr : q = r
      · subst hqr; simp [hown, hb]
      · simp [Dev.modRegion_other, hregion, hqr]
    · rw [Dev.countEach_counter _ (d.regionStops_nodup r)]
      by_cases hn : n ∈ d.regionStops r
      · have hbefore : n ∉ rs.flatMap d.regionStops := by
          rw [List.mem_flatMap]
          rintro ⟨q, hq, hnq⟩
          have hne : r ≠ q := fun h => hr (h ▸ hq)
          exact Dev.regionStops_disjoint hne hn hnq
        simp [hn, hcounter, hbefore]
      · simp [hn, hcounter]

theorem Dev.Ticked.steps {d e : Dev} {rs ss : List Nat} (h : d.Ticked rs e) (hn : (rs ++ ss).Nodup)
    (hq : ∀ r, d.belfryRuns r = true → d.Quiet r) : d.Ticked (rs ++ ss) (forEach ss (fun r d => d.tickRegion r) e) := by
  induction ss generalizing rs e with
  | nil => simpa using h
  | cons r ss ih =>
    obtain ⟨-, -, hapart⟩ := List.nodup_append.1 hn
    have hr : r ∉ rs := fun hm => hapart r hm r List.mem_cons_self rfl
    have hstep := ih (h.step hr (hq r)) (by simpa using hn)
    simpa using hstep

theorem Dev.tick_quiet {d : Dev} (hq : ∀ r, d.belfryRuns r = true → d.Quiet r) :
    Dev.Ticked { d with now := (d.now + 1) % 2 ^ 64 } allRegions d.tick :=
  (Dev.Ticked.start _).steps (by decide) hq

theorem mem_allRegions {r : Nat} : r ∈ allRegions ↔ r < 4 := by
  simp only [allRegions, List.mem_cons, List.not_mem_nil, or_false]; omega

/-- Settles O9: the four regions' ticks are independent, and each one changes its own LFSR and its own STOP_NS alone. -/
theorem emptyQueueLetsOneNanosecondPass : Obligations.EmptyQueueLetsOneNanosecondPass := by
  intro s hpending
  have hstep : step s = tick s := by simp [step, hpending]
  refine ⟨fun hoff => ?_, fun hon => ⟨s.dev.tick, ?_, fun hquiet => ?_⟩⟩
  · simp [hstep, tick, actIf, act, hoff]
  · simp [hstep, tick, actIf, act, hon]
  · obtain ⟨⟨rgs, cs, hframe⟩, hregion, hcounter⟩ := Dev.tick_quiet (d := s.dev) hquiet
    refine ⟨by rw [hframe], fun r => ?_, fun p v => ?_, fun n hn => ?_⟩
    · rw [hregion]; simp only [mem_allRegions, Bool.and_eq_true, decide_eq_true_eq]; rfl
    · have hp : (p : Nat) / 32 < 4 := by omega
      rw [hcounter]
      simp only [List.mem_flatMap, Dev.stopNs_mem_regionStops v.isLt, mem_allRegions, Bool.and_eq_true]
      congr 1
      simp only [eq_iff_iff]
      exact ⟨fun ⟨_, _, hb, h, hv⟩ => ⟨h ▸ hb, hv⟩, fun ⟨hb, hv⟩ => ⟨_, hp, hb, rfl, hv⟩⟩
    · rw [hcounter, if_neg]
      · rfl
      · simp only [List.mem_flatMap, mem_allRegions, Dev.mem_regionStops, Dev.mem_portStops]
        rintro ⟨_, hr, -, p, rfl, v, hv, -, rfl⟩
        exact hn ⟨p, by omega⟩ ⟨v, hv⟩ rfl

end Sys2Proof.Machine
end

section
/-! What the access codes make of a write (00 R7), and which bits an EVT_PEND write clears (18 R548). -/

namespace Sys2Proof.Machine

/-! ## Chip-level registers -/

@[simp] theorem ChipRegs.get_set_same (x : ChipRegs) (v : Reg) (c : ChipReg) : (x.set v c).get c = v := by cases c <;> rfl

theorem ChipRegs.get_set_other (x : ChipRegs) (v : Reg) {c c' : ChipReg} (h : c' ≠ c) : (x.set v c).get c' = x.get c' := by
  cases c <;> cases c' <;> simp [ChipRegs.set, ChipRegs.get] at h ⊢

/-- Outside a twin pair a chip-level register takes its RW fields whole. -/
theorem Dev.writeChip_untwinned {d : Dev} {c : ChipReg} (h : c = .pilotCtrl → d.twin.state = .off) (v : Reg) :
    d.writeChip c v = { d with chip := d.chip.set (v &&& chipMask c) c } := by
  have hown : ¬ (c = .pilotCtrl ∧ d.twin.state ≠ .off) := fun ⟨hc, hs⟩ => hs (h hc)
  simp only [Dev.writeChip, if_neg hown, BitVec.not_zero, BitVec.and_allOnes, BitVec.and_zero, BitVec.or_zero]

/-! ## Registers of gates and ports -/

theorem Dev.writeGateCtrl_running (d : Dev) (e : Nat) {v : Reg} (h : rbit v 0 = false) :
    ((d.writeGateCtrl e v).ep e).gateCtrl = v &&& 0x0000FFFF07FF000E#64 := by
  simp [Dev.writeGateCtrl, h]

theorem putBit_self (x i : Nat) : putBit x i (bit x i) = x := by simp [putBit]

theorem rbit_eq_bit (v : Reg) (i : Nat) : rbit v i = bit v.toNat i := (bit_eq_testBit _ _).symm

/-- ENABLE set to what it is leaves PORT_CTRL as it is. -/
theorem Dev.portEnable_same_ctrl {d : Dev} {p : Nat} {on : Bool} (h : (d.port p).enable = on) :
    ((d.portEnable p on).port p).ctrl = (d.port p).ctrl := by
  subst h
  simp [Dev.portEnable, Port.enable, rbit_eq_bit, putBit_self]

/-- PORT_CTRL's other RW fields, with ENABLE as it was, are all its RW fields when ENABLE is written as it was. -/
theorem portCtrl_fields {v x : Reg} (h : rbit v 0 = rbit x 0) :
    (v &&& 0x0000FFFFFFFF02FE#64) ||| (x &&& 1#64) = v &&& 0x0000FFFFFFFF02FF#64 := by
  have hone : x &&& 1#64 = v &&& 1#64 := by
    simp only [rbit] at h
    rw [BitVec.and_one_eq_setWidth_ofBool_getLsbD, BitVec.and_one_eq_setWidth_ofBool_getLsbD, h]
  rw [hone, ← BitVec.and_or_distrib_left]
  rfl

theorem Dev.writePortCtrl_steady {d : Dev} {p : Nat} {v : Reg} (he : rbit v 0 = (d.port p).enable) (hr : rbit v 8 = false) :
    ((d.writePortCtrl p v).port p).ctrl = v &&& 0x0000FFFFFFFF02FF#64 := by
  have hfields := portCtrl_fields he
  have henable : rbit (v &&& 0x0000FFFFFFFF02FF#64) 0 = rbit v 0 := by simp [rbit]
  simp only [Dev.writePortCtrl, hr, Bool.false_eq_true, if_false]
  rw [Dev.portEnable_same_ctrl] <;> simp [Port.enable, hfields, henable]

/-! ## EVT_PEND -/

theorem bit_clearBits (ns : List Nat) (m s : Nat) :
    bit (ns.foldl (fun m n => putBit m n false) m) s = (bit m s && !decide (s ∈ ns)) := by
  induction ns generalizing m with
  | nil => simp
  | cons n ns ih =>
    rw [List.foldl_cons, ih]
    by_cases h : s = n
    · subst h; simp
    · simp [h, bit_putBit_other]

/-- The bits set in word `w` of a mask, by their numbers in it. -/
theorem mem_wordBits {x w s : Nat} : s ∈ (setBits x 64).map (64 * w + ·) ↔ s / 64 = w ∧ bit x (s % 64) = true := by
  simp only [List.mem_map, mem_setBits]
  constructor
  · rintro ⟨i, ⟨hi, hb⟩, rfl⟩
    have hmod : (64 * w + i) % 64 = i := by omega
    exact ⟨by omega, by rwa [hmod]⟩
  · rintro ⟨rfl, hb⟩; exact ⟨s % 64, ⟨by omega, hb⟩, by omega⟩

theorem Dev.pendClear_eq (d : Dev) (e w : Nat) (v : Reg) : ∃ m : Nat,
    d.pendClear e w v.toNat = (d.modEvents (fun x => { x with pending := m })).refreshSummaries ∧
    ∀ s : Nat, bit m s = (bit d.events.pending s &&
      !(decide (s / 64 = w) && rbit v (s % 64) && decide (s < 1408) && mapEp (d.evtMap s) == e && !d.justSet s)) := by
  refine ⟨_, rfl, fun s => ?_⟩
  rw [bit_clearBits]
  congr 2
  rw [Bool.eq_iff_iff]
  simp only [decide_eq_true_eq, List.mem_filter, mem_wordBits, rbit_eq_bit, Bool.and_eq_true, and_assoc]

/-- Settles O11: a register reads as the field that its write fills, and EVT_PEND clears the bits of the sources it lists. -/
theorem registersFollowTheirAccessCodes : Obligations.RegistersFollowTheirAccessCodes := by
  refine ⟨fun d e w k v a ha => ?_, fun d f e c v htwin => ⟨?_, fun c' hc => ?_⟩, fun d f e v => ⟨rfl, rfl, fun hstop => ?_⟩,
    fun d f e p v => ⟨?_, fun hen hre => ?_⟩, fun d f e q => ⟨rfl, rfl, rfl⟩, fun d e w v => d.pendClear_eq e w v⟩
  · simp only [List.mem_cons, List.not_mem_nil, or_false] at ha
    rcases ha with rfl | rfl | rfl | rfl | rfl | rfl | rfl | rfl | rfl | rfl | rfl | rfl | rfl | rfl | rfl | rfl | rfl | rfl | rfl |
      rfl | rfl | rfl | rfl <;> rfl
  · simp [Dev.writeReg, Dev.regValue, Dev.writeChip_untwinned htwin]
  · simp [Dev.writeReg, Dev.regValue, Dev.writeChip_untwinned htwin, ChipRegs.get_set_other _ _ hc]
  · exact congrArg BitVec.toNat (d.writeGateCtrl_running e hstop)
  · simp [Dev.writeReg, Dev.regValue, Dev.writePort, Dev.portWord]
  · exact congrArg BitVec.toNat (Dev.writePortCtrl_steady hen hre)

end Sys2Proof.Machine
end

section
/-! What the register and counter commands and the accesses of BAR0 do where their operands are admitted (07 R203, R204,
14 R449 to R452). -/

namespace Sys2Proof.Machine

/-! ## What a row answers -/

/-- A row on the device alone that acts answers its device. -/
theorem answers_actIf {c : Instr} {s : State} {g : Dev → Bool} {f : Dev → Dev} {d : Dev} (hc : exec c s = actIf g f s)
    (hg : g s.dev = true) (hf : f s.dev = d) : Answers c s (fun e => e = d) :=
  ⟨d, by simp [hc, actIf, act, hg, hf], rfl⟩

theorem answers_registerWrite {s : State} {ep : Fin 16} {acc : BarAccess} {d : Dev} (hup : s.dev.epUp ep = true)
    (hd : s.dev.barAccess s.fuses ep acc = d) : Answers (.registerWrite ep acc) s (fun e => e = d) :=
  answers_actIf (g := fun d => d.epUp ep) (f := fun d => d.barAccess s.fuses ep acc) rfl hup hd

/-- A command that starts and ends with its own body answers the body's device with its final reply. -/
theorem answers_command {c : Instr} {s : State} {f : Form} {path : Path} {tag : Nat} {body : Dev → Request → Dev × Answer} {q : Request}
    {ptr st : Nat} {e : Dev} {ps : List Byte} (hc : exec c s = command f path tag body s) (h : Starts s f path tag q ptr)
    (hb : body (s.dev.started q ptr) q = (e, .done st ps)) : Answers c s (fun d => d = e.finish path tag st ps) :=
  ⟨_, hc.trans (command_done h hb), rfl⟩

/-- The same of a command whose body reads the whole state and changes the device alone. -/
theorem answers_start {c : Instr} {s : State} {f : Form} {path : Path} {tag : Nat} {body : State → Request → State × Answer} {q : Request}
    {ptr st : Nat} {e : Dev} {ps : List Byte} (hc : exec c s = .next (s.startCommand f path tag body)) (h : Starts s f path tag q ptr)
    (hb : body { s with dev := s.dev.started q ptr } q = ({ s with dev := e }, .done st ps)) :
    Answers c s (fun d => d = e.finish path tag st ps) :=
  ⟨_, hc.trans (congrArg _ (start_done (t := { s with dev := e }) h hb)), rfl⟩

/-! ## The bodies of the commands -/

theorem countOk_iff {n : Nat} : countOk n = true ↔ 1 ≤ n ∧ n ≤ 256 := decide_eq_true_iff

theorem State.regRead_admitted {s : State} {q : Request} (ha : s.dev.addrOk (field q.params 0 8) = true)
    (hn : countOk (regCount q.params) = true) :
    s.regRead q = ((s.readRange (field q.params 0 8) (regCount q.params)).1,
      .done Ocm.ok (s.readRange (field q.params 0 8) (regCount q.params)).2) := by
  simp [State.regRead, ha, hn]

theorem Dev.regWrite_admitted {d : Dev} {q : Request} (ha : d.addrOk (field q.params 0 8) = true)
    (hn : countOk (regCount q.params) = true) :
    d.regWrite q = (forEach (List.range (regCount q.params)) (fun i d => d.writeReg (addrEp (field q.params 0 8))
      (regOf (field q.params 0 8) i) (BitVec.ofNat 64 (field q.params (16 + 8 * i) 8))) d, .done Ocm.ok []) := by
  simp [Dev.regWrite, ha, hn]

theorem Dev.counterRead_admitted {d : Dev} {q : Request} (hn : countOk (counterCount q.params) = true) :
    d.counterRead q = (if bit (byteAt q.params 6) 0 then d.clearCounters (counterFirst q.params) (counterCount q.params) else d,
      .done Ocm.ok ((List.range (counterCount q.params)).flatMap (fun i => leBytes 8 (d.counterValue (counterFirst q.params + i))))) := by
  simp [Dev.counterRead, hn]

theorem Dev.counterClear_admitted {d : Dev} {q : Request} (hn : 1 ≤ clearCount q.params ∧ clearCount q.params ≤ 1048576) :
    d.counterClear q = (d.clearCounters (counterFirst q.params) (clearCount q.params), .done Ocm.ok []) := by
  simp [Dev.counterClear, clearCountOk, hn]

/-! ## Accesses of BAR0 -/

theorem barSize_eight {off : Nat} (h : off % 8 = 0) : barSize off 8 = true := by simp [barSize, h]

/-- A BAR0 write of an admitted size that has its privilege and reaches its island, outside the aperture. -/
theorem Dev.bar0Write_admitted {d : Dev} {e off size : Nat} {v : Reg} (hopen : d.barOpen e = true) (ha : ∀ o, barReg off ≠ .aperture o)
    (hsize : barSize off size = true) (hpriv : needsPriv off = false ∨ d.priv e = true) (hreach : d.barReaches e (barReg off) = true) :
    d.bar0Write e off size v =
      if size = 8 then d.writeReg e (barReg off) v else d.writeHalf e (barReg off) (off % 8 == 4) v.toNat := by
  have hp : (needsPriv off && !d.priv e) = false := by rcases hpriv with h | h <;> simp [h]
  simp only [Dev.bar0Write, hopen]
  simp [hsize, hp, hreach]

theorem Dev.bar0Read_admitted {d : Dev} {f : Fuses} {e off : Nat} (hopen : d.barOpen e = true) (ha : ∀ o, barReg off ≠ .aperture o)
    (hoff : off % 8 = 0) (hreach : d.barReaches e (barReg off) = true) :
    d.bar0Read f e off 8 = d.sendData e (some (leBytes 8 (d.regValue f e (barReg off)))) := by
  simp only [Dev.bar0Read, hopen]
  simp [barSize_eight hoff, hreach, hoff]

theorem barReg_evtPend : ∀ w : Fin 22, barReg (0x1100000 + 8 * w) = .evtPend w := by decide

theorem needsPriv_evtPend (w : Fin 22) : needsPriv (0x1100000 + 8 * w) = false := by
  simp only [needsPriv, inWindow, Bool.or_eq_false_iff, decide_eq_false_iff_not]; omega

theorem barReg_counter {n : Nat} (h : n < 2 ^ 19) : barReg (0x400000 + 8 * n) = .counter n := by
  have h0 : ¬ 0x400000 + 8 * n < 16 := by omega
  have hlow : ∀ lo k, lo + k ≤ 0x400000 → inWindow (0x400000 + 8 * n) lo k = false := fun lo k hk => by
    simp only [inWindow, decide_eq_false_iff_not]; omega
  have hown : inWindow (0x400000 + 8 * n) 0x400000 0x400000 = true := by
    simp only [inWindow, decide_eq_true_eq]; omega
  simp [barReg, h0, hlow, hown]

theorem Dev.writeHalf_counter (d : Dev) (e n : Nat) (v : Nat) : d.writeHalf e (.counter n) false v = d.clearCounter n := rfl

/-- A write of either size in the counter window clears its counter (18 R544). -/
theorem Dev.bar0Write_counter {d : Dev} {e n size : Nat} (v : Reg) (hopen : d.barOpen e = true) (hpriv : d.priv e = true)
    (hn : n < 2 ^ 19) (hrun : d.countersDown n 1 = false) (hsize : size = 4 ∨ size = 8) :
    d.bar0Write e (0x400000 + 8 * n) size v = d.clearCounter n := by
  have hreg := barReg_counter hn
  have hbar : barSize (0x400000 + 8 * n) size = true := by
    rcases hsize with rfl | rfl
    · have hfour : (0x400000 + 8 * n) % 4 = 0 := by omega
      simp [barSize, hfour]
    · exact barSize_eight (by omega)
  have hhalf : ((0x400000 + 8 * n) % 8 == 4) = false := by simp
  rw [Dev.bar0Write_admitted hopen (by simp [hreg]) hbar (.inr hpriv) (by simp [hreg, Dev.barReaches, Dev.regRuns, hrun]), hreg, hhalf,
    Dev.writeHalf_counter]
  exact ite_self _

/-- Settles O49: the commands by the equations of their bodies, the accesses of BAR0 by what an admitted one does. -/
theorem registerAccessCommandsComplete : Obligations.RegisterAccessCommandsComplete := by
  refine ⟨?regRead, ?regWrite, ?regModify, ?counterRead, ?counterClear, ?access, ?pend, ?clear⟩
  case regRead =>
    rintro s path tag q ptr _ _ _ h rfl rfl rfl ha hn
    exact answers_start rfl h (State.regRead_admitted ha (countOk_iff.2 hn))
  case regWrite =>
    rintro s path tag q ptr _ _ _ h rfl rfl rfl ha hn
    exact answers_command rfl h (Dev.regWrite_admitted ha (countOk_iff.2 hn))
  case regModify =>
    rintro s path tag q ptr _ _ _ _ _ h rfl rfl ha rfl rfl rfl
    exact answers_start rfl h (by simp [State.regModify, ha])
  case counterRead =>
    rintro s path tag q ptr _ _ _ h rfl rfl rfl hn
    exact answers_command rfl h (Dev.counterRead_admitted (countOk_iff.2 hn))
  case counterClear =>
    rintro s path tag q ptr _ h rfl hn
    exact answers_command rfl h (Dev.counterClear_admitted hn)
  case access =>
    rintro s ep off value _ hup hopen rfl hap hoff hpriv hreach
    refine ⟨answers_registerWrite hup ?_, answers_registerWrite hup ?_, fun off size => answers_registerWrite hup ?_⟩
    · exact Dev.bar0Write_admitted hopen hap (barSize_eight hoff) hpriv hreach
    · exact Dev.bar0Read_admitted hopen hap hoff hreach
    · simp [Dev.barAccess, hopen]
  case pend =>
    intro s ep word value hup hopen hwarden
    refine answers_actIf (g := fun d => d.epUp ep) (f := fun d => d.bar0Write ep (0x1100000 + 8 * word) 8 value) rfl hup ?_
    have hreg := barReg_evtPend word
    rw [Dev.bar0Write_admitted hopen (by simp [hreg]) (barSize_eight (by omega)) (.inl (needsPriv_evtPend word))
      (by simpa [hreg, Dev.barReaches] using hwarden), hreg]
    rfl
  case clear =>
    intro s ep n size hup hopen hpriv hn hrun hsize
    exact answers_actIf (g := fun d => d.epUp ep) (f := fun d => d.bar0Write ep (0x400000 + 8 * n) size 0#64) rfl hup
      (Dev.bar0Write_counter _ hopen hpriv hn hrun hsize)

end Sys2Proof.Machine
end

section
/-! What the flow-control commands do where a flit, a packet or an update meets the conditions of its rule (01 R38, 06 R174, R175,
R178, R180, R188). -/

namespace Sys2Proof.Machine

/-- What an answered device has, it has in a weaker form. -/
theorem Answers.imp {c : Instr} {s : State} {P Q : Dev → Prop} (h : Answers c s P) (hpq : ∀ d, P d → Q d) : Answers c s Q :=
  let ⟨d, hd, hp⟩ := h
  ⟨d, hd, hpq d hp⟩

/-! ## Storing flits (06 R174, R175) -/

/-- A flit that finds a cell and takes none from an earlier flit of its tick. -/
theorem Dev.flitStore_stored {d : Dev} {p vc : Nat} {flit : Flit} {x : Region} {a : Arriving}
    (ha : (d.region (p / 32)).flitOwner (cellKey (p % 32) vc) flit = a) (hkept : a.discard = false)
    (hx : (d.region (p / 32)).storeNet (d.belfryNow (p / 32)) (p % 32) vc = ⟨x, true, none⟩) :
    d.flitStore p vc flit = ((forEach (d.region (p / 32)).poolAsked
      (fun b e => if b.1 = p % 32 then e else e.countSkid (p / 32) b.1 ((d.region (p / 32)).skidOf b.1))
      ((d.setRegion (p / 32) (x.oneArrived (cellKey (p % 32) vc) a true)).countSkid (p / 32) (p % 32)
        ((d.region (p / 32)).skidOf (p % 32)))).crossFlit p).starveAll := by
  simp [Dev.flitStore, ha, hkept, hx]

/-- An internal flit with a cell free for it is accepted by the rule of its side: Buttress or unit. -/
theorem Dev.internalAccept_cell {d : Dev} {r input vc : Nat} {x : Region} (hin : 32 ≤ input)
    (hx : (d.region r).storeInternal input vc = some x) :
    d.internalAccept r input vc = d.acceptFlit r input vc (fun y i v => (y.storeInternal i v).isSome)
      (fun y => (y.storeInternal input vc).getD y) := by
  simp only [Dev.internalAccept, if_neg (Nat.not_lt.2 hin), hx]

/-- A unit's flit that fits joins the packet that is arriving. -/
theorem Dev.acceptFlit_unit {d : Dev} {r input vc : Nat} {a : Arriving} {fits : Region → Nat → Nat → Bool} (store : Region → Region)
    (hin : 56 ≤ input) (ha : tget (d.region r).arriving (cellKey input vc) = some a) (hkept : a.discard = false)
    (hfits : fits (d.region r) input vc = true) :
    d.acceptFlit r input vc fits store = d.setRegion r ((store (d.region r)).oneArrived (cellKey input vc) a true) := by
  simp [Dev.acceptFlit, Nat.not_lt.2 hin, ha, hkept, hfits, Dev.modRegion]

/-- A Buttress flit that wins its direction crosses. -/
theorem Dev.acceptFlit_buttress {d : Dev} {r input vc ptr : Nat} {c : Crossing} {fits : Region → Nat → Nat → Bool}
    (store : Region → Region) (hin : input < 56) (hc : c.input = input ∧ c.vc = vc)
    (hwin : d.buttressWinner r (buttressSource r input) fits = some (c, ptr)) :
    d.acceptFlit r input vc fits store = (d.setRegion r { store (d.region r) with
      buttressPtr := tput (d.region r).buttressPtr (buttressSource r input) ptr }).crossButtress r c := by
  simp [Dev.acceptFlit, hin, hwin, hc, Dev.modRegion]

/-! ## Go status (06 R178) -/

/-- An open pool that is down to its stop mark closes: the closing is counted and raised. -/
def Dev.poolClose (d : Dev) (r : Nat) : Dev :=
  if (d.region r).poolOpen = true ∧ (d.region r).poolFree ≤ (d.region r).chip.poolStop
  then (d.count (Ctr.poolCloses r)).raise (Isl.belfry r) (Src.region r 8) 0 0 else d

/-- Whether the pool is open from here on: an open one until its stop mark, a closed one from its go mark. -/
def Region.poolOpens (x : Region) : Bool :=
  if x.poolOpen = true then decide (x.chip.poolStop < x.poolFree) else decide (x.chip.poolGo ≤ x.poolFree)

/-- An open pool stays open unless it closes. -/
theorem Region.poolOpens_eq (x : Region) :
    (if x.poolOpen = true then !(x.poolOpen && decide (x.poolFree ≤ x.chip.poolStop)) else decide (x.chip.poolGo ≤ x.poolFree)) =
      x.poolOpens := by
  unfold Region.poolOpens
  split
  · next h => rw [h, Bool.true_and, ← decide_not]; simp only [Nat.not_le]
  · rfl

/-- The go status of the 32 inputs of a region, as its cells give it. -/
def Dev.sendStops (d : Dev) (r : Nat) : Dev :=
  forEach (List.range 32) (fun i e => e.modPort (32 * r + i) (fun y =>
    { y with stopSent := (d.region r).stopBits i, floorOnly := (d.region r).floorBits i })) d

theorem Dev.goUpdate_eq (d : Dev) (r : Nat) {e : Dev} (he : e = d.poolServe r (d.region r).poolWaits.length) :
    d.goUpdate r = ((e.poolClose r).modRegion r (fun x => { x with poolOpen := (e.region r).poolOpens })).sendStops r := by
  simp only [Dev.goUpdate, ← he, Region.poolOpens_eq, Bool.and_eq_true, decide_eq_true_eq]
  rfl

/-! ## Crossbar and egress (01 R38, 06 R180, R188) -/

theorem Dev.switchAllocation_granted {d : Dev} {r output i ptr vptr : Nat} {w : Waiting} {offers : List (Nat × (Waiting × Nat))}
    (hoffers : offers = (List.range 64).filterMap (fun i => (d.selectVc r output i).map (fun o => (i, o))))
    (hwin : arbitrate 64 (tgetD (d.region r).outPtr output 0) (offers.map (fun o => o.2.1.req o.1)) = some (i, ptr))
    (hfind : offers.find? (fun o => o.1 == i) = some (i, (w, vptr))) :
    d.switchAllocation r output = (d.modRegion r (fun x =>
      { x with outPtr := tput x.outPtr output ptr, inPtr := tput x.inPtr i vptr })).grantOutput r output w := by
  subst hoffers
  simp only [Dev.switchAllocation, hwin, hfind]

theorem Dev.egressSelect_won {d : Dev} {p vc ptr : Nat} {e : Egress}
    (hwin : arbitrate 20 (d.port p).egressPtr
      ((d.egressReady p).map (fun e => ⟨e.vc, if e.pkt.hdr.cls = 4 then 1 else 0, e.stamp⟩)) = some (vc, ptr))
    (hfind : (d.egressReady p).find? (fun e => e.vc == vc) = some e) :
    d.egressSelect p = ((d.modPort p (fun x => { x with egressPtr := ptr })).handFlit p e).starve p := by
  simp only [Dev.egressSelect, hwin, hfind]

theorem Dev.mgmtHoldExpiry_due {d : Dev} {r id : Nat} {w : Waiting} (hfind : (d.region r).waiting.find? (fun w => w.id == id) = some w)
    (hdue : w.pkt.hdr.cls = 4 ∧ w.stamp + (d.region r).chip.mgmtHold ≤ d.belfryNow r) :
    d.mgmtHoldExpiry r id = ((d.modRegion r (fun x => { x with waiting := x.waiting.filter (fun v => v.id != id) })).dropCount r
      (Ctr.mgmtHoldDrops r) (some 15)).release r w.input w.vc w.id (flitsOf w.arrived.hdr.plen) 0 := by
  have hid : w.id = id := by simpa using List.find?_some hfind
  simp only [Dev.mgmtHoldExpiry, hfind, if_pos hdue, hid]

/-- Settles O30: each command by what it does where the conditions of its rule hold. -/
theorem flowControlCommandsComplete : Obligations.FlowControlCommandsComplete := by
  refine ⟨?store, ?accept, ?goStatus, ?allocate, ?select, ?hold⟩
  case store =>
    intro s p vc flit x a hrun ha hkept hx
    exact (answers_actIf (g := fun d => d.regionRuns (p / 32)) (f := fun d => d.flitStore p vc flit) rfl hrun
      (Dev.flitStore_stored ha hkept hx)).imp fun d hd => ⟨_, rfl, hd⟩
  case accept =>
    intro s r input vc x hrun hx
    refine (answers_actIf (g := fun d => d.regionRuns r) (f := fun d => d.internalAccept r input vc) rfl hrun rfl).imp ?_
    rintro _ rfl
    refine ⟨fun a hin ha hkept => ?_, fun c ptr hlo hhi hci hcv hwin => ?_⟩
    · rw [Dev.internalAccept_cell (by omega) hx, Dev.acceptFlit_unit _ hin ha hkept (by simp [hx]), hx, Option.getD_some]
    · rw [Dev.internalAccept_cell hlo hx, Dev.acceptFlit_buttress _ hhi ⟨hci, hcv⟩ hwin, hx, Option.getD_some]
  case goStatus =>
    intro s r hrun
    exact (answers_actIf (g := fun d => d.regionRuns r) (f := fun d => d.goUpdate r) rfl hrun (Dev.goUpdate_eq s.dev r rfl)).imp
      fun d hd => ⟨_, _, _, _, rfl, rfl, rfl, rfl, hd⟩
  case allocate =>
    intro s r output i w ptr vptr offers hrun hoffers hwin hfind
    exact answers_actIf (g := fun d => d.regionRuns r) (f := fun d => d.switchAllocation r output) rfl hrun
      (Dev.switchAllocation_granted hoffers hwin hfind)
  case select =>
    intro s p vc ptr e hrun hwin hfind
    exact answers_actIf (g := fun d => d.regionRuns (p / 32)) (f := fun d => d.egressSelect p) rfl hrun
      (Dev.egressSelect_won hwin hfind)
  case hold =>
    intro s r id w hrun hfind hmgmt hdue
    exact answers_actIf (g := fun d => d.regionRuns r) (f := fun d => d.mgmtHoldExpiry r id) rfl hrun
      (Dev.mgmtHoldExpiry_due hfind ⟨hmgmt, hdue⟩)

end Sys2Proof.Machine
end

section
/-! What the rails, the reset pin, the Lantern supply, the sensors and a wake do where the conditions of their rules hold (02 R54 to
R58, R66, R71, 16 R497, 18 R543). -/

namespace Sys2Proof.Machine

theorem Dev.lanternRuns_iff {d : Dev} : d.lanternRuns = true ↔ d.lantern.powered = true ∧ d.lantern.resetN = true := by
  simp [Dev.lanternRuns]

/-! ## Rails that rise and fall (02 R54 to R57) -/

/-- A power-good within its window: the group has come up and settles. -/
theorem Dev.powerGoodHigh_inTime {d : Dev} {g : Rail} {since : Nat} (hp : d.lantern.phase = .waiting g since)
    (hnow : d.lanternNow < since + 20000000) :
    d.powerGoodHigh g = { d with lantern := { d.lantern with
      pg := putBit d.lantern.pg (railBit g) true, cameUp := putBit d.lantern.cameUp (railBit g) true,
      phase := .settling g d.lanternNow } } := by
  simp [Dev.powerGoodHigh, Dev.modLantern, hp, hnow]

/-- The end of a settling wait: the next group is enabled, or after the last one the Warden is released. -/
theorem Dev.railSettleEnd_due {d : Dev} {g : Rail} {since : Nat} (hp : d.lantern.phase = .settling g since)
    (hnow : since + 100000 ≤ d.lanternNow) :
    d.railSettleEnd = (railNext g).elim d.releaseWarden d.enableRail := by
  simp only [Dev.railSettleEnd, hp, if_neg (Nat.not_lt.2 hnow)]
  cases railNext g <;> rfl

/-- The end of the window in which a group's power-good did not come. -/
theorem Dev.railStartFault_due {d : Dev} {g : Rail} {since : Nat} (hp : d.lantern.phase = .waiting g since)
    (hnow : since + 20000000 ≤ d.lanternNow) : d.railStartFault = d.faultEntry 1 (2 ^ railBit g) := by
  simp only [Dev.railStartFault, hp, if_neg (Nat.not_lt.2 hnow)]

/-- The power-good of a group being removed, as the end of its wait leaves it. -/
def Lantern.noteLow (l : Lantern) (low : Bool) (g : Rail) : Lantern :=
  { l with pg := if low then putBit l.pg (railBit g) false else l.pg }

/-- The wait for a removed group has ended: the removal goes on below it. -/
theorem Dev.railRemoveNext_due {d : Dev} {g : Rail} {since : Nat} {low : Bool} (hp : d.lantern.phase = .removing g since)
    (hdue : low = true ∨ since + 10000000 ≤ d.lanternNow) :
    d.railRemoveNext low = (d.modLantern (fun l => l.noteLow low g)).dropEnable := by
  have hcond : (low || decide (since + 10000000 ≤ d.lanternNow)) = true := by simpa using hdue
  cases low <;> simp only [Dev.railRemoveNext, hp, hcond] <;> rfl

theorem Dev.dropEnable_some {d : Dev} {h : Rail} (ht : topRail d.lantern.enables = some h) :
    d.dropEnable = d.modLantern (fun l => { l with enables := putBit l.enables (railBit h) false, phase := .removing h d.lanternNow }) := by
  simp only [Dev.dropEnable, ht]

/-- The last group is off, and nothing is to start the rails again. -/
theorem Dev.dropEnable_none {d : Dev} (ht : topRail d.lantern.enables = none)
    (hstay : (d.lantern.resetN && (d.lantern.state == 0 || d.lantern.exiting.isSome)) = false) :
    d.dropEnable = d.modLantern (fun l => { l with phase := .off }) := by
  simp only [Dev.dropEnable, ht, Dev.railsOff, Dev.modLantern_lantern, hstay, Bool.false_eq_true, if_false]

/-- A power-good lost by a group that came up and is enabled. -/
theorem Dev.brownOut_hit {d : Dev} {g : Rail} (hr : d.lantern.resetN = true) (he : bit d.lantern.enables (railBit g) = true)
    (hc : bit d.lantern.cameUp (railBit g) = true) :
    d.brownOut g = (d.modLantern (fun l => { l with pg := putBit l.pg (railBit g) false })).faultEntry 2 (2 ^ railBit g) := by
  simp [Dev.brownOut, hr, he, hc]

/-- Settles O21: each command by what it does where the conditions of its rule hold; the faults by `Dev.faultEntry_spec`. -/
theorem railCommandsComplete : Obligations.RailCommandsComplete := by
  refine ⟨?good, ?settled, ?late, ?next, ?last, ?brown, ?clock⟩
  case good =>
    intro s g since hpow hp hnow
    exact answers_actIf (g := fun d => d.lantern.powered) (f := fun d => d.powerGoodHigh g) rfl hpow (Dev.powerGoodHigh_inTime hp hnow)
  case settled =>
    intro s g since hrun hp hnow
    refine (answers_actIf rfl hrun (Dev.railSettleEnd_due hp hnow)).imp ?_
    rintro _ rfl
    cases g <;> rfl
  case late =>
    intro s g since hrun hp hnow
    exact answers_actIf rfl hrun ((Dev.railStartFault_due hp hnow).trans (Dev.faultEntry_spec _ _ _))
  case next =>
    intro s g h since low hpow hp hdue ht
    exact answers_actIf (g := fun d => d.lantern.powered) (f := fun d => d.railRemoveNext low) rfl hpow
      ((Dev.railRemoveNext_due hp hdue).trans (Dev.dropEnable_some ht))
  case last =>
    intro s g since low hpow hp hdue ht hstay
    exact answers_actIf (g := fun d => d.lantern.powered) (f := fun d => d.railRemoveNext low) rfl hpow
      ((Dev.railRemoveNext_due hp hdue).trans (Dev.dropEnable_none ht hstay))
  case brown =>
    intro s g hrun he hc
    obtain ⟨hpow, hreset⟩ := Dev.lanternRuns_iff.1 hrun
    exact answers_actIf (g := fun d => d.lantern.powered) (f := fun d => d.brownOut g) rfl hpow
      ((Dev.brownOut_hit hreset he hc).trans (Dev.faultEntry_spec _ _ _))
  case clock =>
    intro s ns hrun hns
    exact answers_actIf (g := fun d => d.lanternRuns && decide (2000 ≤ ns)) (f := fun d => d.faultEntry 3 0) rfl (by simp [hrun, hns])
      (Dev.faultEntry_spec _ _ _)

/-! ## The reset pin -/

/-- A row on the device alone that acts at any time answers its device. -/
theorem answers_act {c : Instr} {s : State} {f : Dev → Dev} {d : Dev} (hc : exec c s = act f s) (hf : f s.dev = d) :
    Answers c s (fun e => e = d) :=
  ⟨d, hc.trans (hf ▸ rfl), rfl⟩

/-- RESET_N high with the rails off and no exit under way: the straps are sampled and the first group is enabled. -/
theorem Dev.resetNRelease_off {d : Dev} (straps : BitVec 7) (hpow : d.lantern.powered = true) (hreset : d.lantern.resetN = false)
    (hp : d.lantern.phase = .off) (hx : d.lantern.exiting = none) :
    d.resetNRelease straps =
      (d.modLantern (fun l => { l with resetN := true, brAddr := straps.toNat, rope := .idle, brAck := none })).enableRail .sram := by
  simp [Dev.resetNRelease, Dev.startRails, hpow, hreset, hp, hx]

theorem Dev.resetNAsserted_runs {d : Dev} (hrun : d.lanternRuns = true) :
    d.resetNAsserted = (d.modLantern (fun l => { l with resetN := false })).resetAll 1 0 := by
  simp [Dev.resetNAsserted, hrun]

/-! ## Temperature (02 R71, 18 R543) -/

/-- A sample of all sixteen sensors with one at 110 °C or more: the trip is latched after the readings are noted. -/
theorem Dev.thermalSample_trip {d a : Dev} {ts : List Int} (hlen : ts.length = 16)
    (hhot : ts.any (fun t => decide (110 ≤ t)) = true) (ha : a = forEach ts.zipIdx (fun x d => d.sensor (x.2 / 4) x.1) d) :
    d.thermalSample ts =
      (a.modLantern (fun l => { l with tjHigh := ts.foldl hotter l.tjHigh, tripped := true })).faultEntry 4 0 := by
  have hall : ts.take 16 = ts := List.take_of_length_le (Nat.le_of_eq hlen)
  simp only [Dev.thermalSample, hall, hhot, ← ha, if_true]
  rfl

/-- The counter of the band that a second's highest reading lies in; a second below 85 °C has none. -/
def tjBand (t : Int) : List Nat :=
  if 85 ≤ t ∧ t < 95 then [Ctr.tj85S] else if 95 ≤ t ∧ t ≤ 105 then [Ctr.tj95S] else if 105 < t then [Ctr.tj105S] else []

/-- A second has ended: its band and the second itself are counted; a second without a reading counts as one at 0 °C. -/
theorem Dev.tjSecond_due {d : Dev} (hnow : d.lantern.tjStart + 1000000000 ≤ d.lanternNow) :
    d.tjSecond = ((d.countEach (tjBand (d.lantern.tjHigh.getD 0))).count Ctr.powerOnS).modLantern
      (fun l => { l with tjStart := l.tjStart + 1000000000, tjHigh := none }) := by
  simp only [Dev.tjSecond, if_neg (Nat.not_lt.2 hnow), tjBand]
  by_cases hwarm : 85 ≤ d.lantern.tjHigh.getD 0 ∧ d.lantern.tjHigh.getD 0 < 95
  · rw [if_pos hwarm, if_pos hwarm]; rfl
  rw [if_neg hwarm, if_neg hwarm]
  by_cases hhot : 95 ≤ d.lantern.tjHigh.getD 0 ∧ d.lantern.tjHigh.getD 0 ≤ 105
  · rw [if_pos hhot, if_pos hhot]; rfl
  rw [if_neg hhot, if_neg hhot]
  by_cases hover : 105 < d.lantern.tjHigh.getD 0
  · rw [if_pos hover, if_pos hover]; rfl
  · rw [if_neg hover, if_neg hover]; rfl

/-- The row of a second whose highest reading lies in a band counts that band's counters. -/
theorem answers_tjSecond {s : State} {ns : List Nat} (hrun : s.dev.lanternRuns = true)
    (hnow : s.dev.lantern.tjStart + 1000000000 ≤ s.dev.lanternNow) (hband : tjBand (s.dev.lantern.tjHigh.getD 0) = ns) :
    Answers .tjSecond s (fun d => d = ((s.dev.countEach ns).count Ctr.powerOnS).modLantern
      (fun l => { l with tjStart := l.tjStart + 1000000000, tjHigh := none })) :=
  answers_actIf rfl hrun (hband ▸ Dev.tjSecond_due hnow)

/-! ## A wake in P2 (16 R497, R503) -/

/-- With no entry and no exit under way, a source that is accepted starts the exit. -/
theorem Dev.wake_accepted {d : Dev} {code loc : Nat} (hrun : d.lanternRuns = true) (hen : d.lantern.entering = none)
    (hex : d.lantern.exiting = none) (ha : d.lantern.accepts code loc = true) : d.wake code loc = d.startExit [(code, loc)] := by
  simp [Dev.wake, hrun, hen, hex, ha]

/-- The exit that one source starts in P2: the source is counted and recorded, and no rail is started. -/
theorem Dev.startExit_hushed {d : Dev} {code loc : Nat} (hst : d.lantern.state = 2) :
    d.startExit [(code, loc)] = (d.count (Ctr.wakes code)).modLantern (fun l => { l with
      wakeSrc := wakeRecord [(code, loc)] 2 d.lanternNow false, wakeAt := some d.lanternNow, exiting := some (2, d.lanternNow) }) := by
  simp [Dev.startExit, Dev.modLantern, hst]

theorem Lantern.accepts_bellrope {l : Lantern} (hst : l.state = 2) (htrip : l.tripped = false) (hen : l.wakeCtrl.getLsbD 1 = true) :
    l.accepts 2 0 = true := by
  simp [Lantern.accepts, Lantern.wakeEnabled, wakeValidIn, hst, htrip, hen]

theorem wakeRecord_bellrope (source now : Nat) :
    wakeRecord [(2, 0)] source now false = ⟨2, 2, 0, source, false, now / 1000 % 2 ^ 32⟩ := rfl

/-- Settles O22: each command by what it does where the conditions of its rule hold; the resets by `Dev.resetAll_spec` and
`Dev.faultEntry_spec`. -/
theorem resetAndSensorCommandsComplete : Obligations.ResetAndSensorCommandsComplete := by
  refine ⟨?release, ?assert, ?applied, ?removed, ?sample, ?warm, ?hot, ?scorching, ?cool, ?unread, ?wake⟩
  case release =>
    intro s straps hpow hreset hp hx
    exact answers_act (f := fun d => d.resetNRelease straps) rfl (Dev.resetNRelease_off straps hpow hreset hp hx)
  case assert =>
    intro s hrun
    exact answers_act rfl ((Dev.resetNAsserted_runs hrun).trans (Dev.resetAll_spec _ 1 0 rfl))
  case applied =>
    intro s
    exact answers_act (f := Dev.vlanternApplied) rfl rfl
  case removed =>
    intro s
    exact ⟨_, rfl, rfl, rfl, rfl⟩
  case sample =>
    intro s ts a hrun hlen hhot ha
    exact answers_actIf (g := Dev.lanternRuns) (f := fun d => d.thermalSample ts) rfl hrun
      ((Dev.thermalSample_trip hlen hhot ha).trans (Dev.faultEntry_spec _ _ _))
  case warm =>
    intro s t hrun hnow ht hband
    exact answers_tjSecond (ns := [Ctr.tj85S]) hrun hnow (by simp [tjBand, ht, hband])
  case hot =>
    intro s t hrun hnow ht ⟨hlo, hhi⟩
    have habove : ¬ t < 95 := by omega
    exact answers_tjSecond (ns := [Ctr.tj95S]) hrun hnow (by simp [tjBand, ht, habove, hlo, hhi])
  case scorching =>
    intro s t hrun hnow ht hover
    have h95 : ¬ t < 95 := by omega
    have h105 : ¬ t ≤ 105 := by omega
    exact answers_tjSecond (ns := [Ctr.tj105S]) hrun hnow (by simp [tjBand, ht, h95, h105, hover])
  case cool =>
    intro s t hrun hnow ht hcool
    have h85 : ¬ 85 ≤ t := by omega
    have h95 : ¬ 95 ≤ t := by omega
    have h105 : ¬ 105 < t := by omega
    exact answers_tjSecond (ns := []) hrun hnow (by simp [tjBand, ht, h85, h95, h105])
  case unread =>
    intro s hrun hnow ht
    exact answers_tjSecond (ns := []) hrun hnow (by simp [tjBand, ht])
  case wake =>
    intro s hrun hen hex hst htrip hctrl
    have hwake := (Dev.wake_accepted hrun hen hex (Lantern.accepts_bellrope hst htrip hctrl)).trans (Dev.startExit_hushed hst)
    refine (answers_act (f := fun d => d.wakeRegistered .bellrope) rfl hwake).imp ?_
    rintro _ rfl
    exact ⟨by simp, rfl, wakeRecord_bellrope _ _, rfl, rfl⟩

end Sys2Proof.Machine
end

section
/-! What a cage frame, the cage commands and the steps of CLOCK_SWITCH do where the conditions of their rules hold (02 R67, 14 R453
to R455). -/

namespace Sys2Proof.Machine

/-! ## Commands that go on executing -/

/-- A command that starts and goes on executing answers the body's device with what the command works on. -/
theorem answers_commandRuns {c : Instr} {s : State} {f : Form} {path : Path} {tag : Nat} {body : Dev → Request → Dev × Answer}
    {q : Request} {ptr a b : Nat} {e : Dev} {data : List Byte} (hc : exec c s = command f path tag body s) (h : Starts s f path tag q ptr)
    (hb : body (s.dev.started q ptr) q = (e, .runs a b data)) :
    Answers c s (fun d => d = (e.modExec path tag (fun x => { x with a := a, b := b, data := data })).answerBad 256) :=
  ⟨_, hc.trans (command_runs h hb), rfl⟩

/-- The device once the work of a command on it is settled. -/
def Dev.settle (path : Path) (tag : Nat) : Dev × Answer → Dev
  | (d, .done st ps) => d.finish path tag st ps
  | (d, .runs a b data) => (d.modExec path tag (fun x => { x with a := a, b := b, data := data })).answerBad 256

theorem State.settle_dev (s : State) (path : Path) (tag : Nat) (r : Dev × Answer) :
    State.settle path tag ({ s with dev := r.1 }, r.2) = { s with dev := Dev.settle path tag r } := by
  obtain ⟨d, _ | _⟩ := r <;> rfl

/-! ## Cages (02 R67, 14 R454) -/

/-- A frame for which no CAGE_SET waits. -/
theorem Dev.cageScanFrame_alone {d e : Dev} {din : Nat} (hsets : d.warden.cageSets = [])
    (he : e = forEach allCages (fun c d =>
      if (d.cage c).dropPower then d.modCage c (fun y => { y with pwrEn := false, dropPower := false }) else d) d) :
    d.cageScanFrame din =
      forEach allCages (fun c d => d.cageInput c (bits din (4 * c + 3) (4 * c))) (e.emit (.cageFrame e.frameOut)) := by
  simp only [Dev.cageScanFrame, hsets, List.foldl_nil, ← he, forEach_nil]

theorem Dev.cageSet_running {d : Dev} (q : Request) (h : d.gatesRun = true) : d.cageSet q = (d, .runs 0 0 []) := by
  simp [Dev.cageSet, h]

theorem Dev.cagePgTimeout_due {d : Dev} {c : Nat} (hen : (d.cage c).pwrEn = true) (hgood : (d.cage c).pwrGood = false)
    (hdue : (d.cage c).since + d.warden.cagePgWait ≤ d.wardenNow) : d.cagePgTimeout c = d.cageFault c := by
  simp [Dev.cagePgTimeout, hen, hgood, hdue]

/-! ## The steps of CLOCK_SWITCH (14 R455) -/

/-- The command whose turn it is moves. -/
theorem Dev.clockSwitch_turn {d : Dev} {q : Request} (h : d.warden.clockTurn q = true) (c : ClockRun) (a held : Nat) :
    d.clockSwitch c q a held = d.clockStep c q a held := by
  simp [Dev.clockSwitch, h]

/-- The row that starts the command, in its turn, measures. -/
theorem answers_clockFirst {s : State} {path : Path} {tag : Nat} {run : ClockRun} {q : Request} {ptr : Nat}
    (hnone : s.dev.warden.exec path tag = none) (h : Starts s (Form.fixed 0x0E20 0 [] 16) path tag q ptr)
    (hturn : (s.dev.started q ptr).warden.clockTurn q = true) :
    Answers (.clockSwitch path tag run) s (fun d => d = Dev.settle path tag ((s.dev.started q ptr).clockMeasure run)) := by
  refine ⟨_, congrArg _ ((step_first hnone).trans ((start_settles h).trans (State.settle_dev _ _ _ _))), ?_⟩
  rw [Dev.clockSwitch_turn hturn]
  rfl

/-- A further row of the command, in its turn, takes the step after the last. -/
theorem answers_clockNext {s : State} {path : Path} {tag a : Nat} {run : ClockRun} {x : Exec} (hrun : s.dev.wardenRuns = true)
    (hx : s.dev.warden.exec path tag = some x) (hop : x.opcode = 0x0E20) (hturn : s.dev.warden.clockTurn x.req = true) (ha : x.a = a) :
    Answers (.clockSwitch path tag run) s (fun d => d = Dev.settle path tag (s.dev.clockStep run x.req a x.b)) := by
  refine ⟨_, congrArg _ ((step_next hx hop hrun).trans (State.settle_dev _ _ _ _)), ?_⟩
  rw [Dev.clockSwitch_turn hturn, ha]

theorem Dev.clockMeasure_near {d : Dev} {c : ClockRun} (hall : d.warden.allRun = false) (hppm : c.ppm.natAbs ≤ 150) :
    d.clockMeasure c = (d.modWarden (fun w => { w with nref := c.ppm }), .runs 1 0 []) := by
  simp [Dev.clockMeasure, hall, Nat.not_lt.2 hppm]

theorem Dev.clockMeasure_far {d : Dev} {c : ClockRun} (hall : d.warden.allRun = false) (hppm : 150 < c.ppm.natAbs) :
    d.clockMeasure c = ((d.modWarden (fun w => { w with nref := c.ppm, done := true })).raise Isl.warden (Src.chip 5) 0 0,
      .done Ocm.hardwareFault []) := by
  simp only [Dev.clockMeasure, hall, Bool.false_eq_true, if_false, if_pos hppm]
  rfl

/-- The last step: the ports of the regions that the command started may train, and a region that failed fails the command. -/
theorem Dev.clockEnd_eq {d a e : Dev} {q : Request} {held : Nat}
    (ha : a = (d.modWarden (fun w => { w with pll := true, done := true })).modExec q.path q.tag (fun x => { x with b := 0 }))
    (he : e = forEach (allRegions.filter (fun r => bit held (4 + r))) (fun r d => d.startPorts r) a) :
    d.clockEnd q held = if bits held 3 0 = 0 then (e, .done Ocm.ok [])
      else (e.raise Isl.warden (Src.chip 5) 0 0, .done Ocm.hardwareFault []) := by
  simp only [Dev.clockEnd, ← ha, ← he]

/-- Settles O50: each command by what it does where the conditions of its rule hold; CLOCK_SWITCH by its steps. -/
theorem cageAndClockCommandsComplete : Obligations.CageAndClockCommandsComplete := by
  refine ⟨?frame, ?set, ?status, ?timeout, ?near, ?far, ?lock, ?hbm, ?belfry, ?engines, ?last⟩
  case frame =>
    intro s din hwarden hsets hrun
    exact (answers_actIf (g := Dev.gatesRun) (f := fun d => d.cageScanFrame din.toNat) rfl hrun (Dev.cageScanFrame_alone hsets rfl)).imp
      fun d hd => ⟨_, rfl, hd⟩
  case set =>
    intro s path tag q ptr h hrun
    exact answers_commandRuns rfl h (Dev.cageSet_running q hrun)
  case status =>
    intro s path tag q ptr h
    exact ⟨_, reading_done h rfl, rfl⟩
  case timeout =>
    intro s cage hrun hen hgood hdue
    exact answers_actIf (g := Dev.wardenRuns) (f := fun d => d.cagePgTimeout cage) rfl hrun (Dev.cagePgTimeout_due hen hgood hdue)
  case near =>
    rintro s path tag run q ptr _ hnone h rfl hturn hall hppm
    have hstep := answers_clockFirst (run := run) hnone h hturn
    rwa [Dev.clockMeasure_near hall hppm] at hstep
  case far =>
    rintro s path tag run q ptr _ hnone h rfl hturn hall hppm
    have hstep := answers_clockFirst (run := run) hnone h hturn
    rwa [Dev.clockMeasure_far hall hppm] at hstep
  case lock =>
    intro s path tag run x hrun hx hop hturn ha
    exact answers_clockNext hrun hx hop hturn ha
  case hbm =>
    rintro s path tag run x _ hrun hx hop hturn ha rfl
    exact answers_clockNext hrun hx hop hturn ha
  case belfry =>
    rintro s path tag run x _ _ hrun hx hop hturn ha rfl rfl
    exact answers_clockNext hrun hx hop hturn ha
  case engines =>
    rintro s path tag run x _ hrun hx hop hturn ha rfl
    exact answers_clockNext hrun hx hop hturn ha
  case last =>
    rintro s path tag run x a hrun hx hop hturn ha hstart
    refine (answers_clockNext (run := run) hrun hx hop hturn ha).imp ?_
    rintro _ rfl
    have hend : s.dev.clockStep run x.req 5 x.b = _ := Dev.clockEnd_eq hstart rfl
    refine ⟨_, rfl, fun hok => ?_, fun hbad => ?_⟩
    · rw [hend, if_pos hok]; rfl
    · rw [hend, if_neg hbad]; rfl

end Sys2Proof.Machine
end

section
/-! What the commands of a sleeping transmit direction leave as it is (03 R80, R99 to R102). -/

namespace Sys2Proof.Machine

/-! ## Changes of a port's training record alone -/

/-- Of a device the training record of one port, its count of sleeps and the output alone have changed. -/
structure Dev.TrainsOnly (d : Dev) (p : Nat) (e : Dev) : Prop where
  frame : e = { d with ports := e.ports, counters := e.counters, out := e.out }
  others : ∀ q : Nat, q ≠ p → e.port q = d.port q
  own : { e.port p with train := (d.port p).train } = d.port p
  counts : ∀ n : Nat, n ≠ Ctr.sleepEntries p → e.counter n = d.counter n

namespace Dev.TrainsOnly

theorem refl (d : Dev) (p : Nat) : d.TrainsOnly p d := ⟨rfl, fun _ _ => rfl, rfl, fun _ _ => rfl⟩

theorem trans {d e f : Dev} {p : Nat} (h : d.TrainsOnly p e) (k : e.TrainsOnly p f) : d.TrainsOnly p f where
  frame := k.frame.trans (congrArg (fun x => { x with ports := f.ports, counters := f.counters, out := f.out }) h.frame)
  others q hq := (k.others q hq).trans (h.others q hq)
  own := (congrArg (fun x : Port => { x with train := (d.port p).train }) k.own).trans h.own
  counts n hn := (k.counts n hn).trans (h.counts n hn)

theorem ite {d a b : Dev} {p : Nat} {c : Prop} [Decidable c] (ha : d.TrainsOnly p a) (hb : d.TrainsOnly p b) :
    d.TrainsOnly p (if c then a else b) := by split <;> assumption

theorem modTrain {d e : Dev} {p : Nat} (h : d.TrainsOnly p e) (f : Train → Train) : d.TrainsOnly p (e.modTrain p f) :=
  h.trans ⟨rfl, fun _ hq => Dev.modTrain_other e f hq, by simp, fun _ _ => rfl⟩

theorem emit {d e : Dev} {p : Nat} (h : d.TrainsOnly p e) (o : Output) : d.TrainsOnly p (e.emit o) :=
  h.trans ⟨rfl, fun _ _ => rfl, rfl, fun _ _ => rfl⟩

theorem countSleep {d e : Dev} {p : Nat} (h : d.TrainsOnly p e) : d.TrainsOnly p (e.count (Ctr.sleepEntries p)) :=
  h.trans ⟨rfl, fun _ _ => rfl, rfl, fun _ hn => Dev.count_other e hn⟩

/-! ## What a direction sends as it goes to sleep and wakes -/

theorem sendWord (d : Dev) (p : Nat) (lanes : List Nat) (sleep wake : Bool) : d.TrainsOnly p (d.sendWord p lanes sleep wake) := by
  unfold Dev.sendWord
  exact (forEach_keeps _ (fun _ _ h => h.emit _) lanes d (refl d p)).modTrain _

theorem sendWords {d e : Dev} {p : Nat} (h : d.TrainsOnly p e) (sleep wake : Bool) (n : Nat) :
    d.TrainsOnly p (e.sendWords p sleep wake n) := by
  induction n generalizing e with
  | zero => exact h
  | succ n ih => exact ih (h.trans (sendWord e p _ sleep wake))

theorem wakeTx (d : Dev) (p n : Nat) : d.TrainsOnly p (d.wakeTx p n) := by
  unfold Dev.wakeTx
  exact (((refl d p).emit _).sendWords false true n).modTrain _

theorem sleepTx (d : Dev) (p : Nat) : d.TrainsOnly p (d.sleepTx p) := by
  unfold Dev.sleepTx
  exact ((((refl d p).sendWords true false 4).emit _).countSleep).modTrain _

/-! ## The commands -/

theorem ckDetected (d : Dev) (p : Nat) : d.TrainsOnly p (d.ckDetected p) := by
  unfold Dev.ckDetected Dev.ckSeen
  exact ite (((refl d p).modTrain _).modTrain _) (refl d p)

theorem txSleepEntry (d : Dev) (p : Nat) : d.TrainsOnly p (d.txSleepEntry p) := ite (sleepTx d p) (refl d p)

theorem txWake (d : Dev) (p : Nat) : d.TrainsOnly p (d.txWake p) := ite (wakeTx d p 16) (refl d p)

theorem ckBeaconEnd (d : Dev) (p : Nat) : d.TrainsOnly p (d.ckBeaconEnd p) := (refl d p).modTrain _

theorem sleepRefresh (d : Dev) (p : Nat) : d.TrainsOnly p (d.sleepRefresh p) :=
  ite ((wakeTx d p 256).trans (ite (refl _ p) (sleepTx _ p))) (refl d p)

/-- A row on the device alone trains only where its function does. -/
theorem of_actIf {c : Instr} {s t : State} {p : Nat} {f : Dev → Dev} (g : Dev → Bool) (hf : ∀ d : Dev, d.TrainsOnly p (f d))
    (hc : exec c s = actIf g f s) (ht : exec c s = .next t) : s.dev.TrainsOnly p t.dev := by
  obtain rfl : { s with dev := if g s.dev then f s.dev else s.dev } = t := Host.Outcome.next.inj (hc.symm.trans ht)
  exact ite (hf s.dev) (refl _ p)

end Dev.TrainsOnly

/-- Settles O19: each of the five commands changes its port by steps that train only. -/
theorem sleepCommandsKeepTheRest : Obligations.SleepCommandsKeepTheRest := by
  intro s t c p ht hc
  have h : s.dev.TrainsOnly p t.dev := by
    simp only [List.mem_cons, List.not_mem_nil, or_false] at hc
    rcases hc with rfl | rfl | rfl | rfl | rfl
    · exact .of_actIf (fun d => d.portRuns p) (fun d => .ckDetected d p) rfl ht
    · exact .of_actIf (fun d => d.portRuns p) (fun d => .txSleepEntry d p) rfl ht
    · exact .of_actIf (fun d => d.portRuns p) (fun d => .txWake d p) rfl ht
    · exact .of_actIf (fun d => d.rxRuns p) (fun d => .ckBeaconEnd d p) rfl ht
    · exact .of_actIf (fun d => d.portRuns p) (fun d => .sleepRefresh d p) rfl ht
  exact ⟨h.frame, h.others, h.own, h.counts⟩

end Sys2Proof.Machine
end

section
/-! What the commands of a port's state do where the conditions of their rules hold (03 R80 to R82, R93, R94, R104). -/

namespace Sys2Proof.Machine

/-- A row that acts while the Belfry island of its port's region runs answers its device. -/
theorem answers_portRuns {c : Instr} {s : State} {p : Fin 128} (f : Dev → Dev) {d : Dev} (hrun : s.dev.portRuns p = true)
    (hf : f s.dev = d) (hc : exec c s = actIf (fun d => d.portRuns p) f s) : Answers c s (fun e => e = d) :=
  answers_actIf hc hrun hf

/-! ## ENABLE and RETRAIN (R80, R81, R94) -/

theorem Dev.portEnable_falls {d : Dev} {p : Nat} (h : (d.port p).enable = true) :
    d.portEnable p false =
      (d.modPort p (fun x => { x with ctrl := BitVec.ofNat 64 (putBit x.ctrl.toNat 0 false) })).toDisabled p true := by
  simp [Dev.portEnable, h]

theorem Dev.portEnable_rises {d e : Dev} {p : Nat} (h : (d.port p).enable = false)
    (he : e = (d.modPort p (fun x => { x with ctrl := BitVec.ofNat 64 (putBit x.ctrl.toNat 0 true) })).clearExclusions p) :
    d.portEnable p true = if e.mayTrain p = true then e.toDetect p causeRequest else e := by
  simp [Dev.portEnable, h, he]

/-- RETRAIN in UP asks for the whole width at once. -/
theorem Dev.portRetrain_up {d : Dev} {p : Nat} (h : (d.port p).train.state = .up) :
    d.portRetrain p = (d.modTrain p (fun t => { t with
      excluded := 0, fails := [], exclCleared := d.belfryNow (p / 32), req := true, reqWidth := some (d.port p).maxWidth })).toRetrain p
        causeRequest true := by
  simp [Dev.portRetrain, Dev.clearExclusions, Port.maxWidth, Dev.modTrain_modTrain, h]

/-- RETRAIN while a training runs waits until UP. -/
theorem Dev.portRetrain_training {d : Dev} {p : Nat} (h : (d.port p).train.state.training = true) :
    d.portRetrain p = d.modTrain p (fun t => { t with
      excluded := 0, fails := [], exclCleared := d.belfryNow (p / 32), reqLater := true, reqWidth := some (d.port p).maxWidth }) := by
  have hup : (d.port p).train.state ≠ .up := fun hs => by simp [hs, PState.training] at h
  simp [Dev.portRetrain, Dev.clearExclusions, Port.maxWidth, Dev.modTrain_modTrain, h, hup]

/-- RETRAIN in any other state clears the exclusions alone. -/
theorem Dev.portRetrain_idle {d : Dev} {p : Nat} (hup : (d.port p).train.state ≠ .up) (h : (d.port p).train.state.training = false) :
    d.portRetrain p = d.clearExclusions p := by
  simp [Dev.portRetrain, Dev.clearExclusions, h, hup]

/-! ## CK, time-outs and back-off (R80, R82, R93, R104) -/

theorem Dev.ckDetected_due {d : Dev} {p : Nat} (h : (d.port p).train.state = .detect)
    (hnow : (d.port p).train.since + 2000 ≤ d.belfryNow (p / 32)) :
    d.ckDetected p = (d.ckSeen p).modTrain p (fun t => t.fresh .t0Align (d.belfryNow (p / 32))) :=
  if_pos ⟨h, hnow⟩

theorem Dev.trainingTimeout_due {d : Dev} {p n : Nat} (hn : (d.port p).train.state.timeout = some n)
    (hnow : (d.port p).train.since + n ≤ d.belfryNow (p / 32)) (hagreed : (d.port p).train.agreed = false) :
    d.trainingTimeout p = (d.tierFail p (d.port p).train.tier).toBackoff p false := by
  simp [Dev.trainingTimeout, hn, hnow, hagreed]

/-- The end of a back-off that no LIMP_EN 0 caused. -/
theorem Dev.backoffEnd_due {d : Dev} {p : Nat} (h : (d.port p).train.state = .backoff)
    (hnow : (d.port p).train.since + 10000000 ≤ d.belfryNow (p / 32)) (hlimp : (d.port p).train.limpBackoff = false) :
    d.backoffEnd p = (d.modTrain p (fun t => { t with limpBackoff := false })).toDetect p causeRequest := by
  simp [Dev.backoffEnd, h, hnow, hlimp]

theorem Dev.ckLoss_due {d e : Dev} {p last : Nat} (hdis : (d.port p).train.state ≠ .disabled)
    (hback : (d.port p).train.state ≠ .backoff) (hnow : max (d.port p).train.ckAt last + 64 ≤ d.belfryNow (p / 32))
    (he : e = d.count (Ctr.ckLosses p)) :
    d.ckLoss p last = (if (e.port p).train.state = .up then e
      else (e.breakAgain p causeCk).raise (Isl.belfry (p / 32)) (Src.port p 0) 0x20 0).toDetect p causeCk := by
  subst he
  exact if_neg (by simpa only [hdis, hback, false_or, Nat.not_lt] using hnow)

theorem Dev.phaseAcquired_step {d : Dev} {p : Nat} (h : (d.port p).train.state = .step)
    (hnow : (d.port p).train.since + 40000 ≤ d.belfryNow (p / 32)) :
    d.phaseAcquired p = d.modTrain p (fun t => { t with phased := true }) := by
  simp [Dev.phaseAcquired, h, hnow]

theorem Dev.limpRetry_due {d : Dev} {p : Nat} (h : (d.port p).train.state = .limp)
    (hnow : (d.port p).train.since + 1000000000 ≤ d.belfryNow (p / 32)) :
    d.limpRetry p = ((d.liftExclusions p).modTrain p (fun t => { t with finalTier := 1, limpTry := true })).toStep p 1
      (d.port p).train.width := by
  simp [Dev.limpRetry, h, hnow]

/-- Settles O23: each command by what it does where the conditions of its rule hold. -/
theorem portStateCommandsComplete : Obligations.PortStateCommandsComplete := by
  refine ⟨?disable, ?enable, ?retrainUp, ?retrainTraining, ?retrainIdle, ?ckDetected, ?timeout, ?backoff, ?ckLoss, ?phase,
    ?limpRetry⟩
  case disable =>
    intro s p h
    exact (answers_act (f := fun d => d.portEnable p false) rfl (Dev.portEnable_falls h)).imp fun d hd => ⟨_, rfl, hd⟩
  case enable =>
    intro s p h
    refine (answers_act (f := fun d => d.portEnable p true) rfl (Dev.portEnable_rises h rfl)).imp fun d hd => ⟨_, ?_, hd⟩
    simp [Dev.clearExclusions]
  case retrainUp =>
    intro s p hrun h
    exact answers_portRuns (·.portRetrain p) hrun (Dev.portRetrain_up h) rfl
  case retrainTraining =>
    intro s p hrun h
    exact answers_portRuns (·.portRetrain p) hrun (Dev.portRetrain_training h) rfl
  case retrainIdle =>
    intro s p hrun hup h
    exact answers_portRuns (·.portRetrain p) hrun (Dev.portRetrain_idle hup h) rfl
  case ckDetected =>
    intro s p hrun h hnow
    exact answers_portRuns (·.ckDetected p) hrun (Dev.ckDetected_due h hnow) rfl
  case timeout =>
    intro s p n hrun hn hnow hagreed
    exact answers_portRuns (·.trainingTimeout p) hrun (Dev.trainingTimeout_due hn hnow hagreed) rfl
  case backoff =>
    intro s p hrun h hnow hlimp
    exact answers_portRuns (·.backoffEnd p) hrun (Dev.backoffEnd_due h hnow hlimp) rfl
  case ckLoss =>
    intro s p last hrun hdis hback hnow
    exact (answers_portRuns (·.ckLoss p last) hrun (Dev.ckLoss_due hdis hback hnow rfl) rfl).imp fun d hd => ⟨_, rfl, hd⟩
  case phase =>
    intro s p hrun h hnow
    exact answers_portRuns (·.phaseAcquired p) hrun (Dev.phaseAcquired_step h hnow) rfl
  case limpRetry =>
    intro s p hrun h hnow
    exact answers_portRuns (·.limpRetry p) hrun (Dev.limpRetry_due h hnow) rfl

end Sys2Proof.Machine
end

section
/-! What ordered sets and training words tell a port where the conditions of their rules hold (03 R87, R92, R93). -/

namespace Sys2Proof.Machine

/-! ## Ordered sets (R92) -/

/-- A TS1 of valid form in T0_ALIGN or T0_CONFIG: what it says of the peer, one more set of the run, and the agreement. -/
theorem Dev.ts1Received_valid {d e : Dev} {p lane : Nat} {groups : Groups} {syms : List Sym} {b : List Byte}
    (hset : d.receiveSet p lane groups = (e, some syms))
    (hst : (e.port p).train.state = .t0Align ∨ (e.port p).train.state = .t0Config) (hb : trainingBody symTs1 syms = some b) :
    d.ts1Received p lane groups = ((e.learnPeer p (field b 2 6) (bits (byteAt b 1) 6 0)).modTrain p (fun t =>
      { t with peer := peerOfSet b }.countAligned lane (bit (byteAt b 10) 0))).agree p := by
  have hlisten : ((e.port p).train.state != .t0Align && (e.port p).train.state != .t0Config) = false := by
    rcases hst with h | h <;> simp [h]
  simp only [Dev.ts1Received, hset, hlisten, Option.bind_some, hb]
  rfl

/-- A TS2 of valid form on a good lane of a follower in T0_CONFIG without a countdown: the leader's parameters. -/
theorem Dev.ts2Received_follows {d e : Dev} {p lane : Nat} {groups : Groups} {syms : List Sym} {b : List Byte}
    (hset : d.receiveSet p lane groups = (e, some syms)) (hgood : (e.port p).train.goodLanes.contains lane = true)
    (hst : (e.port p).train.state = .t0Config) (hlead : (e.port p).train.leader = false) (hcd : (e.port p).train.countdown = none)
    (hb : trainingBody symTs2 syms = some b) :
    d.ts2Received p lane groups = e.modTrain p (fun t =>
      { t with peer := peerOfSet b, finalTier := min (e.port p).tierMax (bits (byteAt b 0) 5 4), finalFar := bit (byteAt b 11) 2,
               countdown := some ⟨bits (byteAt b 11) 1 0, false, bit (byteAt b 11) 2, byteAt b 8, 16, false⟩ }) := by
  simp only [Dev.ts2Received, hset, Option.bind_some, hb, hst, hgood, hlead, hcd]
  rfl

/-! ## Training words (R87, R93) -/

/-- Counting a set or a word changes the run alone. -/
theorem Train.countAligned_run (t : Train) (lane : Nat) (aligned : Bool) :
    ∃ n, t.countAligned lane aligned = { t with alignedRun := n } := by
  unfold Train.countAligned
  split
  · exact ⟨_, rfl⟩
  · split <;> exact ⟨_, rfl⟩

@[simp] theorem Train.countAligned_state (t : Train) (lane : Nat) (aligned : Bool) :
    (t.countAligned lane aligned).state = t.state := by
  obtain ⟨n, h⟩ := t.countAligned_run lane aligned
  rw [h]
@[simp] theorem Train.countAligned_leader (t : Train) (lane : Nat) (aligned : Bool) :
    (t.countAligned lane aligned).leader = t.leader := by
  obtain ⟨n, h⟩ := t.countAligned_run lane aligned
  rw [h]
@[simp] theorem Train.countAligned_req (t : Train) (lane : Nat) (aligned : Bool) :
    (t.countAligned lane aligned).req = t.req := by
  obtain ⟨n, h⟩ := t.countAligned_run lane aligned
  rw [h]

/-- Only a port in RETRAIN joins a retest. -/
theorem Dev.joinRetest_step {d : Dev} {p : Nat} (h : (d.port p).train.state = .step) : d.joinRetest p = d := by
  simp [Dev.joinRetest, h]

/-- A word in STEP at a follower without a request of its own: the peer's fields, one more word of the run, and the leader's
countdown. -/
theorem Dev.wordTraining_follows {d : Dev} {p lane : Nat} {w : List Byte} (hst : (d.port p).train.state = .step)
    (hlead : (d.port p).train.leader = false) (hreq : (d.port p).train.req = false) (hcd : byteAt w 16 ≠ 255) :
    d.wordTraining p lane w = d.modTrain p (fun t =>
      { ({ t with peer := { t.peer with far := bit (byteAt w 4) 6, width := byteAt w 6, laneGood := byteAt w 15,
                                        aligned := bit (byteAt w 7) 0, req := bit (byteAt w 7) 1 } }.countAligned lane
          (bit (byteAt w 7) 0)) with
        countdown := some ⟨bits (byteAt w 17) 1 0, bit (byteAt w 17) 2, bit (byteAt w 17) 3, byteAt w 6, byteAt w 16,
                          byteAt w 16 == 0⟩ }) := by
  simp [Dev.wordTraining, Dev.joinRetest_step, hst, hlead, hreq, hcd, Dev.modTrain_modTrain]

/-- What CK having been seen leaves of a port's training. -/
theorem Dev.ckSeen_train (d : Dev) (p : Nat) :
    ((d.ckSeen p).port p).train = { (d.port p).train with ckAt := max (d.port p).train.ckAt (d.belfryNow (p / 32)) } := by
  simp [Dev.ckSeen]

/-- A valid word that reaches a port in STEP outside P2: CK has been seen where the port runs, and the word is taken. -/
theorem Dev.trainingWordReceived_step {d e : Dev} {p lane : Nat} {w : List Byte} (hgate : d.gated = false)
    (hst : (d.port p).train.state = .step) (hw : goodWord w = true) (he : e = if d.portRuns p then d.ckSeen p else d) :
    d.trainingWordReceived p lane w = e.wordTraining p lane w := by
  have hstate : (e.port p).train.state = .step := by
    subst he; split <;> simp [Dev.ckSeen_train, hst]
  have hgated : e.gated = false := by
    subst he; split <;> exact hgate
  simp only [Dev.trainingWordReceived, ← he, hstate, hgated, hw]
  rfl

theorem Dev.countdownEnd_step {d : Dev} {p : Nat} {c : Countdown} (hc : (d.port p).train.countdown = some c)
    (hst : (d.port p).train.state = .t0Config) (htarget : 1 ≤ c.target) (hend : c.ended = true) :
    d.countdownEnd p = d.toStep p c.target c.width := by
  simp [Dev.countdownEnd, hc, hst, htarget, hend]

/-- Settles O24: each command by what it does where the conditions of its rule hold. -/
theorem trainingSetsComplete : Obligations.TrainingSetsComplete := by
  refine ⟨?ts1, ?ts2, ?word, ?countdown⟩
  case ts1 =>
    intro s p lane groups e syms b hrun hset hst hb
    exact answers_portRuns (·.ts1Received p lane groups) hrun (Dev.ts1Received_valid hset hst hb) rfl
  case ts2 =>
    intro s p lane groups e syms b hrun hset hgood hst hlead hcd hb
    exact answers_portRuns (·.ts2Received p lane groups) hrun (Dev.ts2Received_follows hset hgood hst hlead hcd hb) rfl
  case word =>
    intro s p lane word hrun hgate hst hw hlead hreq hcd
    refine (answers_actIf (g := fun d => d.rxRuns p) (f := fun d => d.trainingWordReceived p lane word) rfl hrun
      ((Dev.trainingWordReceived_step hgate hst hw rfl).trans (Dev.wordTraining_follows ?_ ?_ ?_ hcd))).imp fun d hd => ⟨_, rfl, hd⟩
    all_goals split <;> simp [Dev.ckSeen_train, hst, hlead, hreq]
  case countdown =>
    intro s p c hrun hc hst htarget hend
    exact answers_portRuns (·.countdownEnd p) hrun (Dev.countdownEnd_step hc hst htarget hend) rfl

end Sys2Proof.Machine
end

section
/-! What lane failures and the sleep of a direction do where the conditions of their rules hold (03 R96, R100 to R102). -/

namespace Sys2Proof.Machine

/-! ## Lane failures (R96) -/

theorem Dev.lanePhaseFail_step {d : Dev} {p lane : Nat} (hawake : (d.port p).train.rxAsleep = false)
    (hst : (d.port p).train.state = .step) : d.lanePhaseFail p lane = d.laneFail p lane := by
  simp [Dev.lanePhaseFail, hawake, hst]

/-- The end of one lane error window: the worn lanes fail. -/
theorem Dev.laneErrorWindow_once {d : Dev} {p : Nat} {worn : List Nat} (hst : (d.port p).train.state = .up)
    (hdue : (d.port p).train.errStart + 1000000 ≤ d.belfryNow (p / 32))
    (honce : d.belfryNow (p / 32) < (d.port p).train.errStart + 2000000)
    (hworn : worn = (List.range 8).filter (fun l => decide ((d.port p).laneErrLimit < ((d.port p).train.lane l).corrected))) :
    d.laneErrorWindow p = forEach worn (fun l d => d.laneFail p l) (d.modTrain p (fun t =>
      { t with errStart := t.errStart + 1000000, lanes := (List.range 8).map (fun l => (l, { t.lane l with corrected := 0 })) })) := by
  have hpast : (d.belfryNow (p / 32) - (d.port p).train.errStart) / 1000000 = 1 := by omega
  simp only [Dev.laneErrorWindow, hpast, hst, ← hworn]
  rfl

/-! ## Sleep (R100 to R102) -/

theorem Dev.txSleepEntry_due {d : Dev} {p : Nat} (hst : (d.port p).train.state = .up) (hopen : (d.port p).toll.state = .opened)
    (hen : (d.port p).sleepEn = true) (hawake : (d.port p).train.txAsleep = false) (hidle : (d.port p).needsSend = false)
    (hblock : (d.port p).toll.txBlock = []) (hnow : (d.port p).train.idleSince + (d.port p).idleSleep ≤ d.belfryNow (p / 32)) :
    d.txSleepEntry p = d.sleepTx p := by
  simp [Dev.txSleepEntry, hst, hopen, hen, hawake, hidle, hblock, hnow]

theorem Dev.txWake_due {d : Dev} {p : Nat} (hst : (d.port p).train.state = .up) (hsleep : (d.port p).train.txAsleep = true)
    (hsend : (d.port p).needsSend = true) (hen : d.lantern.entering = none) : d.txWake p = d.wakeTx p 16 := by
  simp [Dev.txWake, hst, hsleep, hsend, hen]

/-- The beacon of a sleeping receive direction has ended. -/
theorem Dev.ckBeaconEnd_asleep {d : Dev} {p : Nat} (hst : (d.port p).train.state = .up) (hsleep : (d.port p).train.rxAsleep = true) :
    d.ckBeaconEnd p = d.setPort p { d.port p with
      train := { (d.port p).train with
        beaconEnd := some (d.belfryNow (p / 32)), wakeRun := 0
        ckAt := max (d.port p).train.ckAt (d.belfryNow (p / 32)) } } := by
  simp [Dev.ckBeaconEnd, Dev.modTrain, Dev.modPort, hst, hsleep]

theorem Dev.wakeFail_due {d : Dev} {p b : Nat} (hst : (d.port p).train.state = .up) (hsleep : (d.port p).train.rxAsleep = true)
    (hb : (d.port p).train.beaconEnd = some b) (hnow : b + 200 ≤ d.belfryNow (p / 32)) :
    d.wakeFail p = (d.count (Ctr.wakeFails p)).toRetrain p causeRequest false := by
  simp [Dev.wakeFail, hst, hsleep, hb, hnow]

theorem Dev.sleepRefresh_due {d e : Dev} {p : Nat} (hst : (d.port p).train.state = .up) (hsleep : (d.port p).train.txAsleep = true)
    (hnow : (d.port p).train.txSince + 10000000 ≤ d.belfryNow (p / 32)) (he : e = d.wakeTx p 256) :
    d.sleepRefresh p = if (e.port p).needsSend = true then e else e.sleepTx p := by
  simp [Dev.sleepRefresh, hst, hsleep, hnow, he]

/-- Settles O25: each command by what it does where the conditions of its rule hold. -/
theorem laneFailureAndSleepComplete : Obligations.LaneFailureAndSleepComplete := by
  refine ⟨?phaseFail, ?window, ?sleep, ?wake, ?beacon, ?wakeFail, ?refresh⟩
  case phaseFail =>
    intro s p lane hrun hawake hst
    exact (answers_portRuns (·.lanePhaseFail p lane) hrun (Dev.lanePhaseFail_step hawake hst) rfl).imp fun d hd => ⟨_, rfl, hd⟩
  case window =>
    intro s p worn hrun hst hdue honce hworn
    exact (answers_portRuns (·.laneErrorWindow p) hrun (Dev.laneErrorWindow_once hst hdue honce hworn) rfl).imp
      fun d hd => ⟨_, rfl, hd⟩
  case sleep =>
    intro s p hrun hst hopen hen hawake hidle hblock hnow
    exact answers_portRuns (·.txSleepEntry p) hrun (Dev.txSleepEntry_due hst hopen hen hawake hidle hblock hnow) rfl
  case wake =>
    intro s p hrun hst hsleep hsend hen
    exact answers_portRuns (·.txWake p) hrun (Dev.txWake_due hst hsleep hsend hen) rfl
  case beacon =>
    intro s p hrun hst hsleep
    exact answers_actIf (g := fun d => d.rxRuns p) (f := fun d => d.ckBeaconEnd p) rfl hrun (Dev.ckBeaconEnd_asleep hst hsleep)
  case wakeFail =>
    intro s p b hrun hst hsleep hb hnow
    exact answers_portRuns (·.wakeFail p) hrun (Dev.wakeFail_due hst hsleep hb hnow) rfl
  case refresh =>
    intro s p hrun hst hsleep hnow
    exact (answers_portRuns (·.sleepRefresh p) hrun (Dev.sleepRefresh_due hst hsleep hnow rfl) rfl).imp fun d hd => ⟨_, rfl, hd⟩

end Sys2Proof.Machine
end

section
/-! What limp frames, FC symbols and LANE_BITSLIP do where the conditions of their rules hold (03 R85, R90, R91, R104). -/

namespace Sys2Proof.Machine

/-! ## Limp mode (R85, R104) -/

/-- A good frame of a VC from 16 to 19: its flit goes to Belfry. -/
theorem Dev.limpFrameReceived_good {d e : Dev} {p : Nat} {lanes : List Groups} {syms : List (List Sym)} {b : List Byte}
    (hst : (d.port p).train.state = .limp)
    (hdec : (d.ckSeen p).decodeLanes p (activeLanes (d.port p).train.width) lanes = (e, syms)) (hcodes : syms.any codeError = false)
    (hlen : lanes.length = (activeLanes (d.port p).train.width).length) (hframe : frameOf syms = some b)
    (hcrc : crc32 (b.take 132) = field b 132 4) (hlo : 16 ≤ field b 0 4) (hhi : field b 0 4 ≤ 19) :
    d.limpFrameReceived p lanes = e.releaseFlit p false (field b 0 4) (sliceBytes b 4 128) := by
  have hvc : ¬ (field b 0 4 < 16 ∨ 19 < field b 0 4) := by omega
  simp [Dev.limpFrameReceived, hst, hdec, hcodes, hlen, hframe, hcrc, hvc]

/-- A valid FC set of an active lane in LIMP: the peer's stop bits. -/
theorem Dev.fcReceived_valid {d e : Dev} {p lane : Nat} {groups : Groups} {syms : List Sym} {b : List Byte}
    (hset : d.receiveSet p lane groups = (e, some syms)) (hact : (activeLanes (e.port p).train.width).contains lane = true)
    (hst : (e.port p).train.state = .limp) (hb : setBody symFc syms = some b) :
    d.fcReceived p lane groups = e.modToll p (fun t => { t with peerStop := field b 0 3 % 2 ^ 20 }) := by
  simp only [Dev.fcReceived, hset, hst, hact, Option.bind_some, hb]
  rfl

/-- FC on a change of a stop bit, or 4 µs after the last. -/
theorem Dev.limpFcSend_due {d : Dev} {p : Nat} (hst : (d.port p).train.state = .limp)
    (hdue : (d.port p).stopSent ≠ (d.port p).train.fcStop ∨ (d.port p).train.fcAt + 4000 ≤ d.belfryNow (p / 32)) :
    d.limpFcSend p = ((forEach (activeLanes (d.port p).train.width)
      (fun l e => e.sendT0 p l (fcSet (d.port p).stopSent (d.port p).train.seq)) d).takeLanes p 16).modTrain p (fun t =>
        { t with fcAt := d.belfryNow (p / 32), fcStop := (d.port p).stopSent, seq := (t.seq + 1) % 256 }) :=
  if_pos (by simpa [hst] using hdue)

/-! ## LANE_BITSLIP (R90, R91) -/

/-- The row of an OP of LANE_BITSLIP that starts and ends with its own body answers the body's device with its final reply. -/
theorem answers_slip {c : Instr} {s : State} {path : Path} {tag : Nat} {body : Dev → Request → Dev × Answer} {q : Request}
    {ptr st : Nat} {e : Dev} {ps : List Byte} (own : Nat → Bool) (hc : exec c s = slipCommand own path tag body s)
    (h : Starts s slipForm path tag q ptr) (hown : own (slipOp q.params) = true)
    (hb : body (s.dev.started q ptr) q = (e, .done st ps)) : Answers c s (fun d => d = e.finish path tag st ps) :=
  answers_command (hc.trans (commandIf_own h hown)) h hb

theorem Dev.slipBody_ok {d : Dev} {q : Request} (h : d.slipStatus q.params false = Ocm.ok) :
    d.slipBody q = (d.slip q.params, .done Ocm.ok []) := by
  simp [Dev.slipBody, h]

theorem Dev.checkBody_ok {d : Dev} {q : Request} (seen : List (Nat × Nat)) (h : d.checkStatus q.params = Ocm.ok) :
    d.checkBody q seen = (d.check q.params seen false, .done Ocm.ok (checkReply q.params seen)) := by
  simp [Dev.checkBody, h]

theorem Dev.readBody_read {d : Dev} {q : Request} (h : slipOp q.params = 3) :
    d.readBody q = (d, .done Ocm.ok (d.slipRead q.params)) := by
  simp [Dev.readBody, h]

/-- Settles O26: each command by what it does where the conditions of its rule hold. -/
theorem limpAndBitSlipCommandsComplete : Obligations.LimpAndBitSlipCommandsComplete := by
  refine ⟨?frame, ?fc, ?fcSend, ?capture, ?slip, ?check, ?read⟩
  case frame =>
    intro s p lanes e syms b hrun hst hdec hcodes hlen hframe hcrc hlo hhi
    exact answers_portRuns (·.limpFrameReceived p lanes) hrun
      (Dev.limpFrameReceived_good hst hdec hcodes hlen hframe hcrc hlo hhi) rfl
  case fc =>
    intro s p lane groups e syms b hrun hset hact hst hb
    exact answers_portRuns (·.fcReceived p lane groups) hrun (Dev.fcReceived_valid hset hact hst hb) rfl
  case fcSend =>
    intro s p hrun hst hdue
    exact (answers_portRuns (·.limpFcSend p) hrun (Dev.limpFcSend_due hst hdue) rfl).imp fun d hd => ⟨_, rfl, hd⟩
  case capture =>
    intro s path tag raw q ptr h hop
    exact answers_slip (fun op => op == 0) rfl h (by simp [hop]) rfl
  case slip =>
    intro s path tag q ptr h hop hok
    exact answers_slip (fun op => op == 1) rfl h (by simp [hop]) (Dev.slipBody_ok hok)
  case check =>
    intro s path tag seen q ptr h hop hok
    exact answers_slip (fun op => op == 2) rfl h (by simp [hop]) (Dev.checkBody_ok seen hok)
  case read =>
    intro s path tag q ptr h hop
    exact answers_slip (fun op => decide (3 ≤ op)) rfl h (by simp [hop]) (Dev.readBody_read hop)

end Sys2Proof.Machine
end

section
/-! What a link unit's arrival and leaving and the link timers do where the conditions of their rules hold (04 R114, R115, R117,
R118, R121, R125). -/

namespace Sys2Proof.Machine

/-! ## Receiving (R114) -/

/-- A slot that reaches a port in UP whose receive direction is awake: the due lane error window ends first, the runs of sleep and
wake words end with it, and the slot is one unit in near mode and part of a block in far mode. -/
theorem Dev.linkUnitReceived_awake {d a e : Dev} {p : Nat} {slot : List (List Byte)}
    (ha : a = if d.gated then d else d.laneErrorWindow p) (hst : (a.port p).train.state = .up)
    (hawake : (a.port p).train.rxAsleep = false)
    (he : e = a.modTrain p (fun t => { t with leaving := [], wakeRun := 0, ckAt := max t.ckAt (a.belfryNow (p / 32)) })) :
    d.linkUnitReceived p slot = if (a.port p).train.far then e.slotFar p slot
      else e.unitReceived p (unitOfSlot (widthLanes (a.port p).train.width) slot) := by
  simp only [Dev.linkUnitReceived, ← ha, ← he, hst, hawake]
  rfl

/-- A unit whose two codewords decode and whose CRC agrees: its corrected symbols are counted and it is a good unit. -/
theorem Dev.unitReceived_good {d : Dev} {p : Nat} {wire data : List Byte} {e0 e1 : List (Nat × Nat)} {c : Control}
    (hst : (d.port p).train.state = .up) (h0 : rsErrors (codeword wire 0) = some e0) (h1 : rsErrors (codeword wire 1) = some e1)
    (hdata : data = (correct (correct wire 0 e0) 1 e1).take 272) (hcrc : crc32 (data.take 268) = field data 268 4)
    (hc : c = Control.ofNat (field data 256 12)) :
    d.unitReceived p wire = ((d.countCorrected p 0 e0).countCorrected p 1 e1).goodUnit p c
      ((if c.f0Valid then [(c.f0Vc, sliceBytes data 0 128)] else []) ++
       (if c.f1Valid then [(c.f1Vc, sliceBytes data 128 128)] else [])) := by
  simp [Dev.unitReceived, hst, h0, h1, ← hdata, hcrc, ← hc]

/-! ## Sending (R115) -/

/-- The lowest due resend goes, with its number and its flits (R118). -/
theorem Dev.linkUnitSend_resend {d e : Dev} {p : Nat} {u : Replay} (hst : (d.port p).train.state = .up)
    (hawake : (d.port p).train.txAsleep = false) (hopen : (d.port p).toll.state = .opened)
    (hrun : (d.port p).toll.dataRun < 4095) (hdue : (d.port p).toll.nextDue = some u)
    (he : e = (d.count (Ctr.resends p)).modToll p (fun t => { t with
      due := t.due.filter (· != u.seq),
      replay := modWhere (fun v => v.seq == u.seq)
        (fun v => { v with resends := v.resends + 1, sentAt := d.belfryNow (p / 32) }) t.replay })) :
    d.linkUnitSend p = (e.sendUnit p true u.seq u.flits).starve p := by
  simp [Dev.linkUnitSend, hst, hawake, hopen, hrun, hdue, he]

/-- With no resend due, credit and flits handed over, a new DATA unit goes into replay and out. -/
theorem Dev.linkUnitSend_data {d e : Dev} {p : Nat} (hst : (d.port p).train.state = .up)
    (hawake : (d.port p).train.txAsleep = false) (hopen : (d.port p).toll.state = .opened)
    (hrun : (d.port p).toll.dataRun < 4095) (hdue : (d.port p).toll.nextDue = none)
    (hcredit : (d.port p).toll.hasCredit = true) (hhanded : (d.port p).toll.handed ≠ [])
    (he : e = d.modToll p (fun t => { t with
      handed := t.handed.drop 2, nextSeq := (t.nextSeq + 1) % 4096,
      replay := t.replay ++ [⟨t.nextSeq, (d.port p).toll.handed.take 2, 0, d.belfryNow (p / 32)⟩] })) :
    d.linkUnitSend p = (e.sendUnit p false (d.port p).toll.nextSeq ((d.port p).toll.handed.take 2)).starve p := by
  simp [Dev.linkUnitSend, hst, hawake, hopen, hrun, hdue, hcredit, hhanded, he]

/-- Where the link is not OPEN, its run of DATA units has reached its limit, or there is neither a resend nor a new unit to send,
an IDLE unit goes. -/
theorem Dev.linkUnitSend_idle {d : Dev} {p : Nat} (hst : (d.port p).train.state = .up)
    (hawake : (d.port p).train.txAsleep = false)
    (hidle : (d.port p).toll.state = .opened → (d.port p).toll.dataRun < 4095 →
      (d.port p).toll.nextDue = none ∧ ((d.port p).toll.hasCredit = false ∨ (d.port p).toll.handed = [])) :
    d.linkUnitSend p = (d.sendUnit p false (d.port p).toll.nextSeq []).starve p := by
  by_cases hmay : (d.port p).toll.state = .opened ∧ (d.port p).toll.dataRun < 4095
  · obtain ⟨hdue, hnew⟩ := hidle hmay.1 hmay.2
    rcases hnew with h | h <;> simp [Dev.linkUnitSend, hst, hawake, hmay, hdue, h]
  · have hno : ((d.port p).toll.state == .opened && decide ((d.port p).toll.dataRun < 4095)) = false := by simpa using hmay
    simp [Dev.linkUnitSend, hst, hawake, hno]

/-! ## Timers (R117, R118, R121, R125) -/

theorem Dev.resendTimeout_due {d : Dev} {p : Nat} {u : Replay} (hu : (d.port p).timedUnit = some u)
    (hopen : (d.port p).toll.state = .opened) (hnow : u.sentAt + (d.port p).resendTimeout ≤ d.belfryNow (p / 32)) :
    d.resendTimeout p = d.dueResend p u.seq (Ctr.resendTimeouts p) := by
  simp [Dev.resendTimeout, hu, hopen, hnow]

/-- Every missing number whose NAK is older than RESEND_TIMEOUT has its NAK sent again. -/
theorem Dev.nakRepeat_eq (d : Dev) (p : Nat) :
    d.nakRepeat p = d.modToll p (fun t => { t with missing := modWhere (fun m => m.sent.any (fun a =>
      decide (a + (d.port p).resendTimeout ≤ d.clk (Isl.rx p)))) (fun m => { m with sent := none }) t.missing }) := by
  unfold Dev.nakRepeat
  refine congrArg (d.modToll p) (funext fun t => congrArg
    (fun late => { t with missing := modWhere late (fun m => { m with sent := none }) t.missing }) (funext fun m => ?_))
  cases m.sent <;> rfl

/-- A credit timer that has run out is among the causes of the tick's break, whether or not the retry limit is. -/
theorem Dev.timedCauses_credit {d : Dev} {p t : Nat} (hsince : (d.port p).toll.starvedSince = some t)
    (hnow : t + (d.port p).creditTimeout ≤ d.belfryNow (p / 32)) : bit (d.timedCauses p) 1 = true := by
  have hbit (retry : Bool) : bit ((if retry then causeRetry else 0) + causeCredit) 1 = true := by cases retry <;> rfl
  simp only [Dev.timedCauses, hsince, hnow, decide_true, if_true]
  exact hbit _

/-- The end of the credit time-out with the port still starved: the link breaks. -/
theorem Dev.creditTimeoutEnd_due {d e : Dev} {p t : Nat} (he : e = d.starve p) (hsince : (e.port p).toll.starvedSince = some t)
    (hnow : t + (e.port p).creditTimeout ≤ e.belfryNow (p / 32)) : d.creditTimeoutEnd p = e.breakLink p causeCredit := by
  subst he
  exact if_pos (Dev.timedCauses_credit hsince hnow)

theorem Dev.replayHoldEnd_due {d : Dev} {p t : Nat} (hstart : (d.port p).toll.holdStart = some t)
    (hheld : (d.port p).toll.state = .held) (hnow : t + (d.port p).replayHold ≤ d.belfryNow (p / 32)) :
    d.replayHoldEnd p = d.closeLink p true := by
  simp [Dev.replayHoldEnd, hstart, hheld, hnow]

/-- Settles O27: each command by what it does where the conditions of its rule hold. -/
theorem linkCommandsComplete : Obligations.LinkCommandsComplete := by
  refine ⟨?received, ?closed, ?resend, ?data, ?idle, ?resendTimeout, ?nakRepeat, ?creditTimeout, ?holdEnd⟩
  case received =>
    intro s p slot a hrun ha hst hawake
    refine (answers_actIf (g := fun d => d.rxRuns p) (f := fun d => d.linkUnitReceived p slot) rfl hrun
      (Dev.linkUnitReceived_awake ha hst hawake rfl)).imp fun d hd => ⟨_, rfl, fun hfar => ?_, ?_⟩
    · rw [hd, if_pos hfar]
    · intro hfar wire e0 e1 data c hwire h0 h1 hdata hcrc hc
      subst hwire
      rw [hd, if_neg (by simp [hfar]), Dev.unitReceived_good (by simp [Dev.modTrain, hst]) h0 h1 hdata hcrc hc]
  case closed =>
    intro s p hrun hst hawake hclosed
    exact answers_portRuns (·.linkUnitSend p) hrun (Dev.linkUnitSend_idle hst hawake fun h => absurd h hclosed) rfl
  case resend =>
    intro s p u hrun hst hawake hopen hdata hdue
    exact (answers_portRuns (·.linkUnitSend p) hrun (Dev.linkUnitSend_resend hst hawake hopen hdata hdue rfl) rfl).imp
      fun d hd => ⟨_, rfl, hd⟩
  case data =>
    intro s p hrun hst hawake hopen hdata hdue hcredit hhanded
    exact (answers_portRuns (·.linkUnitSend p) hrun
      (Dev.linkUnitSend_data hst hawake hopen hdata hdue hcredit hhanded rfl) rfl).imp
      fun d hd => ⟨_, rfl, hd⟩
  case idle =>
    intro s p hrun hst hawake _ hnone
    exact answers_portRuns (·.linkUnitSend p) hrun
      (Dev.linkUnitSend_idle hst hawake fun _ hdata => hnone.resolve_left (Nat.not_le.mpr hdata)) rfl
  case resendTimeout =>
    intro s p u hrun hu hopen hnow
    exact answers_portRuns (·.resendTimeout p) hrun (Dev.resendTimeout_due hu hopen hnow) rfl
  case nakRepeat =>
    intro s p hrun hst
    exact answers_actIf (g := fun d => d.rxRuns p && (d.port p).train.state == .up) (f := fun d => d.nakRepeat p) rfl
      (by simp [hrun, hst]) (Dev.nakRepeat_eq s.dev p)
  case creditTimeout =>
    intro s p t e hrun he hsince hnow
    exact answers_portRuns (·.creditTimeoutEnd p) hrun (Dev.creditTimeoutEnd_due he hsince hnow) rfl
  case holdEnd =>
    intro s p t hrun hstart hheld hnow
    exact answers_portRuns (·.replayHoldEnd p) hrun (Dev.replayHoldEnd_due hstart hheld hnow) rfl

end Sys2Proof.Machine
end

section
/-! The values of the chip-level registers, of WARDEN_CTRL and of ERR_CTRL after a chip reset (05 R168, 06 R193, 10 R328, 11 R361,
13 R423, 14 R458, 18 R537). -/

namespace Sys2Proof.Machine

@[simp] theorem Dev.chipReset_chip (d : Dev) : d.chipReset.chip = ChipRegs.reset := rfl
@[simp] theorem Dev.chipReset_errCtrl (d : Dev) : d.chipReset.errCtrl = Dev.reset.errCtrl := rfl

/-- Settles O20: a chip reset gives each register its reset word, whatever the device was, and the word's fields are those of its
table. -/
theorem chipResetGivesTheRegistersTheirResetValues : Obligations.ChipResetGivesTheRegistersTheirResetValues := by
  intro d
  simp only [Dev.chipReset_chip, Dev.chipReset_warden, Dev.chipReset_errCtrl]
  refine ⟨?pilot, ?fc, ?carter, ?scrivAndLock, ?wardenAndErr⟩
  case pilot => decide
  case fc => decide
  case carter => decide
  case scrivAndLock => decide
  case wardenAndErr => decide

end Sys2Proof.Machine
end

section
/-! What a header's registration, the copies of chip-level state, the live masks and the sideband report do where the conditions of
their rules hold (05 R150, R152, R157, R168, 15 R479). -/

namespace Sys2Proof.Machine

/-! ## A header registered (R150) -/

/-- A header whose class has a VC travels on it. -/
theorem Region.headerVc_own (x : Region) (input : Nat) {h : Hdr} (hvc : h.vc < 20) : x.headerVc input h = some h.vc := if_pos hvc

/-- A packet that leaves by a port is placed without the tests of a delivery, and waits for the port. -/
theorem Dev.placeTested_port (d : Dev) (r p : Nat) (w : Waiting) (h : Hdr) : d.placeTested r w (some (.port p, h)) =
    d.modRegion r (fun x => { x with waiting := x.waiting ++ [{ w with pkt := { w.pkt with hdr := h }, hop := .port p }] }) := rfl

/-- A good header at a port or a unit, which Pilot sends to a port: its packet waits for the port with the header as it leaves, and its
flits bear its number. -/
theorem Dev.headerRegistered_toPort {d : Dev} {r input p : Nat} {pkt : Packet} {x : Region} {h : Hdr} (hin : input < 32 ∨ 56 ≤ input)
    (hvc : pkt.hdr.vc < 20) (hbind : (d.region r).bindHeader input pkt.hdr.vc (flitsOf pkt.hdr.plen) d.nextId = some x)
    (hgood : pkt.hdr.bad (netPort r input).isSome = false)
    (hhop : ((d.setRegion r x).takeId.hopOf r (netPort r input) pkt.hdr true).2 = some (.port p, h)) :
    d.headerRegistered r input pkt =
      ((d.setRegion r x).takeId.hopOf r (netPort r input) pkt.hdr true).1.modRegion r (fun y =>
        { y with waiting := y.waiting ++ [{ id := d.nextId, input := input, vc := pkt.hdr.vc, stamp := d.belfryNow r,
                                            net := netPort r input, arrived := pkt, pkt := { pkt with hdr := h }, hop := .port p }] }) := by
  have hside : ¬ (32 ≤ input ∧ input < 56) := by omega
  simp only [Dev.headerRegistered, if_neg hside, Region.headerVc_own _ _ hvc, hbind, hgood, Bool.false_eq_true, if_false, hhop,
    Dev.placeTested_port, Dev.takeId_belfryNow, Dev.setRegion_belfryNow]

/-! ## Copies of chip-level state (R157, R168, R479) -/

/-- A region that runs takes what the Warden sends to its copy. -/
theorem Dev.toCopy_runs {d : Dev} {r : Nat} (f : Dev → Dev) (hrun : d.regionRuns r = true) : d.toCopy r f = f d := if_pos hrun

/-- A row that the Warden sends to a region's copy, and that the region takes, answers its device. -/
theorem answers_toCopy {c : Instr} {s : State} {r : Nat} {d : Dev} (f : Dev → Dev) (hc : exec c s = act (fun d => d.toCopy r f) s)
    (hrun : s.dev.regionRuns r = true) (hf : f s.dev = d) : Answers c s (fun e => e = d) :=
  answers_act hc ((Dev.toCopy_runs f hrun).trans hf)

/-- The ports of a region may be live in RUN, and in RESETTING they are down: in every other state what waits for them leaves. -/
theorem RState.notLive_eq_false_iff {st : RState} : st.notLive = false ↔ st = .run ∨ st = .resetting := by cases st <;> decide

/-- A region that runs takes over the state of a port, and chooses what waits for it again while the port's region is in RUN or
RESETTING. -/
theorem Dev.liveMaskUpdate_runs {d : Dev} {r p : Nat} (hrun : d.regionRuns r = true) :
    d.liveMaskUpdate r p = if ((d.setLive r p).region (p / 32)).state = .run ∨ ((d.setLive r p).region (p / 32)).state = .resetting
      then (d.setLive r p).rerouteWaiting r p else d.setLive r p := by
  simp only [Dev.liveMaskUpdate, hrun, Bool.not_true, Bool.false_eq_true, if_false, ← RState.notLive_eq_false_iff]
  cases ((d.setLive r p).region (p / 32)).state.notLive <;> rfl

/-! ## The sideband report (R152) -/

/-- The figures of a region reach each other region that runs and that a running Buttress direction joins to it. -/
theorem Dev.sidebandReport_eq (d : Dev) (r : Nat) : d.sidebandReport r =
    forEach (allRegions.filter (fun q => q != r)) (fun q e =>
      if e.buttressRuns r q = true ∧ e.regionRuns q = true then e.modRegion q (fun x =>
        { x with reports := ((portsOf r).map (fun p => (p, (d.port p).egressBytes))).foldl (fun t f => tput t f.1 f.2) x.reports })
      else e.crossingDrop r) d := by
  simp only [Dev.sidebandReport, Bool.and_eq_true]

/-- Settles O28: each command by what it does where the conditions of its rule hold. -/
theorem routingCommandsComplete : Obligations.RoutingCommandsComplete := by
  refine ⟨?header, ?epoch, ?live, ?sideband, ?apply⟩
  case header =>
    intro s r input pkt x p h hrun hin hvc hbind hgood hhop
    exact answers_actIf (g := fun d => d.regionRuns r) (f := fun d => d.headerRegistered r input pkt) rfl hrun
      (Dev.headerRegistered_toPort hin hvc hbind hgood hhop)
  case epoch =>
    intro s r hrun
    exact answers_toCopy (fun d => d.modRegion r (fun x => { x with epochs := d.epochs })) rfl hrun rfl
  case live =>
    intro s r p hrun
    exact (answers_act (f := fun d => d.liveMaskUpdate r p) rfl (Dev.liveMaskUpdate_runs hrun)).imp fun d hd => ⟨_, rfl, hd⟩
  case sideband =>
    intro s r hrun
    exact answers_actIf (g := fun d => d.regionRuns r) (f := fun d => d.sidebandReport r) rfl hrun (Dev.sidebandReport_eq s.dev r)
  case apply =>
    intro s r reg hrun
    exact answers_toCopy (fun d => (d.modRegion r (fun x => { x with chip := x.chip.applyReg d.chip reg })).pendServe r) rfl hrun rfl

end Sys2Proof.Machine
end

section
/-! What the ROUTE commands do where their parameters name entries and regions that can be served (05 R161 to R164, R559). -/

namespace Sys2Proof.Machine

theorem Dev.routeWrite_served {d : Dev} {q : Request} (hmask : maskRegions q.params ≠ []) (hranged : routeRanged q.params = true)
    (hrun : (maskRegions q.params).all d.routesRun = true) :
    d.routeWrite q = (forEach (maskRegions q.params) (fun r d => d.writeEntries r q.params) d, .done Ocm.ok []) := by
  simp [Dev.routeWrite, hmask, hranged, hrun]

theorem Dev.routeCopy_served {d : Dev} {q : Request} (hmask : maskRegions q.params ≠ [])
    (hrun : (maskRegions q.params).all d.routesRun = true) :
    d.routeCopy q = (forEach (maskRegions q.params) (fun r d => d.modRegion r (fun x => { x with banks := x.banks.copy })) d,
      .done Ocm.ok []) := by
  simp [Dev.routeCopy, hmask, hrun]

/-- With LIVE_WRITE 0 and a region of the mask that swaps, the command goes on until every such region has swapped. -/
theorem Dev.routeCommit_swaps {d : Dev} {q : Request} (hgo : (maskRegions q.params).filter d.commits ≠ [])
    (hlive : d.chip.liveWrite = false) :
    d.routeCommit q = (Dev.planSwaps q.path q.tag ((maskRegions q.params).filter d.commits) d,
      .runs (bits (byteAt q.params 0) 3 0) 0 (zeros 40)) := by
  have hmask : maskRegions q.params ≠ [] := mt (fun h => by rw [h, List.filter_nil]) hgo
  simp only [Dev.routeCommit, List.isEmpty_iff, hmask, hlive, hgo, Bool.false_eq_true, if_false]

theorem Dev.routeRead_served {d : Dev} {q : Request} (hranged : routeRanged q.params = true)
    (hrun : d.routesRun (bits (byteAt q.params 0) 1 0) = true) :
    d.routeRead q = .done Ocm.ok ((List.range (byteAt q.params 4)).flatMap (fun k => leBytes 32
      ((d.region (bits (byteAt q.params 0) 1 0)).banks.read (bit (byteAt q.params 0) 5) (bit (byteAt q.params 0) 4)
        (field q.params 2 2 + k)))) := by
  simp [Dev.routeRead, hranged, hrun]

/-- Settles O29: each command by what its body does where the conditions of its rule hold. -/
theorem routeTableCommandsComplete : Obligations.RouteTableCommandsComplete := by
  refine ⟨?write, ?copy, ?commit, ?read⟩
  case write =>
    intro s path tag q ptr h hmask hranged hrun
    exact answers_command rfl h (Dev.routeWrite_served hmask hranged hrun)
  case copy =>
    intro s path tag q ptr h hmask hrun
    exact answers_command rfl h (Dev.routeCopy_served hmask hrun)
  case commit =>
    intro s path tag q ptr h hgo hlive
    exact (answers_commandRuns rfl h (Dev.routeCommit_swaps hgo hlive)).imp fun d hd => ⟨_, rfl, hd⟩
  case read =>
    intro s path tag q ptr h hranged hrun
    exact ⟨_, reading_done h (Dev.routeRead_served hranged hrun), rfl⟩

end Sys2Proof.Machine
end

section
/-! What the writes of queue contexts leave as it is (08 R234, R236). -/

namespace Sys2Proof.Machine

/-! ## Changes of the queues of one endpoint and of its counts of context writes -/

/-- Of a device one endpoint, which meets `P` afterwards, and its counters of rejected and failed context writes alone have changed. -/
structure Dev.WritesContexts (d : Dev) (ep : Nat) (P : Endpoint → Prop) (e : Dev) : Prop where
  frame : e = { d with eps := e.eps, counters := e.counters }
  others : ∀ k : Nat, k ≠ ep → e.ep k = d.ep k
  counts : ∀ n : Nat, n ≠ Ctr.ctxWriteRejects ep → n ≠ Ctr.ctxErrors ep → e.counter n = d.counter n
  own : P (e.ep ep)

/-- Of an endpoint the context of one send queue alone has changed. -/
def Endpoint.SqOnly (x : Endpoint) (q : Nat) (y : Endpoint) : Prop :=
  (∀ k : Nat, k ≠ q → y.sq k = x.sq k) ∧ { y with sqs := x.sqs } = x

/-- Of an endpoint the contexts of its completion and event queues alone have changed. -/
def Endpoint.RecsOnly (x y : Endpoint) : Prop := { y with cqs := x.cqs, eqs := x.eqs } = x

theorem Endpoint.SqOnly.modSq {x y : Endpoint} {q : Nat} (h : x.SqOnly q y) (f : Sq → Sq) : x.SqOnly q (y.modSq q f) :=
  ⟨fun k hk => (y.modSq_other f hk).trans (h.1 k hk), h.2⟩

namespace Dev.WritesContexts

variable {d e a b : Dev} {ep q : Nat} {P : Endpoint → Prop} {x : Endpoint}

theorem refl (h : P (d.ep ep)) : d.WritesContexts ep P d := ⟨rfl, fun _ _ => rfl, fun _ _ _ => rfl, h⟩

theorem ite {c : Prop} [Decidable c] (ha : d.WritesContexts ep P a) (hb : d.WritesContexts ep P b) :
    d.WritesContexts ep P (if c then a else b) := by split <;> assumption

theorem modEp (h : d.WritesContexts ep P e) {f : Endpoint → Endpoint} (hf : P (f (e.ep ep))) :
    d.WritesContexts ep P (e.modEp ep f) where
  frame := congrArg (fun y : Dev => y.modEp ep f) h.frame
  others k hk := (e.modEp_other f hk).trans (h.others k hk)
  counts := h.counts
  own := by rwa [Dev.modEp_same]

theorem count (h : d.WritesContexts ep P e) {n : Nat} (hn : n = Ctr.ctxWriteRejects ep ∨ n = Ctr.ctxErrors ep) :
    d.WritesContexts ep P (e.count n) where
  frame := congrArg (fun y : Dev => y.count n) h.frame
  others := h.others
  counts m hr he := (e.count_other (by rcases hn with rfl | rfl <;> assumption)).trans (h.counts m hr he)
  own := h.own

theorem reject (h : d.WritesContexts ep P e) : d.WritesContexts ep P (e.count (Ctr.ctxWriteRejects ep)) := h.count (.inl rfl)

theorem fail (h : d.WritesContexts ep P e) : d.WritesContexts ep P (e.count (Ctr.ctxErrors ep)) := h.count (.inr rfl)

/-! ## Send queues -/

theorem modSq (h : d.WritesContexts ep (x.SqOnly q) e) (f : Sq → Sq) : d.WritesContexts ep (x.SqOnly q) (e.modSq ep q f) :=
  h.modEp (h.own.modSq f)

theorem sqTryEnable (h : d.WritesContexts ep (x.SqOnly q) e) : d.WritesContexts ep (x.SqOnly q) (e.sqTryEnable ep q) :=
  ite (h.modSq _) (h.modSq _).fail

theorem sqEnableLater (h : d.WritesContexts ep (x.SqOnly q) e) : d.WritesContexts ep (x.SqOnly q) (e.sqEnableLater ep q) := by
  unfold Dev.sqEnableLater
  split
  · exact h
  · exact h.modSq _
  · exact h.modSq _

theorem sqCfgWrite (h : d.WritesContexts ep (x.SqOnly q) e) (v : Reg) : d.WritesContexts ep (x.SqOnly q) (e.sqCfgWrite ep q v) :=
  have counted := ite h h.reject
  ite (ite (h.modSq _).sqTryEnable (h.modSq _)) (ite counted.sqEnableLater (counted.modSq _))

theorem drainDone (h : d.WritesContexts ep (x.SqOnly q) e) : d.WritesContexts ep (x.SqOnly q) (e.drainDone ep q) := ite (h.modSq _) h

/-! ## Completion and event queues -/

theorem modCq (h : d.WritesContexts ep x.RecsOnly e) (c : Nat) (f : Cq → Cq) : d.WritesContexts ep x.RecsOnly (e.modCq ep c f) :=
  h.modEp h.own

theorem modEq (h : d.WritesContexts ep x.RecsOnly e) (k : Nat) (f : Cq → Cq) : d.WritesContexts ep x.RecsOnly (e.modEq ep k f) :=
  h.modEp h.own

theorem cqCfgWrite (h : d.WritesContexts ep x.RecsOnly e) (c : Nat) (v : Reg) : d.WritesContexts ep x.RecsOnly (e.cqCfgWrite ep c v) :=
  have counted := ite h h.reject
  ite (ite (h.modCq c _) (h.modCq c _)) (ite counted (ite counted.fail (counted.modCq c _)))

theorem eqCfgWrite (h : d.WritesContexts ep x.RecsOnly e) (k : Nat) (v : Reg) : d.WritesContexts ep x.RecsOnly (e.eqCfgWrite ep k v) :=
  have counted := ite h h.reject
  ite (ite (h.modEq k _) (h.modEq k _)) (ite counted (counted.modEq k _))

theorem recCfgWrite (h : d.WritesContexts ep x.RecsOnly e) (n : RecQ) (v : Reg) :
    d.WritesContexts ep x.RecsOnly (e.recCfgWrite ep n v) := by
  cases n with
  | cq c => exact h.cqCfgWrite c v
  | eq k => exact h.eqCfgWrite k v

/-- A row on the device alone writes contexts only where its function does. -/
theorem of_actIf {c : Instr} {s t : State} (g : Dev → Bool) (f : Dev → Dev) (hP : P (s.dev.ep ep))
    (hf : s.dev.WritesContexts ep P s.dev → s.dev.WritesContexts ep P (f s.dev))
    (hc : exec c s = actIf g f s) (ht : exec c s = .next t) : s.dev.WritesContexts ep P t.dev := by
  obtain rfl : { s with dev := if g s.dev then f s.dev else s.dev } = t := Host.Outcome.next.inj (hc.symm.trans ht)
  exact ite (hf (refl hP)) (refl hP)

/-- What the send-queue commands change. -/
theorem of_sqCommand {s t : State} {c : Instr} {ep : Fin 16} {sq : Fin 8192} {cfg : Reg} (ht : exec c s = .next t)
    (hc : c ∈ [.sqEnable ep sq cfg, .sqDisable ep sq cfg, .sqDrainDone ep sq]) :
    s.dev.WritesContexts ep ((s.dev.ep ep).SqOnly sq) t.dev := by
  simp only [List.mem_cons, List.not_mem_nil, or_false] at hc
  have same : (s.dev.ep ep).SqOnly sq (s.dev.ep ep) := ⟨fun _ _ => rfl, rfl⟩
  rcases hc with rfl | rfl | rfl
  · exact .of_actIf (fun d => d.epUp ep && d.barOpen ep)
      (fun d => d.sqCfgWrite ep sq (cfg ||| 1#64)) same (fun h => h.sqCfgWrite _) rfl ht
  · exact .of_actIf (fun d => d.epUp ep && d.barOpen ep)
      (fun d => d.sqCfgWrite ep sq (cfg &&& ~~~1#64)) same (fun h => h.sqCfgWrite _) rfl ht
  · exact .of_actIf (fun d => d.epUp ep) (fun d => d.drainDone ep sq) same (fun h => h.drainDone) rfl ht

/-- What the completion-queue commands change. -/
theorem of_cqCommand {s t : State} {c : Instr} {ep : Fin 16} {q : RecQ} {cfg : Reg} (ht : exec c s = .next t)
    (hc : c ∈ [.cqEnable ep q cfg, .cqDisable ep q cfg]) : s.dev.WritesContexts ep (s.dev.ep ep).RecsOnly t.dev := by
  simp only [List.mem_cons, List.not_mem_nil, or_false] at hc
  rcases hc with rfl | rfl
  · exact .of_actIf (fun d => d.epUp ep && d.barOpen ep)
      (fun d => d.recCfgWrite ep q (cfg ||| 1#64)) rfl (fun h => h.recCfgWrite q _) rfl ht
  · exact .of_actIf (fun d => d.epUp ep && d.barOpen ep)
      (fun d => d.recCfgWrite ep q (cfg &&& ~~~1#64)) rfl (fun h => h.recCfgWrite q _) rfl ht

end Dev.WritesContexts

/-- Settles O18: the send-queue commands write one send queue's context alone, the others those of record queues alone. -/
theorem queueContextWritesKeepTheRest : Obligations.QueueContextWritesKeepTheRest := by
  intro s t c ep sq q cfg ht hc
  have hsq := Dev.WritesContexts.of_sqCommand (ep := ep) (sq := sq) (cfg := cfg) ht
  have hrec := Dev.WritesContexts.of_cqCommand (ep := ep) (q := q) (cfg := cfg) ht
  have hkind : c ∈ [.sqEnable ep sq cfg, .sqDisable ep sq cfg, .sqDrainDone ep sq] ∨ c ∈ [.cqEnable ep q cfg, .cqDisable ep q cfg] :=
    List.mem_append.1 hc
  have hframe : ∃ P, s.dev.WritesContexts ep P t.dev := hkind.elim (fun h => ⟨_, hsq h⟩) (fun h => ⟨_, hrec h⟩)
  obtain ⟨P, h⟩ := hframe
  exact ⟨h.frame, h.others, h.counts, fun hc => (hsq hc).own, fun hc => (hrec hc).own⟩

end Sys2Proof.Machine
end

section
/-! What doorbells, pushes and writes of queue contexts do by the state of the queue (08 R229 to R236, R259, R267). -/

namespace Sys2Proof.Machine

/-! ## Rows of an endpoint -/

theorem answers_epUp {c : Instr} {s : State} {ep : Fin 16} {d : Dev} (f : Dev → Dev) (hc : exec c s = actIf (fun d => d.epUp ep) f s)
    (hup : s.dev.epUp ep = true) (hf : f s.dev = d) : Answers c s (fun e => e = d) := answers_actIf hc hup hf

theorem answers_barOpen {c : Instr} {s : State} {ep : Fin 16} {d : Dev} (f : Dev → Dev)
    (hc : exec c s = actIf (fun d => d.epUp ep && d.barOpen ep) f s) (hup : s.dev.epUp ep = true) (hopen : s.dev.barOpen ep = true)
    (hf : f s.dev = d) : Answers c s (fun e => e = d) := answers_actIf hc (Bool.and_eq_true_iff.2 ⟨hup, hopen⟩) hf

/-! ## Queues after a change of the device -/

@[simp] theorem Dev.count_sq (d : Dev) (n e q : Nat) : (d.count n).sq e q = d.sq e q := rfl

@[simp] theorem Dev.modSq_cq (d : Dev) (e q c : Nat) (f : Sq → Sq) : ((d.modSq e q f).ep e).cq c = (d.ep e).cq c := by
  simp only [Dev.modSq, Dev.modEp_same]; rfl

/-- A change of a send queue is what it makes of the queue as it stands. -/
theorem Dev.modSq_congr {d : Dev} {e q : Nat} {f g : Sq → Sq} (h : f (d.sq e q) = g (d.sq e q)) : d.modSq e q f = d.modSq e q g :=
  congrArg (fun y => d.modEp e (fun x => { x with sqs := tput x.sqs q y })) h

/-! ## ENABLE of a written word -/

theorem getLsbD_or_one (v : Reg) : (v ||| 1#64).getLsbD 0 = true := by simp

theorem getLsbD_and_not_one (v : Reg) : (v &&& ~~~1#64).getLsbD 0 = false := by simp

/-! ## Doorbells and pushes (R229 to R231) -/

/-- The doorbell words of a page are those of its two send queues. -/
theorem Dev.bar2Write_sqDoorbell {d : Dev} {e q : Nat} {data : List Byte} (hopen : d.barOpen e = true) (hq : q < 8192)
    (hlen : data.length = 4 ∨ data.length = 8) :
    d.bar2Write e (4096 * (q / 2) + 8 * (q % 2)) data = d.sqDoorbell e q (bits (leNat data) 15 0) := by
  have hpage : (4096 * (q / 2) + 8 * (q % 2)) / 4096 = q / 2 := by omega
  have hword : (4096 * (q / 2) + 8 * (q % 2)) % 4096 = 8 * (q % 2) := by omega
  have hin : ¬ 4096 ≤ q / 2 := by omega
  have hshort : data.length ≠ 64 := by omega
  have hsize : data.length = 8 ∨ data.length = 4 := hlen.symm
  simp only [Dev.bar2Write, hpage, hword]
  rcases Nat.mod_two_eq_zero_or_one q with h | h
  · have hq2 : 2 * (q / 2) = q := by omega
    simp [hopen, hin, hshort, hsize, h, hq2]
  · have hq2 : 2 * (q / 2) + 1 = q := by omega
    simp [hopen, hin, hshort, hsize, h, hq2]

/-- The push areas of a page are those of its two send queues. -/
theorem Dev.bar2Write_sqPush {d : Dev} {e q : Nat} {data : List Byte} (hopen : d.barOpen e = true) (hq : q < 8192)
    (hlen : data.length = 64) : d.bar2Write e (4096 * (q / 2) + 0x800 + 0x400 * (q % 2)) data = d.sqPush e q data := by
  have hpage : (4096 * (q / 2) + 0x800 + 0x400 * (q % 2)) / 4096 = q / 2 := by omega
  have hword : (4096 * (q / 2) + 0x800 + 0x400 * (q % 2)) % 4096 = 0x800 + 0x400 * (q % 2) := by omega
  have hin : ¬ 4096 ≤ q / 2 := by omega
  simp only [Dev.bar2Write, hpage, hword]
  rcases Nat.mod_two_eq_zero_or_one q with h | h
  · have hq2 : 2 * (q / 2) = q := by omega
    simp [hopen, hin, hlen, h, hq2]
  · have hq2 : 2 * (q / 2) + 1 = q := by omega
    simp [hopen, hin, hlen, h, hq2]

theorem Sq.deaf_resetting {s : Sq} (h : s.state = .resetting) : s.deaf = true := by simp [Sq.deaf, h]

theorem Dev.sqDoorbell_deaf {d : Dev} {e q : Nat} (pi : Nat) (h : (d.sq e q).deaf = true) :
    d.sqDoorbell e q pi = d.count (Ctr.badDoorbells e) := if_pos h

theorem Dev.sqPush_deaf {d : Dev} {e q : Nat} (data : List Byte) (h : (d.sq e q).deaf = true) :
    d.sqPush e q data = d.count (Ctr.badDoorbells e) := if_pos h

/-! ## Writes of SQ_CFG (R234, R259, R261, R267) -/

theorem Dev.sqCfgWrite_resetting {d : Dev} {e q : Nat} {v : Reg} (hst : (d.sq e q).state = .resetting) (hv : v.getLsbD 0 = true) :
    d.sqCfgWrite e q v = d.count (Ctr.ctxWriteRejects e) := by
  simp [Dev.sqCfgWrite, Dev.sqEnableLater, hst, hv]

/-- A DISABLED queue whose written context `x` is in range and names an enabled CQ becomes ACTIVE. -/
theorem Dev.sqCfgWrite_enables {d : Dev} {e q : Nat} {v : Reg} {x : Sq} (hst : (d.sq e q).state = .disabled) (hv : v.getLsbD 0 = true)
    (hx : x = { d.sq e q with cfg := v &&& sqCfgMask }) (hlog : 6 ≤ x.log ∧ x.log ≤ 15) (hcq : ((d.ep e).cq x.cqn).enable = true) :
    d.sqCfgWrite e q v = d.modSq e q (fun _ => { x with cfg := x.cfg ||| 1#64, state := .active, ctxErr := false }) := by
  have hwritten : (d.modSq e q (fun s => { s with cfg := v &&& sqCfgMask })).sq e q = x := (d.modSq_same e q _).trans hx.symm
  simp only [Dev.sqCfgWrite, Dev.sqTryEnable, hst, hv, hwritten, hlog, Dev.modSq_cq, hcq, and_self, if_true, Dev.modSq_modSq]
  exact Dev.modSq_congr (by rw [hx])

/-- A write of ENABLE 0 that changes no other field drains an ACTIVE queue. -/
theorem Dev.sqCfgWrite_drains {d : Dev} {e q : Nat} {v : Reg} (hst : (d.sq e q).state = .active) (hv : v.getLsbD 0 = false)
    (hsame : v &&& sqCfgMask = (d.sq e q).cfg &&& sqCfgMask) : d.sqCfgWrite e q v = d.modSq e q (fun x =>
      { x with cfg := x.cfg &&& ~~~1#64, state := .draining, held := x.held.filter (fun h => h.chained), pushed := none }) := by
  simp only [Dev.sqCfgWrite, Dev.sqDrain, hst, hv, hsame, reduceCtorEq, Bool.false_eq_true, not_false_iff, and_self, if_true,
    if_false]
  exact Dev.modSq_congr (by rw [hst, if_pos rfl])

/-- Settles O15: each access by what it does of a queue in RESETTING. -/
theorem resettingQueuesIgnoreSoftware : Obligations.ResettingQueuesIgnoreSoftware := by
  intro s ep sq hup hopen hst
  have hdeaf := Sq.deaf_resetting hst
  refine ⟨fun data hlen => ?_, fun data hlen => ?_, fun cfg => ?_⟩
  · exact answers_epUp (fun d => d.bar2Write ep _ data) rfl hup
      ((Dev.bar2Write_sqDoorbell hopen sq.isLt hlen).trans (Dev.sqDoorbell_deaf _ hdeaf))
  · exact answers_epUp (fun d => d.bar2Write ep _ data) rfl hup
      ((Dev.bar2Write_sqPush hopen sq.isLt hlen).trans (Dev.sqPush_deaf _ hdeaf))
  · exact answers_barOpen (fun d => d.sqCfgWrite ep sq (cfg ||| 1#64)) rfl hup hopen (Dev.sqCfgWrite_resetting hst (getLsbD_or_one cfg))

end Sys2Proof.Machine
end

section
/-! What context writes, drains, resets and fetches of queues do where the conditions of their rules hold (08 R234, R236, R240, R241,
R259, R261, R265, R266). -/

namespace Sys2Proof.Machine

/-! ## Contexts and drains (R236, R259) -/

theorem Dev.drainDone_idle {d : Dev} {e q : Nat} (hst : (d.sq e q).state = .draining) (hidle : (d.ep e).idle q = true) :
    d.drainDone e q = d.modSq e q (fun x => { x with state := .disabled, short := false }) := if_pos ⟨hst, hidle⟩

theorem Dev.cqCfgWrite_starts {d : Dev} {e c : Nat} {v : Reg} (hoff : ((d.ep e).cq c).enable = false) (hv : v.getLsbD 0 = true) :
    d.cqCfgWrite e c v = d.modCq e c (fun q => q.start v) := by
  simp [Dev.cqCfgWrite, hoff, hv]

/-- A write of ENABLE 0 that changes no other field ends a CQ that no queue and no reservation uses. -/
theorem Dev.cqCfgWrite_ends {d : Dev} {e c : Nat} {v : Reg} (hon : ((d.ep e).cq c).enable = true) (hv : v.getLsbD 0 = false)
    (hsame : v &&& cqCfgMask = ((d.ep e).cq c).cfg &&& cqCfgMask) (hused : (d.ep e).cqUsed c = false)
    (hres : ((d.ep e).cq c).reserved = 0) : d.cqCfgWrite e c v = d.modCq e c (fun q => { q with cfg := q.cfg &&& ~~~1#64 }) := by
  simp only [Dev.cqCfgWrite, hon, hv, hsame, hused, hres, Bool.not_true, Bool.false_eq_true, ne_eq, not_true,
    or_self, if_true, if_false]

/-! ## Resets (R265, R266) -/

/-- What RESET gives up of a queue that is not in RESETTING, in its order. -/
theorem Dev.sqReset_starts {d : Dev} {e q : Nat} (h : (d.sq e q).state ≠ .resetting) :
    d.sqReset e q = ((((((d.modSq e q (fun x =>
      { x with state := .resetting, held := none, pushed := none, chain := none, short := false, cmds := [] })).dropFetch
        e q).abandonOps e q).abandonRest e q).withdrawRecvs e q).cancelPends e (some q)).abandonLocal e (some (q / 2)) := if_neg h

/-- A reset ends once no accepted entry of the queue is a matched receive or a LOCK that waits, or the gate does not run. -/
theorem Dev.sqResetEnd_due {d : Dev} {e q : Nat} (hst : (d.sq e q).state = .resetting)
    (hdone : d.epRuns e = true → ∀ a ∈ (d.sq e q).work, d.liveRecv e q a.id = false ∧ d.liveLock e q a.id = false) :
    d.sqResetEnd e q = (forEach (d.sq e q).work (fun a d => d.flush e q a) (d.dropRecvs e q)).modSq e q (fun x =>
      { Sq.reset with base := x.base, cfg := x.cfg &&& ~~~1#64, ctxErr := x.ctxErr }) := by
  refine if_neg (not_or.2 ⟨not_not_intro hst, fun ⟨hrun, hlive⟩ => ?_⟩)
  obtain ⟨a, ha, hlive⟩ := List.any_eq_true.1 hlive
  obtain ⟨hrecv, hlock⟩ := hdone hrun a ha
  simp [hrecv, hlock] at hlive

/-! ## Fetches (R240, R241) -/

theorem Dev.entryFetch_next {d : Dev} {e q ptr : Nat} (h : d.nextFetch e = some (q, ptr)) :
    d.entryFetch e = (d.modEp e (fun x => { x with fetchPtr := ptr })).fetchNext e q := by
  rw [Dev.entryFetch, h]

theorem Dev.fetchNext_chain {d : Dev} {e q : Nat} (h : (d.sq e q).chain.isSome = true) : d.fetchNext e q = d.chainFetch e q := if_pos h

theorem Dev.fetchNext_ring {d : Dev} {e q : Nat} (hchain : (d.sq e q).chain = none) (hpush : (d.sq e q).pushed = none) :
    d.fetchNext e q = d.ringFetch e q := by
  simp [Dev.fetchNext, hchain, hpush]

/-- A pushed copy is taken, or read again from the ring when CI has passed its position. -/
theorem Dev.fetchNext_pushed {d : Dev} {e q pos : Nat} {b : List Byte} (hchain : (d.sq e q).chain = none)
    (hpush : (d.sq e q).pushed = some (pos, b)) :
    d.fetchNext e q = if pos = (d.sq e q).ci then (d.modSq e q (fun x => { x with pushed := none })).takeEntry e q b none
      else (d.modSq e q (fun x => { x with pushed := none })).ringFetch e q := by
  simp [Dev.fetchNext, hchain, hpush]

/-- A reading that fails is gone, and the unit that waited for it takes the failure. -/
theorem Dev.readingEnd_failed {d : Dev} {e : Nat} {y : Reading} {res : HostRes} (h : res = .ur ∨ res = .ca ∨ res = .poison) :
    d.readingEnd e y res = (d.modEp e (fun x => { x with readings := x.readings.filter (fun z => z.id != y.id) })).answer e y.who res := by
  rcases h with rfl | rfl | rfl <;> rfl

theorem Dev.ringRead_failed {d : Dev} {e q : Nat} {res : HostRes} (h : res = .ur ∨ res = .ca ∨ res = .poison) :
    d.ringRead e q res = (d.count (Ctr.ringFetchFails e)).stopQueue e q 0x0C (d.sq e q).ci none := by
  rcases h with rfl | rfl | rfl <;> rfl

/-- The request that a unit waits for ends with a failure before its timeout. -/
theorem Dev.endRequest_failed {d : Dev} {e : Nat} {who : Who} {res : HostRes} {t : Tag} (hout : (d.ep e).outstanding who = some t)
    (htime : d.expired e t = false) (h : res = .ur ∨ res = .ca ∨ res = .poison) :
    d.endRequest e who res = (d.freeTag e t.tag).hostEnd e t res := by
  rcases h with rfl | rfl | rfl <;> simp [Dev.endRequest, hout, htime]

/-- A request of a reading that ends is reported, and its reading goes on or ends. -/
theorem Dev.hostEnd_reading {d : Dev} {e : Nat} {t : Tag} {res : HostRes} {y : Reading} (hloud : t.silent = false)
    (hread : t.reading = some y.id) (hfind : ((d.reportRes e res).ep e).readings.find? (fun z => z.id == y.id) = some y) :
    d.hostEnd e t res = (d.reportRes e res).readingEnd e y res := by
  simp [Dev.hostEnd, hloud, hread, hfind]

/-- A read of a ring that fails stops its queue with the cause 0x0C. -/
theorem Dev.ringFetchFail_stops {d a : Dev} {e q : Nat} {res : HostRes} {t : Tag} {y : Reading}
    (hout : (d.ep e).outstanding (.ring q) = some t) (htime : d.expired e t = false) (hres : res = .ur ∨ res = .ca ∨ res = .poison)
    (hread : t.reading = some y.id) (hwho : y.who = .ring q) (hloud : t.silent = false)
    (hfind : (((d.freeTag e t.tag).reportRes e res).ep e).readings.find? (fun z => z.id == y.id) = some y)
    (ha : a = ((d.freeTag e t.tag).reportRes e res).modEp e (fun x => { x with readings := x.readings.filter (fun z => z.id != y.id) })) :
    d.ringFetchFail e q res = (a.count (Ctr.ringFetchFails e)).stopQueue e q 0x0C (a.sq e q).ci none :=
  calc d.ringFetchFail e q res
    _ = d.endRequest e (.ring q) res := by rcases hres with rfl | rfl | rfl <;> rfl
    _ = (d.freeTag e t.tag).hostEnd e t res := Dev.endRequest_failed hout htime hres
    _ = ((d.freeTag e t.tag).reportRes e res).readingEnd e y res := Dev.hostEnd_reading hloud hread hfind
    _ = a.answer e y.who res := ha ▸ Dev.readingEnd_failed hres
    _ = a.ringRead e q res := by rw [hwho]; rfl
    _ = _ := Dev.ringRead_failed hres

/-- Settles O35: each command by what it does where the conditions of its rule hold. -/
theorem queueContextCommandsComplete : Obligations.QueueContextCommandsComplete := by
  refine ⟨?enable, ?disable, ?drained, ?cqEnable, ?cqDisable, ?reset, ?resetEnd, ?fetch, ?fetchFail⟩
  case enable =>
    intro s ep sq cfg x hup hopen hst hx hlow hhigh hcq
    exact answers_barOpen (fun d => d.sqCfgWrite ep sq (cfg ||| 1#64)) rfl hup hopen
      (Dev.sqCfgWrite_enables hst (getLsbD_or_one cfg) hx ⟨hlow, hhigh⟩ hcq)
  case disable =>
    intro s ep sq cfg hup hopen hst hsame
    exact answers_barOpen (fun d => d.sqCfgWrite ep sq (cfg &&& ~~~1#64)) rfl hup hopen
      (Dev.sqCfgWrite_drains hst (getLsbD_and_not_one cfg) hsame)
  case drained =>
    intro s ep sq hup hst hidle
    exact answers_epUp (fun d => d.drainDone ep sq) rfl hup (Dev.drainDone_idle hst hidle)
  case cqEnable =>
    intro s ep n cfg hup hopen hoff
    exact answers_barOpen (fun d => d.recCfgWrite ep (.cq n) (cfg ||| 1#64)) rfl hup hopen
      (Dev.cqCfgWrite_starts hoff (getLsbD_or_one cfg))
  case cqDisable =>
    intro s ep n cfg hup hopen hon hsame hused hres
    exact answers_barOpen (fun d => d.recCfgWrite ep (.cq n) (cfg &&& ~~~1#64)) rfl hup hopen
      (Dev.cqCfgWrite_ends hon (getLsbD_and_not_one cfg) hsame hused hres)
  case reset =>
    intro s ep sq hup hopen hst
    exact answers_barOpen (fun d => d.sqReset ep sq) rfl hup hopen
      (Dev.sqReset_starts hst)
  case resetEnd =>
    intro s ep sq hup hst hdone
    exact answers_epUp (fun d => d.sqResetEnd ep sq) rfl hup (Dev.sqResetEnd_due hst hdone)
  case fetch =>
    intro s ep q ptr hup hnext
    refine (answers_epUp (fun d => d.entryFetch ep) rfl hup (Dev.entryFetch_next hnext)).imp fun d hd => ⟨_, rfl, ?_⟩
    have hsq : (s.dev.modEp ep (fun x => { x with fetchPtr := ptr })).sq ep q = s.dev.sq ep q := by
      simp only [Dev.sq, Dev.modEp_same]; rfl
    rw [← hsq, hd]
    exact ⟨Dev.fetchNext_chain, Dev.fetchNext_ring, fun pos b hchain hpush => ⟨_, rfl, Dev.fetchNext_pushed hchain hpush⟩⟩
  case fetchFail =>
    intro s ep sq res t y hup hout htime hres hread hwho hloud hfind
    exact (answers_epUp (fun d => d.ringFetchFail ep sq res) rfl hup
      (Dev.ringFetchFail_stops hout htime hres hread hwho hloud hfind rfl)).imp fun d hd => ⟨_, rfl, hd⟩

end Sys2Proof.Machine
end

section
/-! What an entry does that a queue accepts at its turn, by its opcode (08 R243, R250, 10 R295, R296, R311, 11 R332, R344, 12 R371,
13 R404, 14 R433). -/

namespace Sys2Proof.Machine

/-! ## Acceptance (08 R238) -/

theorem Dev.entryRow_accepts {d : Dev} {e q op : Nat} {h : Fetched} (go : Dev → Nat → List Byte → Dev)
    (hheld : (d.sq e q).held = some h) (hacc : d.accepts e q op = true) : d.entryRow e q op go = go (d.accept e q h) d.nextId h.bytes := by
  simp [Dev.entryRow, hheld, hacc]

/-- A row that accepts the held entry answers what its opcode makes of the device with the entry accepted. -/
theorem answers_entry {c : Instr} {s : State} {ep : Fin 16} {sq : Fin 8192} {op : Nat} {h : Fetched} {e : Dev}
    {go : Dev → Nat → List Byte → Dev} (f : Dev → Dev) (hc : exec c s = actIf (fun d => d.epUp ep) f s)
    (hf : f s.dev = s.dev.entryRow ep sq op go) (hup : s.dev.epUp ep = true) (hheld : (s.dev.sq ep sq).held = some h)
    (hacc : s.dev.accepts ep sq op = true) (hgo : go (s.dev.accept ep sq h) s.dev.nextId h.bytes = e) : Answers c s (fun d => d = e) :=
  answers_epUp f hc hup (hf.trans ((Dev.entryRow_accepts go hheld hacc).trans hgo))

/-! ## What the opcodes make of an accepted entry -/

theorem Dev.chainEntry_eq (d : Dev) (e q : Nat) : d.chainEntry e q = d.entryRow e q 0x01 (fun a id b => a.modSq e q (fun s =>
    { s with chain := some ⟨id, (d.sq e q).ci, field b 16 8, field b 24 4, 0, none⟩ })) := rfl

theorem Dev.handTo_runs {d : Dev} {r : Nat} (f : Dev → Dev) (hrun : d.regionRuns r = true) : d.handTo r f = f d := if_pos hrun

/-- An atomic whose addresses are multiples of its width is an operation. -/
theorem Dev.atomicEntry_aligned {d : Dev} {e q id width : Nat} {b : List Byte} (hremote : field b 24 8 % width = 0)
    (hlocal : field b 16 8 % width = 0) : d.atomicEntry e q id width b = d.rmaOp { d.entryOp e q id b with
      kind := .atomic, length := width, operand := field b 48 width, compare := field b (if width = 8 then 56 else 64) width,
      aop := entSub b, wide := width == 16, fetch := bit (entFlags b) 0 } :=
  if_neg (fun h => h.elim (fun hr => hr hremote) (fun hl => hl.2 hlocal))

theorem Dev.lockOp_runs {d : Dev} {e q id : Nat} {b : List Byte} (unlock : Bool)
    (hrun : d.regionRuns (field b 24 2 / 16384) = true) (hfence : d.fenced = false) :
    d.lockOp e q id b unlock = d.postLock e q id b unlock := by
  simp [Dev.lockOp, hfence, Dev.handTo_runs _ hrun]

/-- Settles O36: each entry by what its opcode makes of it once it is accepted. -/
theorem queueEntriesComplete : Obligations.QueueEntriesComplete := by
  refine ⟨?nop, ?chain, ?put, ?putInline, ?get, ?putSignal, ?atomic64, ?atomic128, ?send, ?sendInline, ?recv, ?coll,
    ?lock, ?unlock, ?cmd⟩
  case nop =>
    intro s ep sq h hup hheld hacc
    exact answers_entry (fun d => d.nopEntry ep sq) rfl rfl hup hheld hacc rfl
  case chain =>
    intro s ep sq h hup hheld hacc
    exact answers_entry (fun d => d.chainEntry ep sq) rfl (s.dev.chainEntry_eq ep sq) hup hheld hacc rfl
  case put =>
    intro s ep sq h hup hheld hacc
    exact (answers_entry (fun d => d.putEntry ep sq) rfl rfl hup hheld hacc rfl).imp fun d hd => ⟨_, rfl, hd⟩
  case putInline =>
    intro s ep sq h hup hheld hacc
    exact (answers_entry (fun d => d.putInlineEntry ep sq) rfl rfl hup hheld hacc rfl).imp fun d hd => ⟨_, rfl, hd⟩
  case get =>
    intro s ep sq h hup hheld hacc
    exact (answers_entry (fun d => d.getEntry ep sq) rfl rfl hup hheld hacc rfl).imp fun d hd => ⟨_, rfl, hd⟩
  case putSignal =>
    intro s ep sq h hup hheld hacc halign
    exact (answers_entry (fun d => d.putSignalEntry ep sq) rfl rfl hup hheld hacc
      (if_neg (not_not_intro halign))).imp fun d hd => ⟨_, rfl, hd⟩
  case atomic64 =>
    intro s ep sq h hup hheld hacc hremote hlocal
    exact (answers_entry (fun d => d.atomic64Entry ep sq) rfl rfl hup hheld hacc
      (Dev.atomicEntry_aligned hremote hlocal)).imp fun d hd => ⟨_, rfl, hd⟩
  case atomic128 =>
    intro s ep sq h hup hheld hacc hremote hlocal
    exact (answers_entry (fun d => d.atomic128Entry ep sq) rfl rfl hup hheld hacc
      (Dev.atomicEntry_aligned hremote hlocal)).imp fun d hd => ⟨_, rfl, hd⟩
  case send =>
    intro s ep sq h hup hheld hacc
    exact answers_entry (fun d => d.sendEntry ep sq) rfl rfl hup hheld hacc rfl
  case sendInline =>
    intro s ep sq h hup hheld hacc
    exact answers_entry (fun d => d.sendInlineEntry ep sq) rfl rfl hup hheld hacc rfl
  case recv =>
    intro s ep sq h hup hheld hacc hrun
    exact answers_entry (fun d => d.recvEntry ep sq) rfl rfl hup hheld hacc (Dev.handTo_runs _ hrun)
  case coll =>
    intro s ep sq h hup hheld hacc hrun hfence
    exact answers_entry (fun d => d.collEntry ep sq) rfl rfl hup hheld hacc
      ((if_neg (ne_true_of_eq_false hfence)).trans (Dev.handTo_runs _ hrun))
  case lock =>
    intro s ep sq h hup hheld hacc hrun hfence
    exact answers_entry (fun d => d.lockEntry ep sq) rfl rfl hup hheld hacc (Dev.lockOp_runs false hrun hfence)
  case unlock =>
    intro s ep sq h hup hheld hacc hrun hfence
    exact answers_entry (fun d => d.unlockEntry ep sq) rfl rfl hup hheld hacc (Dev.lockOp_runs true hrun hfence)
  case cmd =>
    intro s ep sq h hup hheld hacc
    refine (answers_entry (fun d => d.cmdRow ep sq) rfl rfl hup hheld hacc rfl).imp
      fun d hd => ⟨_, rfl, fun st href => ?_, fun href => ?_⟩
    · rw [hd, href]
    · rw [hd, href]

end Sys2Proof.Machine
end

section
/-! What the invalidation commands do where TR_OP is free, and what one does once nothing that it waits for is left (09 R282,
R283). -/

namespace Sys2Proof.Machine

/-- A write of TR_OP with an operation of R282 while none is outstanding: the invalidation begins, and keeps what it waits for. -/
theorem Dev.trOp_invalidates {d : Dev} {e op : Nat} {v : Reg} {c : Cover} (hidle : (d.ep e).inval = none)
    (hc : c = ⟨op, rbits v 23 4, 4096 * bits (d.ep e).opAddr.toNat 63 12, rbits v 63 34, rbits v 33 24⟩) (hop : rbits v 2 0 = op)
    (hrange : 1 ≤ op ∧ op ≤ 4) (hpages : op ≠ 1 ∨ c.pages ≠ 0) :
    d.trOp e v = (d.invalidate e c).1.modEp e (fun x =>
      { x with inval := some ⟨op, c.pasid, c.va, c.pages, c.key, (d.invalidate e c).2⟩, trRejected := false }) := by
  subst hc
  have hknown : ¬ 4 < op := by omega
  have hsome : op ≠ 0 := by omega
  have hcovers : ¬ (op = 1 ∧ rbits v 63 34 = 0) := Decidable.not_and_iff_or_not.2 hpages
  simp [Dev.trOp, hidle, hop, hknown, hsome, hcovers]

/-- A row that writes TR_OP answers the invalidation's beginning. -/
theorem answers_inval {i : Instr} {s : State} {ep : Fin 16} {op : Nat} {v : Reg} {c : Cover}
    (hi : exec i s = actIf (fun d => d.barUp ep) (fun d => d.trOp ep v) s) (hup : s.dev.barUp ep = true)
    (hidle : (s.dev.ep ep).inval = none)
    (hc : c = ⟨op, rbits v 23 4, 4096 * bits (s.dev.ep ep).opAddr.toNat 63 12, rbits v 63 34, rbits v 33 24⟩)
    (hop : rbits v 2 0 = op) (hrange : 1 ≤ op ∧ op ≤ 4) (hpages : op ≠ 1 ∨ c.pages ≠ 0) :
    Answers i s (fun d => d = (s.dev.invalidate ep c).1.modEp ep (fun x =>
      { x with inval := some ⟨op, c.pasid, c.va, c.pages, c.key, (s.dev.invalidate ep c).2⟩, trRejected := false })) :=
  answers_actIf hi hup (Dev.trOp_invalidates hidle hc hop hrange hpages)

theorem Dev.invalDone_released {d : Dev} {e : Nat} {i : Inval} (hinval : (d.ep e).inval = some i)
    (hfree : d.released e i.waits = true) :
    d.invalDone e = (d.modEp e (fun x => { x with inval := none })).count (Ctr.invalidations e) := by
  simp [Dev.invalDone, hinval, hfree]

/-- Settles O37: the four operations by what a write of TR_OP does, the completion by what is left of the holders. -/
theorem translationCommandsComplete : Obligations.TranslationCommandsComplete := by
  refine ⟨?range, ?pasid, ?key, ?all, ?complete⟩
  case range =>
    intro s ep op c hup hidle hc hpages hop
    exact answers_inval rfl hup hidle hc hop (by decide) (.inr hpages)
  case pasid =>
    intro s ep op c hup hidle hc hop
    exact answers_inval rfl hup hidle hc hop (by decide) (.inl (by decide))
  case key =>
    intro s ep op c hup hidle hc hop
    exact answers_inval rfl hup hidle hc hop (by decide) (.inl (by decide))
  case all =>
    intro s ep op c hup hidle hc hop
    exact answers_inval rfl hup hidle hc hop (by decide) (.inl (by decide))
  case complete =>
    intro s ep i hup hinval hfree
    exact answers_epUp (fun d => d.invalDone ep) rfl hup (Dev.invalDone_released hinval hfree)

end Sys2Proof.Machine
end

section
/-! What the registered KEY_OPs and the accesses of the HBM aperture do where the conditions of their rules hold (09 R277, R287, R290,
R291). -/

namespace Sys2Proof.Machine

/-! ## Keys (R287, R290, R291) -/

/-- A row of a reach key acts while the endpoint is up and its region's Belfry runs. -/
theorem answers_keyRow {c : Instr} {s : State} {ep : Fin 16} {d : Dev} (f : Dev → Dev)
    (hc : exec c s = actIf (fun d => d.epUp ep && d.belfryRuns (regionOf ep)) f s) (hup : s.dev.epUp ep = true)
    (hrun : s.dev.belfryRuns (ep / 4) = true) (hf : f s.dev = d) : Answers c s (fun e => e = d) :=
  answers_actIf hc (Bool.and_eq_true_iff.2 ⟨hup, hrun⟩) hf

theorem Dev.keyOpRegistered_set {d : Dev} {e k s0 base limit : Nat} (hop : (d.ep e).keyOp = some (1, k, s0, base, limit)) :
    d.keyOpRegistered e 1 = d.keySet e k s0 base limit := by
  simp [Dev.keyOpRegistered, hop]

theorem Dev.keyOpRegistered_revoke {d : Dev} {e k s0 base limit : Nat} (hop : (d.ep e).keyOp = some (2, k, s0, base, limit)) :
    d.keyOpRegistered e 2 = d.keyRevoke e k := by
  simp [Dev.keyOpRegistered, hop]

/-- SET takes a FREE slot, under the generation that the slot has kept. -/
theorem Dev.keySet_free {d : Dev} {e k s0 base limit : Nat} (hfree : ((d.ep e).key k).state = .free) (hlimit : base < limit) :
    d.keySet e k s0 base limit = (d.modEp e (fun x =>
      { x with keys := tput x.keys k { state := .valid, perm := bits s0 34 32, epi := bits s0 31 20, pasid := bits s0 19 0,
                                       gen := ((d.ep e).key k).gen, salt := bits s0 48 35, inflight := 0, base := base,
                                       limit := limit, waits := [] },
               keyOp := none, keyRejected := false,
               keyResult := BitVec.ofNat 64 (makeKey k e (bits s0 19 0) ((d.ep e).key k).gen (bits s0 48 35)) })).count
        (Ctr.keySets e) :=
  if_neg (not_or.2 ⟨not_not_intro hfree, Nat.not_le.2 hlimit⟩)

/-- REVOKE of a VALID slot raises its generation and begins the invalidation of what holds a translation under it. -/
theorem Dev.keyRevoke_valid {d : Dev} {e k : Nat} (hvalid : ((d.ep e).key k).state = .valid) :
    d.keyRevoke e k = (((d.invalidate e ⟨3, 0, 0, 0, k⟩).1.modKey e k (fun x =>
      { x with state := .revoking, gen := (x.gen + 1) % 65536, waits := (d.invalidate e ⟨3, 0, 0, 0, k⟩).2 })).modEp e (fun x =>
        { x with keyOp := none, keyRejected := false })).count (Ctr.keyRevokes e) := if_neg (not_not_intro hvalid)

theorem Dev.revokeDone_released {d : Dev} {e k : Nat} (hst : ((d.ep e).key k).state = .revoking)
    (hidle : ((d.ep e).key k).inflight = 0) (hfree : d.released e ((d.ep e).key k).waits = true) :
    d.revokeDone e k = d.modKey e k (fun x => { x with state := .free, waits := [] }) := if_pos ⟨hst, hidle, hfree⟩

/-! ## The HBM aperture (R277) -/

theorem Dev.stackRead_runs {d : Dev} {r : Nat} (a n : Nat) (hrun : d.hbmRuns r = true) : d.stackRead r a n = (d, d.hbmRead r a n) :=
  if_pos hrun

/-- A read inside the quarter brings the 8 bytes of a stack that runs. -/
theorem Dev.aperture_read {d : Dev} {e off n a : Nat} (hopen : d.barOpen e = true) (hat : d.apertureAt e off n = some a)
    (hrun : d.hbmRuns (e / 4) = true) : d.aperture e off (.read n) = d.sendData e (some (d.hbmRead (e / 4) a 8)) := by
  have hread : d.stackRead (regionOf e) a 8 = (d, d.hbmRead (e / 4) a 8) := Dev.stackRead_runs a 8 hrun
  simp [Dev.aperture, Dev.apertureAccess, accessLen, hopen, hat, hread]

/-- A write inside the quarter reaches a stack that runs. -/
theorem Dev.aperture_write {d : Dev} {e off a : Nat} {data : List Byte} (hopen : d.barOpen e = true)
    (hat : d.apertureAt e off data.length = some a) (hrun : d.hbmRuns (e / 4) = true) :
    d.aperture e off (.write data) = d.hbmWrite (e / 4) a data := by
  simp [Dev.aperture, Dev.apertureAccess, accessLen, regionOf, hopen, hat, hrun]

/-- Settles O38: each command by what it does where the conditions of its rule hold. -/
theorem keyAndApertureCommandsComplete : Obligations.KeyAndApertureCommandsComplete := by
  refine ⟨?set, ?revoke, ?revoked, ?aperture⟩
  case set =>
    intro s ep k s0 base limit hup hrun hop hfree hlimit
    exact answers_keyRow (fun d => d.keyOpRegistered ep 1) rfl hup hrun
      ((Dev.keyOpRegistered_set hop).trans (Dev.keySet_free hfree hlimit))
  case revoke =>
    intro s ep k s0 base limit hup hrun hop hvalid
    exact answers_keyRow (fun d => d.keyOpRegistered ep 2) rfl hup hrun
      ((Dev.keyOpRegistered_revoke hop).trans (Dev.keyRevoke_valid hvalid))
  case revoked =>
    intro s ep slot hup hrun hst hidle hfree
    exact answers_keyRow (fun d => d.revokeDone ep slot) rfl hup hrun (Dev.revokeDone_released hst hidle hfree)
  case aperture =>
    intro s ep off acc a hup hopen hat hrun
    cases acc with
    | read n =>
      exact (answers_epUp (fun d => d.aperture ep off (.read n)) rfl hup (Dev.aperture_read hopen hat hrun)).imp
        fun d hd => ⟨fun _ _ => hd, nofun⟩
    | write data =>
      exact (answers_epUp (fun d => d.aperture ep off (.write data)) rfl hup (Dev.aperture_write hopen hat hrun)).imp
        fun d hd => ⟨nofun, fun _ h => Access.write.inj h ▸ hd⟩

end Sys2Proof.Machine
end

section
/-! What a request's arrival at the target, the placement of its bytes and the timers of its acknowledgements do where the conditions
of their rules hold (09 R288, R289, 10 R296, R312 to R317). -/

namespace Sys2Proof.Machine

/-! ## Arrival (R288, R312) -/

/-- A row of a region's units acts while the region runs. -/
theorem answers_regionRuns {c : Instr} {s : State} {r : Fin 4} {d : Dev} (f : Dev → Dev)
    (hc : exec c s = actIf (fun d => d.regionRuns r) f s) (hrun : s.dev.regionRuns r = true) (hf : f s.dev = d) :
    Answers c s (fun e => e = d) := answers_actIf hc hrun hf

/-- A request that passes the opcode, gate and key tests counts in flight under its key, and has its effect. -/
theorem Dev.keyedRequest_passes {d : Dev} {r op : Nat} {p : Packet} {go : Dev → Nat → Nat → Dev} (hop : opOk p op = true)
    (hup : d.targetUp r p.hdr = true) (hkey : d.keyCheck (d.targetEp r p.hdr) p = none) :
    d.keyedRequest r p op go = go (d.modKey (d.targetEp r p.hdr) (keyIndex p.hdr.reachKey) (fun x =>
      { x with inflight := x.inflight + 1 })) (d.targetEp r p.hdr) (keyIndex p.hdr.reachKey) := by
  simp [Dev.keyedRequest, hop, hup, hkey]

/-- The row of a keyed request answers the request's effect on the device that its intake has left. -/
theorem answers_keyed {c : Instr} {s : State} {r : Fin 4} {p : Packet} {op e k : Nat} {b : Dev} {go : Dev → Nat → Nat → Dev}
    (hc : exec c s = onArrival r p (fun d => d.keyedRequest r p op go) s) (hrun : s.dev.regionRuns r = true)
    (hb : b = s.dev.takeIntake r p) (hop : opOk p op = true) (hup : b.targetUp r p.hdr = true) (he : e = b.targetEp r p.hdr)
    (hkey : b.keyCheck e p = none) (hk : k = keyIndex p.hdr.reachKey) :
    Answers c s (fun d => d = go (b.modKey e k (fun x => { x with inflight := x.inflight + 1 })) e k) := by
  subst hb he hk
  exact answers_regionRuns (fun d => (d.takeIntake r p).keyedRequest r p op go) hc hrun (Dev.keyedRequest_passes hop hup hkey)

/-- A request that needs no tracker begins its work at once. -/
theorem answers_keyedWork {c : Instr} {s : State} {r : Fin 4} {p : Packet} {op e k : Nat} {b : Dev}
    (hc : exec c s = onArrival r p (fun d => d.keyedRequest r p op (fun d e k => d.startWork r e p (some k) none none)) s)
    (hrun : s.dev.regionRuns r = true) (hb : b = s.dev.takeIntake r p) (hop : opOk p op = true) (hup : b.targetUp r p.hdr = true)
    (he : e = b.targetEp r p.hdr) (hkey : b.keyCheck e p = none) (hk : k = keyIndex p.hdr.reachKey) :
    Answers c s (fun d => d = (b.modKey e k (fun x => { x with inflight := x.inflight + 1 })).startWork r e p (some k) none none) :=
  answers_keyed hc hrun hb hop hup he hkey hk

/-! ## Placement and host requests (R289, R296, R312) -/

/-- The host writes of an untracked packet are issued in RUN, and its whole message is acknowledged. -/
theorem Dev.placementDone_whole {d : Dev} {r id : Nat} {w : Work} (hwork : d.work r id = some w) (hst : w.stage = .writing)
    (hrun : d.epRuns w.ep = true) (htracker : w.tracker = none) :
    d.placementDone r id = (((forEach ((pieces 3 w.pkt.hdr.remoteAddr w.pkt.named).zip w.pas) (fun x d =>
      d.hostWrite w.ep x.2.1 ((w.pkt.payload.drop ((x.1.1 + 2 ^ 64 - w.pkt.hdr.remoteAddr) % 2 ^ 64)).take x.1.2) (!x.2.2) .payload)
        d).count (Ctr.rmaPktsPlaced w.ep)).endWork r id w.pkt.payload.length).ackWhole w.ep w.pkt.hdr w.time := by
  simp [Dev.placementDone, hwork, hst, hrun, htracker]

/-- The request that a unit waits for ends with its data before its timeout. -/
theorem Dev.endRequest_ok {d : Dev} {e : Nat} {who : Who} {data : List Byte} {t : Tag} (hout : (d.ep e).outstanding who = some t)
    (htime : d.expired e t = false) :
    d.endRequest e who (.ok data) = (d.freeTag e t.tag).hostEnd e t (.ok (t.got ++ sliceBytes data 0 t.byteCount)) := by
  simp [Dev.endRequest, hout, htime]

theorem Dev.workRequest_here {d : Dev} {r id : Nat} {w : Work} {here : WStage → Bool} (res : HostRes) (hwork : d.work r id = some w)
    (hst : here w.stage = true) : d.workRequest r id here res = d.endRequest w.ep (.work id) res := by
  simp [Dev.workRequest, hwork, hst]

/-- The row of a work's host request, at the stages that the row serves, answers what the request's data brings. -/
theorem answers_workRequest {c : Instr} {s : State} {r : Fin 4} {id : Nat} {data : List Byte} {w : Work} {t : Tag}
    {here : WStage → Bool} (hc : exec c s = actIf (fun d => d.regionRuns r) (fun d => d.workRequest r id here (.ok data)) s)
    (hrun : s.dev.regionRuns r = true) (hwork : s.dev.work r id = some w) (hst : here w.stage = true)
    (hout : (s.dev.ep w.ep).outstanding (.work id) = some t) (htime : s.dev.expired w.ep t = false) :
    Answers c s (fun d => d = (s.dev.freeTag w.ep t.tag).hostEnd w.ep t (.ok (t.got ++ sliceBytes data 0 t.byteCount))) :=
  answers_regionRuns _ hc hrun ((Dev.workRequest_here _ hwork hst).trans (Dev.endRequest_ok hout htime))

/-! ## Timers (R316, R317) -/

theorem Dev.ackDelayExpiry_due {d : Dev} {r id u : Nat} {t : Tracker} (htracker : tget (d.region r).trackers id = some t)
    (hsince : t.unacked = some u) (hdue : u + (d.region r).chip.ackDelay ≤ d.belfryNow r) :
    d.ackDelayExpiry r id = (d.sendAck t.ep t.hdr t.placed t.echo t.newest).modTracker r id
      (fun t => { t with acked := t.placed, unacked := none }) := by
  simp [Dev.ackDelayExpiry, htracker, hsince, hdue]

theorem Dev.ackMapExpiry_due {d : Dev} {r id : Nat} {c : Conn} (hconn : d.conn r id = some c) (hmap : c.map ≠ 0)
    (hdue : c.mapOpened + (d.region r).chip.ackDelay ≤ d.belfryNow r) : d.ackMapExpiry r id = d.sendMap r id := by
  simp [Dev.ackMapExpiry, hconn, hmap, hdue]

theorem Dev.expireTracker_due {d : Dev} {r id : Nat} {t : Tracker} (htracker : tget (d.region r).trackers id = some t)
    (hdue : t.newest + (d.region r).chip.trackerIdle ≤ d.belfryNow r) :
    d.expireTracker r id = (d.count (Ctr.trackerExpiries t.ep)).modRegion r (fun x => { x with trackers := tdrop x.trackers id }) := by
  simp [Dev.expireTracker, htracker, hdue]

/-- Settles O39: each request by the tests that it passes, each host request and timer by what it does when it is due. -/
theorem remoteAccessAtTheTargetCompletes : Obligations.RemoteAccessAtTheTargetCompletes := by
  refine ⟨?put, ?get, ?atomic, ?signal, ?placed, ?read, ?host, ?ackDelay, ?ackMap, ?tracker⟩
  case put =>
    intro s r pkt b a e k tr hrun hb hop hup he hkey hk htrack
    refine (answers_keyed rfl hrun hb hop hup he hkey hk).imp fun d hd => ?_
    rw [htrack] at hd
    refine ⟨?_, ?_, ?_, ?_⟩
    · rintro rfl; exact hd
    · rintro n rfl; exact hd
    · rintro rfl; exact hd
    · rintro rfl; exact hd
  case get =>
    intro s r pkt b e k hrun hb hop hup he hkey hk
    exact answers_keyedWork rfl hrun hb hop hup he hkey hk
  case atomic =>
    intro s r pkt b e k hrun hb hop hup he hkey hk
    exact answers_keyedWork rfl hrun hb hop hup he hkey hk
  case signal =>
    intro s r pkt b e k hrun hb hop hup he hkey hk
    exact answers_keyedWork rfl hrun hb hop hup he hkey hk
  case placed =>
    intro s r work w hrun hwork hst hep htracker
    exact answers_regionRuns (fun d => d.placementDone r work) rfl hrun (Dev.placementDone_whole hwork hst hep htracker)
  case read =>
    intro s r work data w t hrun hwork hst hout htime
    exact answers_workRequest rfl hrun hwork (beq_iff_eq.2 hst) hout htime
  case host =>
    intro s r work data w t hrun hwork hst hout htime
    exact answers_workRequest rfl hrun hwork (bne_iff_ne.2 hst) hout htime
  case ackDelay =>
    intro s r tracker u t hrun htracker hsince hdue
    exact answers_regionRuns (fun d => (d.ackDelayExpiry r tracker).entryAckDelay r tracker) rfl hrun
      (congrArg (fun d => d.entryAckDelay r tracker) (Dev.ackDelayExpiry_due htracker hsince hdue))
  case ackMap =>
    intro s r conn c hrun hconn hmap hdue
    exact answers_regionRuns (fun d => d.ackMapExpiry r conn) rfl hrun (Dev.ackMapExpiry_due hconn hmap hdue)
  case tracker =>
    intro s r tracker t hrun htracker hdue
    exact answers_regionRuns (fun d => d.expireTracker r tracker) rfl hrun (Dev.expireTracker_due htracker hdue)

end Sys2Proof.Machine
end

section
/-! What the injection of a packet, the responses and the timers of an initiator's messages do where the conditions of their rules hold
(10 R308 to R310, R315, R318, R322, R323). -/

namespace Sys2Proof.Machine

/-! ## Injection (R310) -/

/-- The gate's arbiter takes, of the oldest packets that may leave, one of the queue that its pointer finds. -/
theorem Dev.packetInject_won {d a : Dev} {g id q ptr n : Nat} {o m : Op} {cands : List (Nat × Op)} (ha : a = d.startOps (g / 2))
    (hcands : cands = (a.region (g / 2)).ops.filter (fun o => o.2.ep / 2 == g && a.maySend (g / 2) o.1 o.2))
    (hold : minBy (fun o : Nat × Op => o.2.stamp) cands = some (n, m))
    (hwon : arbitrate 8192 (a.gate g).injectPtr
      ((((cands.filter (fun o => o.2.stamp == m.stamp)).map (fun o => o.2.sq)).eraseDups).map (fun q => ⟨q, 0, 0⟩)) = some (q, ptr))
    (hfirst : (cands.filter (fun o => o.2.stamp == m.stamp)).find? (fun o => o.2.sq == q) = some (id, o)) :
    d.packetInject g = (a.modGate g (fun x => { x with injectPtr := ptr })).injectOp (g / 2) id (o.due.getD 0) o := by
  subst ha hcands
  simp only [Dev.packetInject, hold, hwon, hfirst]

/-! ## What every response meets (R299, R302, R318, 00 R14) -/

/-- A response finds its connection, which leaves SYNCING and makes the device `a`, and there the open message `o` of a number that it
names, before its timer's end and not parked. -/
structure Dev.Meets (d : Dev) (r : Nat) (p : Packet) (op : Nat) (a : Dev) (seq id : Nat) (o : Op) : Prop where
  opcode : opOk p op = true
  conn : ∃ k c, (d.region r).findConn p.hdr.dstFen p.hdr.srcFen 0 = some (k, c) ∧
    a = d.modConn r k (fun c => { c with syncing := false, used := d.belfryNow r })
  up : a.targetUp r p.hdr = true
  found : (a.region r).findOp p.hdr seq = some (id, o)
  going : a.opParked o = false
  entry : a.op r id = some o
  running : o.expired (a.belfryNow r) = false

theorem Dev.Meets.onResponse {d a : Dev} {r op seq id : Nat} {p : Packet} {o : Op} (h : d.Meets r p op a seq id o)
    (go : Dev → Nat → Dev) : d.onResponse r p op go = go a (d.targetEp r p.hdr) := by
  obtain ⟨k, c, hconn, rfl⟩ := h.conn
  simp [Dev.onResponse, h.opcode, hconn, h.up]

/-- Neither timer of the message has ended, so none acts before the response. -/
theorem Dev.Meets.expireOp {d a : Dev} {r op seq id : Nat} {p : Packet} {o : Op} (h : d.Meets r p op a seq id o) :
    a.expireOp r id = a := by
  have hmsg : a.msgTimeoutEnd r id = a := by simp [Dev.msgTimeoutEnd, h.entry, h.running]
  simp [Dev.expireOp, hmsg, Dev.atomicTimeoutEnd, h.entry, h.running]

/-- A response to one message takes effect when it is of the message's attempt and of a kind that the message takes. -/
theorem Dev.Meets.oneResponse {d a : Dev} {r op id : Nat} {p : Packet} {o : Op} {kind : Op → Bool}
    (h : d.Meets r p op a p.hdr.msgSeq id o) (hattempt : o.attempt % 4 = p.hdr.attempt) (hkind : kind o = true)
    (go : Dev → Nat → Op → Dev) : d.oneResponse r p op kind go = go a id o := by
  rw [Dev.oneResponse, h.onResponse]
  simp only [h.found, h.expireOp]
  exact if_pos ⟨hattempt, hkind, h.going⟩

/-- The row of a packet that a unit registers answers what the packet does on the device that its intake has left. -/
theorem answers_arrival {c : Instr} {s : State} {r : Fin 4} {p : Packet} {b d : Dev} (f : Dev → Dev)
    (hc : exec c s = onArrival r p f s) (hrun : s.dev.regionRuns r = true) (hb : b = s.dev.takeIntake r p) (hf : f b = d) :
    Answers c s (fun e => e = d) :=
  answers_regionRuns (fun d => f (d.takeIntake r p)) hc hrun (hb ▸ hf)

/-! ## The responses (R315, R318) -/

/-- An ACK pays for the bytes it adds, and ends a message of one packet. -/
theorem Dev.ackReceived_meets {d a e : Dev} {r id n : Nat} {p : Packet} {o : Op} (h : d.Meets r p 0x08 a p.hdr.msgSeq id o)
    (hattempt : o.attempt % 4 = p.hdr.attempt) (hkind : o.takesAck = true)
    (hn : n = if o.single = true then o.cost else p.hdr.rBytes - o.acked)
    (he : e = (a.pay r id n).onProgress r o.conn p.hdr.rEcho (a.belfryNow r - o.newest - p.hdr.rHold)) :
    d.ackReceived r p = if o.single = true then e.endOp r id none 0
      else if n = 0 then e.checkOp r id
      else (e.modOp r id (fun o => { o with acked := o.acked + n, timer := some (a.belfryNow r) })).checkOp r id := by
  rw [Dev.ackReceived, h.oneResponse hattempt hkind]
  subst hn he
  split
  · rfl
  · exact apply_ite (fun d => Dev.checkOp d r id) _ _ _

/-- A map of its first bit acknowledges the one message that it names, which ends. -/
theorem Dev.ackMapReceived_one {d a : Dev} {r id : Nat} {p : Packet} {o : Op}
    (h : d.Meets r p 0x09 a (p.hdr.msgSeq % 2 ^ 24) id o) (hmap : setBits p.hdr.rMap 64 = [0]) (hkind : o.takesAck = true)
    (hsignal : o.kind ≠ .signal) (hseq : o.msgSeq = p.hdr.msgSeq % 2 ^ 24) :
    d.ackMapReceived r p = (((a.pay r id o.cost).modOp r id (fun o => { o with acked := o.length })).onProgress
      r o.conn p.hdr.rEcho (a.belfryNow r - o.newest - p.hdr.rHold)).endOp r id none 0 := by
  rw [Dev.ackMapReceived, h.onResponse]
  simp [-Nat.reducePow, hmap, h.found, h.expireOp, hkind, hsignal, h.going, hseq]

/-- The bytes of a GET land at pages that the message still holds. -/
theorem Dev.dataReceived_lands {d a : Dev} {r op id : Nat} {p : Packet} {o : Op} {kind : OpKind} (h : d.Meets r p op a p.hdr.msgSeq id o)
    (hattempt : o.attempt % 4 = p.hdr.attempt) (hkind : o.kind = kind) (hpayload : p.payload ≠ [])
    (hpages : (o.landingOf p.hdr.msgOff p.payload.length).any (fun x => x.2.isNone) = false) :
    d.dataReceived r p op kind =
      (((((a.landData r id p.hdr.msgOff o p.payload.length p.payload true .payload).pay r id p.payload.length).onProgress
        r o.conn (p.hdr.cmark || p.hdr.rEcho) (a.belfryNow r - o.sentAt p.hdr.msgOff))).modOp r id (fun o =>
          { o with acked := o.acked + p.payload.length, timer := some (a.belfryNow r) })).checkOp r id := by
  rw [Dev.dataReceived, h.oneResponse (kind := fun o => o.kind == kind) hattempt (beq_iff_eq.2 hkind)]
  simp only [hpages, Bool.or_false, decide_eq_true_eq, List.length_eq_zero_iff, hpayload, if_false]

theorem Dev.retryLaterResend_due {d : Dev} {r id off : Nat} {o : Op} {x : Nat × Nat} {rest : List (Nat × Nat)}
    (hentry : d.op r id = some o)
    (hdue : takeFirst (fun x : Nat × Nat => x.1 == off && decide (x.2 ≤ d.belfryNow r)) o.resend = some (x, rest))
    (hgoing : d.opParked o = false) (hfault : o.localFault = none) :
    d.retryLaterResend r id off = d.modOp r id (fun o => { o with resend := rest, again := o.again ++ [off] }) := by
  simp [Dev.retryLaterResend, hentry, hdue, hgoing, hfault]

/-! ## The message timer (R322, R323) -/

/-- The timer of a message that is neither lent nor an ATOMIC nor a SIGNAL has ended: a message with a fault or a refusal ends, one that
may be sent again is retried, and any other times out. -/
theorem Dev.msgTimeoutEnd_due {d : Dev} {r id : Nat} {o : Op} (hentry : d.op r id = some o)
    (hdue : o.expired (d.belfryNow r) = true) (hlent : o.lent = none) (hatomic : o.kind ≠ .atomic) (hsignal : o.kind ≠ .signal)
    (hgoing : d.opParked o = false) :
    d.msgTimeoutEnd r id = if o.localFault.isSome || !o.refusals.isEmpty then d.endOp r id none 0
      else if !o.lost && decide (o.attempt < (d.region r).chip.maxRetries) then d.retryOp r id o
      else (d.count (Ctr.timeouts o.ep)).endOp r id (some (if o.lastRetryLater then (0x0E, 0x0203) else (0x07, 0))) 0 := by
  simp [Dev.msgTimeoutEnd, hentry, hdue, hlent, hatomic, hsignal, hgoing]

theorem Dev.atomicTimeoutEnd_due {d : Dev} {r id : Nat} {o : Op} (hentry : d.op r id = some o)
    (hdue : o.expired (d.belfryNow r) = true) (hkind : o.kind = .atomic ∨ o.kind = .signal) (hgoing : d.opParked o = false) :
    d.atomicTimeoutEnd r id = d.endOp r id (some (0x08, 0)) 0 := by
  simp [Dev.atomicTimeoutEnd, hentry, hdue, hkind, hgoing]

/-- Settles O40: the injection by what the arbiter takes, each response by the message that it meets, each timer by what it does when it
is due. -/
theorem remoteAccessAtTheInitiatorCompletes : Obligations.RemoteAccessAtTheInitiatorCompletes := by
  refine ⟨?inject, ?ack, ?ackMap, ?getData, ?atomicResp, ?refuse, ?resend, ?msgTimeout, ?atomicTimeout⟩
  case inject =>
    intro s g id q ptr a o m n cands hgates hrun ha hcands hold hwon hfirst
    exact answers_actIf (g := fun d => d.gatesRun && d.regionRuns (g / 2)) (f := fun d => d.packetInject g) rfl
      (Bool.and_eq_true_iff.2 ⟨hgates, hrun⟩) (Dev.packetInject_won ha hcands hold hwon hfirst)
  case ack =>
    intro s r pkt k id c o b a hrun hb hop hconn ha hup hfound hattempt hkind hgoing hentry hrunning
    have hmeets : b.Meets r pkt 0x08 a pkt.hdr.msgSeq id o := ⟨hop, ⟨k, c, hconn, ha⟩, hup, hfound, hgoing, hentry, hrunning⟩
    exact (answers_arrival (fun d => d.ackReceived r pkt) rfl hrun hb (Dev.ackReceived_meets hmeets hattempt hkind rfl rfl)).imp
      fun d hd => ⟨_, _, rfl, rfl, hd⟩
  case ackMap =>
    intro s r pkt k id c o b a hrun hb hop hconn ha hup hmap hfound hkind hsignal hgoing hseq hentry hrunning
    have hmeets : b.Meets r pkt 0x09 a (pkt.hdr.msgSeq % 2 ^ 24) id o :=
      ⟨hop, ⟨k, c, hconn, ha⟩, hup, hfound, hgoing, hentry, hrunning⟩
    exact answers_arrival (fun d => d.ackMapReceived r pkt) rfl hrun hb (Dev.ackMapReceived_one hmeets hmap hkind hsignal hseq)
  case getData =>
    intro s r pkt k id c o b a hrun hb hop hconn ha hup hfound hattempt hkind hgoing hpayload hpages hentry hrunning
    have hmeets : b.Meets r pkt 0x0A a pkt.hdr.msgSeq id o := ⟨hop, ⟨k, c, hconn, ha⟩, hup, hfound, hgoing, hentry, hrunning⟩
    exact answers_arrival (fun d => d.dataReceived r pkt 0x0A .get) rfl hrun hb
      (Dev.dataReceived_lands hmeets hattempt hkind hpayload hpages)
  case atomicResp =>
    intro s r pkt k id c o b a hrun hb hop hconn ha hup hfound hattempt hkind hgoing hentry hrunning
    have hmeets : b.Meets r pkt 0x0B a pkt.hdr.msgSeq id o := ⟨hop, ⟨k, c, hconn, ha⟩, hup, hfound, hgoing, hentry, hrunning⟩
    exact (answers_arrival (fun d => d.atomicResp r pkt) rfl hrun hb
      (hmeets.oneResponse (kind := fun o => o.kind == .atomic) hattempt (beq_iff_eq.2 hkind) _)).imp
      fun d hd => ⟨_, rfl, hd⟩
  case refuse =>
    intro s r pkt k id c o b a hrun hb hop hconn ha hup hfound hattempt hlent hgoing hentry hrunning
    have hmeets : b.Meets r pkt 0x0C a pkt.hdr.msgSeq id o := ⟨hop, ⟨k, c, hconn, ha⟩, hup, hfound, hgoing, hentry, hrunning⟩
    exact (answers_arrival (fun d => d.refuseReceived r pkt) rfl hrun hb
      (hmeets.oneResponse (kind := fun o => o.lent.isNone) hattempt (Option.isNone_iff_eq_none.2 hlent) _)).imp
      fun d hd => ⟨_, _, rfl, rfl, hd⟩
  case resend =>
    intro s r op off o x rest hrun hentry hdue hgoing hfault
    exact answers_regionRuns (fun d => d.retryLaterResend r op off) rfl hrun (Dev.retryLaterResend_due hentry hdue hgoing hfault)
  case msgTimeout =>
    intro s r op o hrun hentry hdue hlent hatomic hsignal hgoing
    refine (answers_regionRuns (fun d => d.msgTimeoutEnd r op) rfl hrun
      (Dev.msgTimeoutEnd_due hentry hdue hlent hatomic hsignal hgoing)).imp fun d hd => ⟨?ends, ?retries, ?timesOut⟩
    case ends => intro hfault; simpa [hfault] using hd
    case retries => intro hfault hrefused hlost hleft; simpa [hfault, hrefused, hlost, hleft, Dev.retryOp] using hd
    case timesOut =>
      intro hfault hrefused hlast
      have hno : ¬ (o.lost = false ∧ o.attempt < (s.dev.region r).chip.maxRetries) :=
        fun ⟨hlost, hleft⟩ => hlast.elim (by simp [hlost]) (Nat.not_le.2 hleft)
      simpa [hfault, hrefused, hno] using hd
  case atomicTimeout =>
    intro s r op o hrun hentry hdue hkind hgoing
    exact answers_regionRuns (fun d => d.atomicTimeoutEnd r op) rfl hrun (Dev.atomicTimeoutEnd_due hentry hdue hkind hgoing)

end Sys2Proof.Machine
end

section
/-! What the packets and timers of Scrivener's messages and match-store entries do where the conditions of their rules hold (10 R300,
11 R334, R338, R340, R349, R352, R354). -/

namespace Sys2Proof.Machine

/-! ## Messages in order (R338, R340) -/

/-- A message whose connection has a context goes to its entry, or else by its distance from RX_EXPECT: its turn, HELD, refused or old. -/
theorem Dev.messageIn_taken {d a f : Dev} {r op e cid : Nat} {p : Packet} (hop : opOk p op = true) (hup : d.targetUp r p.hdr = true)
    (he : e = d.targetEp r p.hdr) (htake : (d.messageTimers r e p.hdr).takeConn e p.hdr.dstFen p.hdr.srcFen 0 = (a, some cid))
    (hf : f = (a.rebase r cid e p.hdr).touchRx r cid (sendSeqOf p.hdr)) :
    (∀ id, f.findMsg e p.hdr.dstFen p.hdr.srcFen (sendSeqOf p.hdr) = some id → d.messageIn r p op = f.toEntry e id p) ∧
    (∀ (c : Conn) (k : Nat), f.findMsg e p.hdr.dstFen p.hdr.srcFen (sendSeqOf p.hdr) = none → f.conn r cid = some c →
      k = sendDist c.rxExpect (sendSeqOf p.hdr) →
      d.messageIn r p op = if k = 0 then f.turnNew r cid e p else if k < 256 then f.holdNew r cid e p
        else if k < 32768 then (f.retryLater e p).count (Ctr.windowRefusals e) else f.oldMessage r e p) := by
  subst he hf
  refine ⟨fun id hmsg => ?_, fun c k hmsg hconn hk => ?_⟩
  · simp [Dev.messageIn, hop, hup, htake, hmsg]
  · simp [Dev.messageIn, hop, hup, htake, hmsg, hconn, hk]

theorem Dev.gapExpiry_due {d : Dev} {r cid l : Nat} {c : Conn} (hconn : d.conn r cid = some c) (hheld : c.rxHeld ≠ 0)
    (hdue : (d.region r).chip.msgHold ≤ age24 (d.belfryNow r) c.rxGap) (hlow : d.lowestHeld c = some l) :
    d.gapExpiry r cid = Dev.releaseHeld 256 ((d.countBy (Ctr.seqSkips c.ep) (sendDist c.rxExpect l)).modConn r cid (fun c =>
      { c with rxExpect := l, rxGap := us24 (d.belfryNow r) })) r cid := by
  have hwait : ¬ (c.rxHeld = 0 ∨ age24 (d.belfryNow r) c.rxGap < (d.region r).chip.msgHold) :=
    not_or.2 ⟨hheld, Nat.not_lt.2 hdue⟩
  simp [Dev.gapExpiry, hconn, hwait, hlow]

/-! ## The copy out of the store (R349) -/

theorem regionOf_of_mem_epsOf {e r : Nat} (h : e ∈ epsOf r) : regionOf e = r := by
  simp only [epsOf, List.mem_cons, List.not_mem_nil, or_false] at h
  simp only [regionOf]
  omega

theorem Dev.copyOut_none {d : Dev} {e id : Nat} (h : tget (d.ep e).store id = none) : d.copyOut e id = d := by
  simp [Dev.copyOut, h]

/-- An engine at the entry's step copies a complete message out of its blocks to the receive's buffer. -/
theorem Dev.copyOut_due {d : Dev} {r e id : Nat} {m : Match} (he : e ∈ epsOf r) (hentry : tget (d.ep e).store id = some m)
    (hkind : m.kind = .matched) (hrndv : m.rndv = false) (hblocks : m.blocks ≠ []) (hcopy : m.copying = false)
    (hdone : m.msgLen ≤ m.done) (hstored : m.toStore = []) (hgoing : d.recvParked e m = false) (hstep : d.stepRuns r id = true) :
    d.copyOut e id = (((d.modMatch e id (fun m => { m with copying := true })).stepEnd r id).placeAll e (d.sq e m.sq).pasid
      (!(d.sq e m.sq).super) m.buf (Memory.readN hbmDefault m.store 0 (min m.msgLen m.capacity)) 0 .payload (.entry id)
      none).entryProgress e id := by
  obtain rfl := regionOf_of_mem_epsOf he
  have hwork : m.engineWork false = true := by simp [Match.engineWork, hkind, hrndv, hblocks, hcopy, hdone, hstored]
  simp [Dev.copyOut, hentry, hrndv, hwork, hgoing, hstep]

/-! ## The expiry of an entry (R352) -/

theorem Dev.entryExpiry_none {d : Dev} {r e id : Nat} (h : tget (d.ep e).store id = none) : d.entryExpiry r e id = d := by
  simp [Dev.entryExpiry, h]

theorem Dev.entryExpiry_due {d : Dev} {r e id : Nat} {m : Match} (hentry : tget (d.ep e).store id = some m) (hposted : m.kind ≠ .posted)
    (hpart : m.done < m.msgLen) (hpull : m.rndv = true → m.pulling = true)
    (hdue : m.newest + (d.region r).chip.msgHold ≤ d.belfryNow r) (hgoing : m.kind = .matched → d.recvParked e m = false) :
    d.entryExpiry r e id = d.expireEntry r e id m := by
  have hmay : m.mayExpire = true := by
    cases hrndv : m.rndv with
    | false => simp [Match.mayExpire, hposted, hpart, hrndv]
    | true => simp [Match.mayExpire, hposted, hpart, hpull hrndv]
  have hparked : (m.kind == .matched && d.recvParked e m) = false := by simpa using hgoing
  simp [Dev.entryExpiry, hentry, hmay, Nat.not_lt.2 hdue, hparked]

theorem Dev.expireEntry_matched {d : Dev} {r e id : Nat} {m : Match} (h : m.kind = .matched) :
    d.expireEntry r e id m = ((d.count (Ctr.entryExpiries e)).dropPull r e id).endReceive e id 0x07 0x0303 m.written := by
  simp [Dev.expireEntry, h]

theorem Dev.expireEntry_unexpected {d : Dev} {r e id : Nat} {m : Match} (hmatched : m.kind ≠ .matched) (hheld : m.kind ≠ .held) :
    d.expireEntry r e id m = (d.count (Ctr.entryExpiries e)).freeMatch e id := by
  simp [Dev.expireEntry, hmatched, hheld]

/-- The number of a HELD entry that expires stays with its connection. -/
theorem Dev.expireEntry_held {d : Dev} {r e id k : Nat} {m : Match} {c : Conn} (hheld : m.kind = .held)
    (hconn : (((d.count (Ctr.entryExpiries e)).freeMatch e id).region r).findConn m.localFen m.hdr.srcFen 0 = some (k, c)) :
    d.expireEntry r e id m = ((d.count (Ctr.entryExpiries e)).freeMatch e id).modConn r k (fun c =>
      { c with rxExpired := c.rxExpired ++ [m.sendSeq] }) := by
  simp [Dev.expireEntry, hheld, hconn]

/-- Settles O41: each packet by the entry or the distance that it finds, each timer by what it does when it is due; what runs over a
region's endpoints acts first at the lowest one with such an entry. -/
theorem messagesArriveAndComplete : Obligations.MessagesArriveAndComplete := by
  refine ⟨?send, ?rts, ?gap, ?copies, ?copy, ?expiries, ?expiry, ?ages, ?idle⟩
  case send =>
    intro s r pkt b a f e cid hrun hb hop hup he htake hf
    exact (answers_arrival (fun d => d.messageIn r pkt 0x10) rfl hrun hb rfl).imp
      fun _ hd => hd ▸ Dev.messageIn_taken hop hup he htake hf
  case rts =>
    intro s r pkt b a f e cid hrun hb hop hup he htake hf
    exact (answers_arrival (fun d => d.messageIn r pkt 0x11) rfl hrun hb rfl).imp
      fun _ hd => hd ▸ Dev.messageIn_taken hop hup he htake hf
  case gap =>
    intro s r conn l c hrun hconn hheld hdue hlow
    exact answers_regionRuns (fun d => d.gapExpiry r conn) rfl hrun (Dev.gapExpiry_due hconn hheld hdue hlow)
  case copies =>
    intro s r entry hrun
    have hrow : exec (.uxCopy r entry) s = execUxCopy r entry s := rfl
    exact answers_regionRuns _ hrow hrun rfl
  case copy =>
    intro s r entry e m hrun he hbelow hentry hkind hrndv hblocks hcopy hdone hstored hgoing hstep
    have hrow : exec (.uxCopy r entry) s = execUxCopy r entry s := rfl
    refine (answers_regionRuns _ hrow hrun
      (forEach_epsOf he fun f hf hlt => Dev.copyOut_none (hbelow f hf hlt))).imp fun d hd => ⟨_, rfl, ?_⟩
    rw [hd, Dev.copyOut_due he hentry hkind hrndv hblocks hcopy hdone hstored hgoing hstep]
  case expiries =>
    intro s r entry hrun
    have hrow : exec (.matchEntryExpiry r entry) s = execMatchEntryExpiry r entry s := rfl
    exact answers_regionRuns _ hrow hrun rfl
  case expiry =>
    intro s r entry e m hrun he hbelow hentry hposted hpart hpull hdue hgoing
    have hrow : exec (.matchEntryExpiry r entry) s = execMatchEntryExpiry r entry s := rfl
    refine (answers_regionRuns _ hrow hrun
      (congrArg (fun d => d.startOps r) (forEach_epsOf he fun f hf hlt => Dev.entryExpiry_none (hbelow f hf hlt)))).imp
      fun d hd => ⟨_, s.dev.expireEntry r e entry m, rfl, Dev.expireEntry_matched, Dev.expireEntry_unexpected,
        fun k c hheld hconn => Dev.expireEntry_held hheld hconn, ?_⟩
    rw [hd, Dev.entryExpiry_due hentry hposted hpart hpull hdue hgoing]
  case ages =>
    intro s r hrun
    have hrow : exec (.ageSweep r) s = execAgeSweep r s := rfl
    exact answers_regionRuns _ hrow hrun rfl
  case idle =>
    intro s r conn c hrun hconn hevict
    have hrow : exec (.connIdleExpiry r conn) s = execConnIdleExpiry r conn s := rfl
    exact answers_regionRuns _ hrow hrun (by simp [hconn, hevict])

end Sys2Proof.Machine
end

section
/-! What the packets and timers of a rendezvous do where the conditions of their rules hold (11 R354 to R357). -/

namespace Sys2Proof.Machine

/-! ## The send is LENT and its bytes are asked for (R354 to R356) -/

/-- An RTS_ACK lends a send that is not lent yet: the RTS is paid for and its timer stops. -/
theorem Dev.rtsAckReceived_lends {d a : Dev} {r id : Nat} {p : Packet} {o : Op} (h : d.Meets r p 0x18 a p.hdr.msgSeq id o)
    (hattempt : o.attempt % 4 = p.hdr.attempt) (hkind : o.kind = .rts) (hlent : o.lent = none) :
    d.rtsAckReceived r p = ((a.pay r id o.cost).modOp r id (fun o =>
      { o with lent := some (a.belfryNow r), timer := none })).startOps r :=
  h.oneResponse (kind := fun o => o.kind == .rts && o.lent.isNone) hattempt (by simp [hkind, hlent]) _

/-- An RNDV_GET of a LENT send is refused when it reaches past the send's length, and else starts a work that reads the send's bytes. -/
theorem Dev.rndvGet_lent {d a : Dev} {r id : Nat} {p : Packet} {o : Op} (hop : opOk p 0x12 = true) (hup : d.targetUp r p.hdr = true)
    (hsend : d.lentSend r p.hdr = (a, some (id, o))) :
    d.rndvGet r p = if o.length < p.hdr.msgOff + p.hdr.getBytes
      then (a.count (Ctr.handleRefusals (d.targetEp r p.hdr))).refuse (d.targetEp r p.hdr) p 0x03 0x0305
      else (a.modOp r id (fun o => { o with lastGet := some (a.belfryNow r) })).startWork
        r (d.targetEp r p.hdr) p none none (some id) := by
  simp [Dev.rndvGet, hop, hup, hsend]

/-- RNDV_DATA of a pull renews the time of the receive's entry, if the entry has not expired before, and lands as a GET's data does. -/
theorem Dev.rndvData_pull {d : Dev} {r id : Nat} {p : Packet} {o : Op}
    (hfound : (d.region r).findOp p.hdr p.hdr.msgSeq = some (id, o)) (hkind : o.kind = .pull) :
    d.rndvData r p = ((d.entryExpiry r o.ep o.matchId).modMatch o.ep o.matchId (fun m =>
      { m with newest := d.belfryNow r })).dataReceived r p 0x19 .pull := by
  simp [Dev.rndvData, hfound, hkind]

/-! ## The pull starts (R355) -/

/-- A free pull slot lets the head of the pull queue start. -/
theorem Region.pullReady_cons {x : Region} {q : Nat × Nat} {rest : List (Nat × Nat)} (hslot : x.activePulls < x.chip.rndvMaxActive)
    (hqueue : x.pullQueue = q :: rest) : x.pullReady = some q := by
  simp [Region.pullReady, Nat.not_le.2 hslot, hqueue]

/-- A region's pull queue without its head `q`. -/
theorem Dev.modRegion_pullQueue_tail {d : Dev} {r : Nat} {q : Nat × Nat} {rest : List (Nat × Nat)}
    (hqueue : (d.region r).pullQueue = q :: rest) :
    d.modRegion r (fun x => { x with pullQueue := x.pullQueue.tail }) = d.modRegion r (fun x => { x with pullQueue := rest }) := by
  simp [Dev.modRegion, hqueue]

/-- An engine at the step of the head of the pull queue starts its pull, and the block that the item is on runs it. -/
theorem Dev.pullStart_head {d a b : Dev} {r e id : Nat} {rest : List (Nat × Nat)} {m : Match}
    (hslot : (d.region r).activePulls < (d.region r).chip.rndvMaxActive) (hqueue : (d.region r).pullQueue = (e, id) :: rest)
    (hstep : d.stepRuns r id = true) (ha : a = (d.modRegion r (fun x => { x with pullQueue := rest })).stepEnd r id)
    (hentry : tget (a.ep e).store id = some m)
    (hb : b = (a.modMatch e id (fun m => { m with pulling := true, newest := a.belfryNow r })).count (Ctr.rndvPulls e)) :
    d.pullStart r = b.addOp { pullOp e id m (b.sq e m.sq) with engine := d.itemBlock r id } := by
  subst ha hb
  simp [Dev.pullStart, Region.pullReady_cons hslot hqueue, hstep, Dev.modRegion_pullQueue_tail hqueue, hentry]

/-! ## The send ends (R357) -/

/-- An RNDV_FIN is acknowledged, and the LENT send completes with the fault that its reads have recorded, or without one. -/
theorem Dev.rndvFin_lent {d a : Dev} {r id : Nat} {p : Packet} {o : Op} (hop : opOk p 0x13 = true) (hup : d.targetUp r p.hdr = true)
    (hsend : (d.sendAck (d.targetEp r p.hdr) p.hdr 0 p.hdr.cmark (d.belfryNow r)).lentSend r p.hdr = (a, some (id, o)))
    (hgoing : a.opParked o = false) :
    d.rndvFin r p = a.endLent r id (o.servedFault.getD (0, 0)).1 (o.servedFault.getD (0, 0)).2 := by
  simp [Dev.rndvFin, hop, hup, hsend, hgoing]

/-- A LENT send whose last RNDV_GET is a message hold ago ends well when its served ranges cover its length, and else times out. -/
theorem Dev.lentIdle_due {d : Dev} {r id l t : Nat} {o : Op} (hentry : d.op r id = some o) (hlent : o.lent = some l)
    (hget : o.lastGet = some t) (hdue : t + (d.region r).chip.msgHold ≤ d.belfryNow r) (hgoing : d.opParked o = false) :
    d.lentIdle r id = if o.length ≤ reachOf o.served o.served.length 0 then (d.count (Ctr.lendExpiries o.ep)).endLent r id 0 0
      else (d.count (Ctr.lendExpiries o.ep)).endLent r id 0x07 0x0304 := by
  simp [Dev.lentIdle, hentry, hlent, hget, Nat.not_lt.2 hdue, hgoing]

/-- A LENT send that no RNDV_GET has asked for times out at the lend limit, where there is one. -/
theorem Dev.lendExpiry_due {d : Dev} {r id t : Nat} {o : Op} (hentry : d.op r id = some o) (hlent : o.lent = some t)
    (hget : o.lastGet = none) (hlimit : (d.region r).chip.lendTimeout ≠ 0)
    (hdue : t + (d.region r).chip.lendTimeout ≤ d.belfryNow r) (hgoing : d.opParked o = false) :
    d.lendExpiry r id = (d.count (Ctr.lendExpiries o.ep)).endLent r id 0x07 0x0304 := by
  simp [Dev.lendExpiry, hentry, hlent, hget, hlimit, Nat.not_lt.2 hdue, hgoing]

/-- Settles O42: each packet by the message or the LENT send that it finds, the pull by the head of its queue, each timer by what it
does when it is due. -/
theorem rendezvousCommandsComplete : Obligations.RendezvousCommandsComplete := by
  refine ⟨?rtsAck, ?rndvGet, ?rndvData, ?rndvFin, ?pullStart, ?lentIdle, ?lendTimeout⟩
  case rtsAck =>
    intro s r pkt k id c o b a hrun hb hop hconn ha hup hfound hattempt hkind hlent hgoing hentry hrunning
    have hmeets : b.Meets r pkt 0x18 a pkt.hdr.msgSeq id o := ⟨hop, ⟨k, c, hconn, ha⟩, hup, hfound, hgoing, hentry, hrunning⟩
    exact answers_arrival (fun d => d.rtsAckReceived r pkt) rfl hrun hb (Dev.rtsAckReceived_lends hmeets hattempt hkind hlent)
  case rndvGet =>
    intro s r pkt b a id o hrun hb hop hup hsend
    exact (answers_arrival (fun d => d.rndvGet r pkt) rfl hrun hb (Dev.rndvGet_lent hop hup hsend)).imp fun d hd => ⟨_, rfl, hd⟩
  case rndvData =>
    intro s r pkt b id o hrun hb hfound hkind
    exact answers_arrival (fun d => d.rndvData r pkt) rfl hrun hb (Dev.rndvData_pull hfound hkind)
  case rndvFin =>
    intro s r pkt b a f id o hrun hb hop hup ha hsend hgoing
    exact answers_arrival (fun d => d.rndvFin r pkt) rfl hrun hb (Dev.rndvFin_lent hop hup (ha ▸ hsend) hgoing)
  case pullStart =>
    intro s r e id rest m hrun hslot hqueue hstep hentry
    exact (answers_regionRuns (fun d => d.pullStart r) rfl hrun (Dev.pullStart_head hslot hqueue hstep rfl hentry rfl)).imp
      fun d hd => ⟨_, _, rfl, rfl, hd⟩
  case lentIdle =>
    intro s r op t l o hrun hentry hlent hget hdue hgoing
    exact answers_regionRuns (fun d => d.lentIdle r op) rfl hrun (Dev.lentIdle_due hentry hlent hget hdue hgoing)
  case lendTimeout =>
    intro s r op t o hrun hentry hlent hget hlimit hdue hgoing
    exact answers_regionRuns (fun d => d.lendExpiry r op) rfl hrun (Dev.lendExpiry_due hentry hlent hget hlimit hdue hgoing)

end Sys2Proof.Machine
end

section
/-! What every command keeps of the flash, the fuses and the queue (17 R513, R517, R524, R526, R527), and that each answers a next
state. -/

namespace Sys2Proof.Machine

/-! ## Commands that keep flash, fuses and queue -/

/-- FLASH_ERASE, FLASH_WRITE and IMAGE_ACTIVATE, the commands that write the flash. -/
def writesFlash : Instr → Bool
  | .flashErase .. | .flashWrite .. | .imageActivate .. => true
  | _ => false

theorem keeps_dev (d : Dev) (s : State) : Keeps (.next { s with dev := d }) s := ⟨_, rfl, rfl, rfl, rfl⟩

theorem keeps_commandReplyReceived (r : Fin 4) (p : Packet) (s : State) : Keeps (execCommandReplyReceived r p s) s := by
  unfold execCommandReplyReceived
  split
  · exact keeps_dev _ s
  · exact keeps_dev s.dev s

theorem keeps_bootStart (fails : List Bool) (s : State) : Keeps (execBootStart fails s) s := by
  unfold execBootStart State.bootStart
  split
  · exact keeps_dev s.dev s
  · exact keeps_dev _ s

theorem State.flashReadCmd_state (s : State) (q : Request) : (s.flashReadCmd q).1 = s := by
  simp only [State.flashReadCmd]; split <;> rfl

theorem State.regRead_state (s : State) (q : Request) : ∃ d, (s.regRead q).1 = { s with dev := d } := by
  simp only [State.regRead]; split <;> exact ⟨_, rfl⟩

theorem State.regModify_state (s : State) (q : Request) : ∃ d, (s.regModify q).1 = { s with dev := d } := by
  simp only [State.regModify]; split <;> exact ⟨_, rfl⟩

/-- A command over the whole state whose body changes the device alone. -/
theorem keeps_startDev (s : State) (f path tag) {body : State → Request → State × Answer}
    (h : ∀ u q, ∃ d, (body u q).1 = { u with dev := d }) : Keeps (.next (s.startCommand f path tag body)) s :=
  keeps_start s f path tag body fun u q => by
    obtain ⟨d, hd⟩ := h u q
    rw [hd]
    exact ⟨rfl, rfl, rfl⟩

/-- Every command but those three is a row on the device alone, or an Ocmiset command whose body changes the device alone. -/
theorem exec_keeps {c : Instr} (hc : writesFlash c = false) (s : State) : Keeps (exec c s) s := by
  cases c
  case flashErase | flashWrite | imageActivate => cases hc
  case bootStart => exact keeps_bootStart _ s
  case commandReplyReceived => exact keeps_commandReplyReceived _ _ s
  case laneBitslipCapture who _ | laneBitslipSlip who | laneBitslipCheck who _ =>
    cases who with
    | request => exact keeps_commandIf _ _ _ _ _ s
    | firmware => exact keeps_dev _ s
  case laneBitslipRead who =>
    cases who with
    | request => exact keeps_commandIf _ _ _ _ _ s
    | firmware => exact keeps_dev s.dev s
  case twinTakeoverTake | twinTakeoverRelease | wakeConfig | linkPatternSend => exact keeps_commandIf _ _ _ _ _ s
  case clockSwitch => exact keeps_step s _ _ _ _ _ (fun _ _ => ⟨rfl, rfl, rfl⟩) (fun _ _ => ⟨rfl, rfl, rfl⟩)
  case attest => exact keeps_step s _ _ _ _ _ (fun _ _ => ⟨rfl, rfl, rfl⟩) (fun _ _ => ⟨rfl, rfl, rfl⟩)
  case flashRead => exact keeps_startDev s _ _ _ fun u q => ⟨u.dev, u.flashReadCmd_state q⟩
  case blockLoad => exact keeps_startDev s _ _ _ fun _ _ => ⟨_, rfl⟩
  case regRead => exact keeps_startDev s _ _ _ State.regRead_state
  case regModify => exact keeps_startDev s _ _ _ State.regModify_state
  case nopCommand | routeRead | treeRead | cageStatus | twinStatus | powerStatus | identityCert | eventMapRead | quarantineRead =>
    exact keeps_startDev s _ _ _ fun u _ => ⟨u.dev, rfl⟩
  case routeWrite | routeCopy | routeCommit | treeSet | treeClear | treeAbort | lockForceRelease | lockAbandon | lockRead
     | regWrite | authNonce | mgmtForward | cmdAbort | counterRead | counterClear | cageSet
     | twinSet | twinHeartbeat | blockReset | regionDrain | regionReset | regionResume | powerSet | chipReset | eventMapSet
     | eventInject => exact keeps_command _ _ _ _ s
  all_goals exact keeps_dev _ s

/-! ## The three commands that write the flash -/

/-- What the commands that write the flash keep: its canonical form, the queue, and fuses that were blown. -/
def State.Succeeds (s t : State) : Prop :=
  t.pending = s.pending ∧ (s.flashWf = true → t.flashWf = true) ∧ Fuses.grown s.fuses t.fuses

theorem State.succeeds_refl (s : State) : s.Succeeds s := ⟨rfl, id, s.fuses.grown_refl⟩

/-- A state with the fuses and the queue of another, and flash in canonical form when the other's is. -/
theorem State.succeeds_of_spec {s t : State} (hfuses : t.fuses = s.fuses) (hpending : t.pending = s.pending)
    (hwf : Memory.wf flashDefault s.flash = true → Memory.wf flashDefault t.flash = true) : s.Succeeds t :=
  ⟨hpending, hwf, hfuses ▸ s.fuses.grown_refl⟩

theorem State.eraseSector_succeeds (s : State) (a n k : Nat) (e : Bool) : s.Succeeds (s.eraseSector a n k e).1 :=
  let ⟨hfuses, hpending, hwf, _⟩ := s.eraseSector_spec a n k e
  State.succeeds_of_spec hfuses hpending hwf

theorem State.writePage_succeeds (s : State) (a : Nat) (bs : List Byte) (e : Bool) : s.Succeeds (s.writePage a bs e).1 :=
  let ⟨hfuses, hpending, hwf, _⟩ := s.writePage_spec a bs e
  State.succeeds_of_spec hfuses hpending hwf

theorem State.flashEraseCmd_cases (s : State) (q : Request) (e : Bool) : (s.flashEraseCmd q e).1 = s ∨
    s.flashEraseCmd q e = s.eraseSector (flashAddr q.params) (flashLen q.params) 0 e ∧ 0 < flashLen q.params := by
  simp only [State.flashEraseCmd]
  split
  · exact .inl rfl
  · split
    · exact .inl rfl
    · exact .inr ⟨rfl, by omega⟩

theorem sliceBytes_length (bs : List Byte) (i n : Nat) : (sliceBytes bs i n).length = n := by
  simp [sliceBytes]

theorem State.flashWriteCmd_cases (s : State) (q : Request) (e : Bool) : (s.flashWriteCmd q e).1 = s ∨
    s.flashWriteCmd q e = s.writePage (flashAddr q.params) (sliceBytes q.params 8 (flashLen q.params)) e := by
  simp only [State.flashWriteCmd]
  split
  · exact .inl rfl
  · split
    · exact .inl rfl
    · split
      · exact .inl rfl
      · exact .inr rfl

theorem State.imageVerify_state (s : State) (q : Request) (f : Bool) : (s.imageVerify q f).1 = s := by
  simp only [State.imageVerify]; split <;> rfl

theorem State.imageActivate_cases (s : State) (q : Request) : (s.imageActivate q).1 = s ∨
    ∃ slot raise own, (s.imageActivate q).1 = (s.writeDir slot).burn raise own ∧ (own = true → s.fuses.ownerFused = false) := by
  simp only [State.imageActivate]
  split
  · exact .inl rfl
  · next h =>
    refine .inr ⟨_, _, _, rfl, fun hown => ?_⟩
    simp only [hown, Bool.true_and, Bool.or_eq_true, not_or, Bool.not_eq_true] at h
    exact h.1

theorem State.burn_pending (s : State) (raise own : Bool) : (s.burn raise own).pending = s.pending := rfl

theorem State.imageActivate_succeeds (s : State) (q : Request) : s.Succeeds (s.imageActivate q).1 := by
  rcases s.imageActivate_cases q with h | ⟨slot, raise, own, h, hown⟩
  · rw [h]; exact s.succeeds_refl
  · rw [h]
    refine ⟨State.burn_pending _ _ _, fun hwf => ?_, (s.writeDir slot).burn_grown raise own hown⟩
    rw [State.flashWf, State.burn_flash]
    exact s.writeDir_wf slot hwf

/-- A command of several steps whose steps keep what the flash commands keep. -/
theorem State.stepCommand_succeeds (s : State) (f : Form) (path : Path) (tag : Nat) {body : State → Request → State × Answer}
    {next : State → Exec → State × Answer} (hb : ∀ (u : State) q, u.Succeeds (body u q).1) (hn : ∀ (u : State) x, u.Succeeds (next u x).1) :
    s.Succeeds (s.stepCommand f path tag body next) :=
  State.stepCommand_keeps s.Succeeds s f path tag body next (fun _ _ h => h) s.succeeds_refl
    (fun q ptr _ _ => hb { s with dev := s.dev.started q ptr } q) (fun x _ => hn s x)

/-- A command of several steps whose steps keep the fuses. -/
theorem State.stepCommand_fuses (s : State) (f : Form) (path : Path) (tag : Nat) {body : State → Request → State × Answer}
    {next : State → Exec → State × Answer} (hb : ∀ u q, (body u q).1.fuses = u.fuses) (hn : ∀ u x, (next u x).1.fuses = u.fuses) :
    (s.stepCommand f path tag body next).fuses = s.fuses :=
  State.stepCommand_keeps (fun t => t.fuses = s.fuses) s f path tag body next (fun _ _ h => h) rfl
    (fun q ptr _ _ => hb { s with dev := s.dev.started q ptr } q) (fun x _ => hn s x)

theorem execFlashErase_fuses (path : Path) (tag : Nat) (e : Bool) {s t : State} (h : exec (.flashErase path tag e) s = .next t) :
    t.fuses = s.fuses := by
  cases h
  refine s.stepCommand_fuses _ _ _ (fun u q => ?_) fun u x => (u.eraseSector_spec _ _ _ _).1
  rcases u.flashEraseCmd_cases q e with h | ⟨h, -⟩ <;> rw [h]
  exact (u.eraseSector_spec _ _ _ _).1

theorem execFlashWrite_fuses (path : Path) (tag : Nat) (e : Bool) {s t : State} (h : exec (.flashWrite path tag e) s = .next t) :
    t.fuses = s.fuses := by
  cases h
  refine s.stepCommand_fuses _ _ _ (fun u q => ?_) fun u x => (u.writePage_spec _ _ _).1
  rcases u.flashWriteCmd_cases q e with h | h <;> rw [h]
  exact (u.writePage_spec _ _ _).1

/-- Every command answers a next state that keeps the flash's form, the queue and blown fuses. -/
theorem exec_succeeds (c : Instr) (s : State) : ∃ t, exec c s = .next t ∧ s.Succeeds t := by
  cases hc : writesFlash c
  case false =>
    obtain ⟨t, ht, hflash, hfuses, hpending⟩ := exec_keeps hc s
    exact ⟨t, ht, State.succeeds_of_spec hfuses hpending (hflash ▸ id)⟩
  case true =>
    cases c <;> cases hc
    case flashErase path tag e =>
      refine ⟨_, rfl, s.stepCommand_succeeds _ _ _ (fun u q => ?_) fun u x => u.eraseSector_succeeds _ _ _ _⟩
      rcases u.flashEraseCmd_cases q e with h | ⟨h, -⟩ <;> rw [h]
      · exact u.succeeds_refl
      · exact u.eraseSector_succeeds _ _ _ _
    case flashWrite path tag e =>
      refine ⟨_, rfl, s.stepCommand_succeeds _ _ _ (fun u q => ?_) fun u x => u.writePage_succeeds _ _ _⟩
      rcases u.flashWriteCmd_cases q e with h | h <;> rw [h]
      · exact u.succeeds_refl
      · exact u.writePage_succeeds _ _ _
    case imageActivate =>
      refine ⟨_, rfl, s.stepCommand_succeeds _ _ _ (fun u q => ?_) fun u x => u.imageActivate_succeeds x.req⟩
      rw [u.imageVerify_state]
      exact u.succeeds_refl

/-! ## The statements about every command and every step -/

/-- Settles O1: a step with a command waiting is the execution of the front command. -/
theorem stepRunsTheFrontCommand : Obligations.StepRunsTheFrontCommand := fun _ _ _ => rfl

/-- Settles O2: by what every command answers. -/
theorem everyCommandAnswersANextState : Obligations.EveryCommandAnswersANextState := fun c s =>
  let ⟨t, ht, _⟩ := exec_succeeds c s
  ⟨t, ht⟩

/-- Settles O5: the flash of the reset state lists no cell. -/
theorem resetMeetsTheStepInvariant : Obligations.ResetMeetsTheStepInvariant := ⟨rfl, rfl⟩

/-- Settles O4: a step is the front command or a tick, and each command answers a state that succeeds its own. -/
theorem everyStepKeepsTheFlashFormAndTheFuses : Obligations.EveryStepKeepsTheFlashFormAndTheFuses := by
  intro s t hwf hstep
  cases hp : s.pending with
  | nil =>
    simp only [step, hp, tick, actIf, act, Host.Outcome.next.injEq] at hstep
    subst hstep
    exact ⟨hwf, s.fuses.grown_refl, rfl⟩
  | cons c cs =>
    obtain ⟨u, hu, hpending, huwf, hgrown⟩ := exec_succeeds c { s with pending := cs }
    simp only [step, hp, hu, Host.Outcome.next.injEq] at hstep
    subst hstep
    exact ⟨huwf hwf, hgrown, hpending⟩

/-- Settles O3: the three flash commands by their specs, every other command by what it keeps. -/
theorem onlyFlashCommandsChangeFlashAndFuses : Obligations.OnlyFlashCommandsChangeFlashAndFuses := by
  intro c s t ht
  obtain ⟨u, hu, hpending, -, -⟩ := exec_succeeds c s
  cases ht.symm.trans hu
  refine ⟨hpending, fun hactivate => ?_⟩
  cases hc : writesFlash c
  case false =>
    obtain ⟨v, hv, hflash, hfuses, -⟩ := exec_keeps hc s
    cases ht.symm.trans hv
    exact ⟨hfuses, fun _ _ => hflash⟩
  case true =>
    cases c <;> cases hc
    case flashErase => exact ⟨execFlashErase_fuses _ _ _ ht, fun herase => absurd rfl (herase _ _ _)⟩
    case flashWrite => exact ⟨execFlashWrite_fuses _ _ _ ht, fun _ hwrite => absurd rfl (hwrite _ _ _)⟩
    case imageActivate => exact absurd rfl (hactivate _ _ _)

/-! ## The bytes that the flash commands leave (17 R526, R527) -/

/-- A byte of the flash reads the same in two states. -/
def State.SameByte (a : Nat) (s t : State) : Prop := Memory.read flashDefault t.flash a = Memory.read flashDefault s.flash a

/-- A row of a command of several steps leaves a byte that its first step leaves, when it is the row that starts the command, and that
the further step leaves, when the command executes. -/
theorem State.stepCommand_sameByte (a : Nat) (s : State) (f : Form) (path : Path) (tag : Nat)
    {body : State → Request → State × Answer} {next : State → Exec → State × Answer}
    (hb : ∀ q ptr, s.dev.warden.exec path tag = none → s.dev.startable f path tag = some (q, ptr) →
      s.SameByte a (body { s with dev := s.dev.started q ptr } q).1)
    (hn : ∀ x, s.dev.warden.exec path tag = some x → s.SameByte a (next s x).1) :
    s.SameByte a (s.stepCommand f path tag body next) :=
  State.stepCommand_keeps (s.SameByte a) s f path tag body next (fun _ _ h => h) rfl hb hn

/-- Settles O6: each command by what one sector, one page or one write of the directory leaves. -/
theorem flashCommandsKeepOtherBytes : Obligations.FlashCommandsKeepOtherBytes := by
  refine ⟨?eraseFirst, ?eraseNext, ?writeFirst, ?writeNext, ?activate⟩
  case eraseFirst =>
    rintro s _ path tag e q ptr a hnone hq ⟨⟩ ha
    refine s.stepCommand_sameByte a _ path tag (fun q' ptr' _ hq' => ?_) fun x hx => by cases hnone.symm.trans hx
    cases hq.symm.trans hq'
    rcases ({ s with dev := s.dev.started q ptr } : State).flashEraseCmd_cases q e with h | ⟨h, hlen⟩ <;> rw [h]
    · exact rfl
    · obtain ⟨-, -, -, hbytes⟩ := State.eraseSector_spec { s with dev := s.dev.started q ptr } (flashAddr q.params) (flashLen q.params) 0 e
      exact hbytes a (by omega)
  case eraseNext =>
    rintro s _ path tag e x a hx ⟨⟩ ha
    refine s.stepCommand_sameByte a _ path tag (fun _ _ hnone _ => by cases hnone.symm.trans hx) fun x' hx' => ?_
    cases hx.symm.trans hx'
    obtain ⟨-, -, -, hbytes⟩ := s.eraseSector_spec (flashAddr x.req.params) (flashLen x.req.params) x.a e
    exact hbytes a ha
  case writeFirst =>
    rintro s _ path tag e q ptr a hnone hq ⟨⟩ ha
    refine s.stepCommand_sameByte a _ path tag (fun q' ptr' _ hq' => ?_) fun x hx => by cases hnone.symm.trans hx
    cases hq.symm.trans hq'
    rcases ({ s with dev := s.dev.started q ptr } : State).flashWriteCmd_cases q e with h | h <;> rw [h]
    · exact rfl
    · obtain ⟨-, -, -, hbytes⟩ := State.writePage_spec { s with dev := s.dev.started q ptr } (flashAddr q.params)
        (sliceBytes q.params 8 (flashLen q.params)) e
      exact hbytes a (by rwa [sliceBytes_length])
  case writeNext =>
    rintro s _ path tag e x a hx ⟨⟩ ha
    refine s.stepCommand_sameByte a _ path tag (fun _ _ hnone _ => by cases hnone.symm.trans hx) fun x' hx' => ?_
    cases hx.symm.trans hx'
    obtain ⟨-, -, -, hbytes⟩ := s.writePage_spec x.a x.data e
    exact hbytes a ha
  case activate =>
    rintro s _ path tag f a ⟨⟩ ha
    refine s.stepCommand_sameByte a _ path tag (fun q ptr _ _ => ?_) fun x _ => ?_
    · rw [State.imageVerify_state]
      exact rfl
    · rcases s.imageActivate_cases x.req with h | ⟨slot, raise, own, h, -⟩ <;> rw [h]
      · exact rfl
      · rw [State.SameByte, State.burn_flash]
        exact s.writeDir_other slot ha

end Sys2Proof.Machine
end

section
/-! The exact accumulators: what a partial sum reads back as, and that a sum does not depend on the order of its contributions (12
R382 to R388). -/

namespace Sys2Proof.Machine

/-! ## Packed fields -/

theorem pack_cons_mod (v w : Nat) (fs : List (Nat × Nat)) : pack ((v, w) :: fs) % 2 ^ w = v % 2 ^ w := by
  simp [pack, Nat.shiftLeft_eq, Nat.mul_comm]

theorem pack_cons_shiftRight (v w : Nat) (fs : List (Nat × Nat)) : pack ((v, w) :: fs) >>> w = pack fs := by
  have hv : v % 2 ^ w < 2 ^ w := Nat.mod_lt _ (Nat.two_pow_pos w)
  rw [pack, Nat.shiftLeft_eq, Nat.shiftRight_eq_div_pow, Nat.add_mul_div_right _ _ (Nat.two_pow_pos w), Nat.div_eq_of_lt hv, Nat.zero_add]

theorem pack_lt (fs : List (Nat × Nat)) : pack fs < 2 ^ (fs.map Prod.snd).sum := by
  induction fs with
  | nil => simp [pack]
  | cons f fs ih =>
    obtain ⟨v, w⟩ := f
    have hv : v % 2 ^ w < 2 ^ w := Nat.mod_lt _ (Nat.two_pow_pos w)
    rw [pack, Nat.shiftLeft_eq, List.map_cons, List.sum_cons, Nat.pow_add]
    calc v % 2 ^ w + pack fs * 2 ^ w < 2 ^ w + pack fs * 2 ^ w := by omega
      _ = (pack fs + 1) * 2 ^ w := by rw [Nat.add_mul, Nat.one_mul, Nat.add_comm]
      _ ≤ 2 ^ (fs.map Prod.snd).sum * 2 ^ w := Nat.mul_le_mul_right _ ih
      _ = 2 ^ w * 2 ^ (fs.map Prod.snd).sum := Nat.mul_comm _ _

/-- The first field is the bits below its width. -/
theorem bits_pack_first {v w h : Nat} (fs : List (Nat × Nat)) (hw : h + 1 = w) : bits (pack ((v, w) :: fs)) h 0 = v % 2 ^ w := by
  subst hw
  simp only [bits, Nat.shiftRight_zero, Nat.sub_zero]
  exact pack_cons_mod v _ fs

/-- A field further on is one of the packing of the fields after the first. -/
theorem bits_pack_rest {v w h l : Nat} (fs : List (Nat × Nat)) : bits (pack ((v, w) :: fs)) (w + h) (w + l) = bits (pack fs) h l := by
  have hn : w + h + 1 - (w + l) = h + 1 - l := by omega
  simp only [bits, Nat.shiftRight_add, pack_cons_shiftRight, hn]

/-! ## Compact and full forms (R383 to R385) -/

theorem lowZeros_le (n x : Nat) : lowZeros n x ≤ n := by
  induction n generalizing x with
  | zero => simp [lowZeros]
  | succ n ih =>
    have := ih (x / 2)
    simp only [lowZeros]; split <;> omega

theorem two_pow_lowZeros_dvd (n x : Nat) : 2 ^ lowZeros n x ∣ x := by
  induction n generalizing x with
  | zero => simp [lowZeros]
  | succ n ih =>
    simp only [lowZeros]
    split
    · exact Nat.one_dvd x
    · obtain ⟨k, hk⟩ := ih (x / 2)
      exact ⟨k, by rw [Nat.pow_add, Nat.pow_one, Nat.mul_assoc, ← hk]; omega⟩

theorem posOf_lt (v : Int) : posOf v < 2 ^ 12 := by
  have := lowZeros_le 2048 v.natAbs
  unfold posOf; split <;> omega

/-- A value is its significant part times the power of two at POS. -/
theorem posOf_mul (v : Int) : v / Int.ofNat (2 ^ posOf v) * Int.ofNat (2 ^ posOf v) = v := by
  refine Int.ediv_mul_cancel (Int.ofNat_dvd_left.2 ?_)
  unfold posOf
  split
  · exact Nat.one_dvd _
  · exact two_pow_lowZeros_dvd _ _

/-- The four fields of the compact form, read back. -/
theorem compact_fields {w p k n : Nat} (hw : w < 2 ^ 128) (hp : p < 2 ^ 12) (hk : k < 2 ^ 2) (hn : n < 2 ^ 1) :
    bits (field (leBytes 24 (pack [(w, 128), (p, 12), (k, 2), (n, 1)])) 0 24) 127 0 = w ∧
    bits (field (leBytes 24 (pack [(w, 128), (p, 12), (k, 2), (n, 1)])) 0 24) 139 128 = p ∧
    bits (field (leBytes 24 (pack [(w, 128), (p, 12), (k, 2), (n, 1)])) 0 24) 141 140 = k ∧
    bit (field (leBytes 24 (pack [(w, 128), (p, 12), (k, 2), (n, 1)])) 0 24) 142 = (n == 1) := by
  have hfit : pack [(w, 128), (p, 12), (k, 2), (n, 1)] < 256 ^ 24 := Nat.lt_of_lt_of_le (pack_lt _) (by norm_num)
  rw [field_leBytes hfit]
  refine ⟨?_, ?_, ?_, ?_⟩
  · rw [bits_pack_first _ rfl, Nat.mod_eq_of_lt hw]
  · rw [bits_pack_rest (w := 128) (h := 11) (l := 0), bits_pack_first _ rfl, Nat.mod_eq_of_lt hp]
  · rw [bits_pack_rest (w := 128) (h := 13) (l := 12), bits_pack_rest (w := 12) (h := 1) (l := 0), bits_pack_first _ rfl,
      Nat.mod_eq_of_lt hk]
  · rw [bit, bits_pack_rest (w := 128) (h := 14) (l := 14), bits_pack_rest (w := 12) (h := 2) (l := 2),
      bits_pack_rest (w := 2) (h := 0) (l := 0), bits_pack_first _ rfl, Nat.mod_eq_of_lt hn]

theorem AccKind.ofCode_code (k : AccKind) : AccKind.ofCode k.code = k := by cases k <;> rfl

theorem ofSigned_lt_bytes (n : Nat) (v : Int) : ofSigned (8 * n) v < 256 ^ n :=
  Nat.lt_of_lt_of_eq (ofSigned_lt (8 * n) v) (Nat.pow_mul 2 8 n)

/-- An accumulator of a special value is nothing but its kind. -/
theorem Acc.plain_iff {a : Acc} : a.plain ↔ a.kind = .finite ∨ a = Acc.special a.kind := by
  obtain ⟨k, v, n⟩ := a
  cases k <;> simp [Acc.plain, Acc.special]

theorem accOfCompact_special {k : AccKind} (hspecial : k ≠ .finite) : accOfCompact (Acc.special k).toCompact = Acc.special k := by
  have hcode : k.code < 2 ^ 2 := by cases k <;> decide
  obtain ⟨-, -, hk, -⟩ := compact_fields (w := 0) (p := 0) (n := 0) (by decide) (by decide) hcode (by decide)
  simp only [accOfCompact, Acc.toCompact, Acc.special, hspecial, if_false, hk, AccKind.ofCode_code]

theorem accOfCompact_finite {a : Acc} (hkind : a.kind = .finite) (hcompact : a.compact = true) : accOfCompact a.toCompact = a := by
  obtain ⟨k, v, n⟩ := a
  subst hkind
  simp only [Acc.compact, bne_self_eq_false, Bool.false_or, decide_eq_true_eq] at hcompact
  obtain ⟨hlow, hhigh⟩ := hcompact
  have hn : b2n n < 2 ^ 1 := by cases n <;> decide
  obtain ⟨hw, hp, hk, hz⟩ := compact_fields (ofSigned_lt 128 (v / Int.ofNat (2 ^ posOf v))) (posOf_lt v) (k := 0) (by decide) hn
  simp only [accOfCompact, Acc.toCompact, if_true, hk, AccKind.ofCode, hw, hp, hz]
  rw [toSigned_ofSigned (by decide) hlow hhigh, posOf_mul]
  cases n <;> rfl

/-- A sum that does not travel in the compact form is a finite value other than 0. -/
theorem Acc.finite_of_not_compact {a : Acc} (h : a.compact = false) : a.kind = .finite ∧ a.v ≠ 0 := by
  obtain ⟨k, v, n⟩ := a
  simp only [Acc.compact, Bool.or_eq_false_iff, bne_eq_false_iff_eq, decide_eq_false_iff_not] at h
  obtain ⟨hkind, hwide⟩ := h
  refine ⟨hkind, fun hv => hwide ?_⟩
  subst hv
  simp

theorem accOfFull_finite {a : Acc} (hwf : a.wf) (h : a.compact = false) : accOfFull a.toFull = a := by
  obtain ⟨-, hzero, hlow, hhigh⟩ := hwf
  obtain ⟨hkind, hv⟩ := Acc.finite_of_not_compact h
  have hnz : a.negZero = false := by
    cases hn : a.negZero
    · rfl
    · exact absurd (hzero hn) hv
  obtain ⟨k, v, n⟩ := a
  subst hkind hnz
  simp only [accOfFull, Acc.toFull, field_leBytes (ofSigned_lt_bytes 272 v), toSigned_ofSigned (w := 2176) (by decide) hlow hhigh]

/-- Settles O7: a special value by its code, a finite one by its significant part and POS, or by its 2,176 bits. -/
theorem exactSumsTravelWithoutLoss : Obligations.ExactSumsTravelWithoutLoss := by
  refine fun a hwf => ⟨fun hcompact => ⟨?_, ?_⟩, fun hfull => ⟨leBytes_length _ _, accOfFull_finite hwf hfull⟩⟩
  · unfold Acc.toCompact
    split <;> exact leBytes_length _ _
  · rcases Acc.plain_iff.1 hwf.1 with hkind | hspecial
    · exact accOfCompact_finite hkind hcompact
    · by_cases hkind : a.kind = .finite
      · exact accOfCompact_finite hkind hcompact
      · rw [hspecial]; exact accOfCompact_special hkind

/-! ## The order of contributions (R382, R388) -/

theorem toAcc_plain (x dtype : Nat) : (toAcc x dtype).plain := by
  simp only [toAcc]
  split
  · exact Acc.plain_iff.2 (.inr rfl)
  · exact Acc.plain_iff.2 (.inl rfl)

/-- Contributions of which each special value is nothing but its kind may change places. -/
theorem Acc.combine_right_comm (z : Acc) {x y : Acc} (hx : x.plain) (hy : y.plain) :
    (z.combine x).combine y = (z.combine y).combine x := by
  obtain ⟨kz, vz, nz⟩ := z
  obtain ⟨kx, vx, nx⟩ := x
  obtain ⟨ky, vy, ny⟩ := y
  cases kx <;> cases ky <;> simp [Acc.plain] at hx hy <;> cases kz <;>
    simp [Acc.combine, Acc.special, hx, hy, Int.add_right_comm, Bool.and_right_comm]

/-- Settles O8: a contribution at a time, any two of which may change places. -/
theorem exactReductionIsOrderFree : Obligations.ExactReductionIsOrderFree := by
  intro dtype z xs ys _ hperm
  have hfold : (xs.map (fun x => toAcc x dtype)).foldl Acc.combine z = (ys.map (fun y => toAcc y dtype)).foldl Acc.combine z := by
    rw [List.foldl_map, List.foldl_map]
    exact hperm.foldl_eq' (fun x _ y _ z => z.combine_right_comm (toAcc_plain x dtype) (toAcc_plain y dtype)) z
  exact ⟨hfold, congrArg (roundAcc · dtype) hfold⟩

end Sys2Proof.Machine
end

section
/-! What a command that fails a common check leaves (14 R427), what CLOCK_STATUS and CLOCK_ENGINES read (14 R457), and how counters
add and clear (18 R540). -/

namespace Sys2Proof.Machine

/-! ## Commands that fail a common check -/

/-- A command whose request is not to start leaves the state. -/
theorem start_none {f : Form} {path : Path} {tag : Nat} {body : State → Request → State × Answer} {s : State}
    (h : s.dev.startable f path tag = none) : s.startCommand f path tag body = s := by
  simp [State.startCommand, h]

/-- A command whose request fails a common check starts, and ends with the status of the check. -/
theorem start_refused {f : Form} {path : Path} {tag : Nat} {body : State → Request → State × Answer} {s : State} {q : Request}
    {ptr st : Nat} (h : s.dev.startable f path tag = some (q, ptr)) (hj : s.dev.judge f q = some st) :
    s.startCommand f path tag body = { s with dev := (s.dev.started q ptr).finish path tag st [] } := by
  simp [State.startCommand, h, hj, Dev.started]

/-- Settles O10: each row listed starts its command, those of several steps where the command does not execute. -/
theorem refusedCommandsHaveNoEffect : Obligations.RefusedCommandsHaveNoEffect := by
  intro s path tag run f c hmem hnone
  have hstart : ∃ body, exec c s = .next (s.startCommand f path tag body) := by
    -- ROUTE_WRITE to CAGE_STATUS
    iterate 22
      rcases hmem with _ | ⟨_, hmem⟩
      · exact ⟨_, rfl⟩
    -- CLOCK_SWITCH
    rcases hmem with _ | ⟨_, hmem⟩
    · exact ⟨_, congrArg _ (step_first (hnone (by decide)))⟩
    -- TWIN_SET to FLASH_READ
    iterate 11
      rcases hmem with _ | ⟨_, hmem⟩
      · exact ⟨_, rfl⟩
    -- FLASH_ERASE, FLASH_WRITE, IMAGE_ACTIVATE, ATTEST
    iterate 4
      rcases hmem with _ | ⟨_, hmem⟩
      · exact ⟨_, congrArg _ (step_first (hnone (by decide)))⟩
    -- IDENTITY_CERT to EVENT_INJECT
    iterate 6
      rcases hmem with _ | ⟨_, hmem⟩
      · exact ⟨_, rfl⟩
    cases hmem
  obtain ⟨body, hexec⟩ := hstart
  exact ⟨fun q ptr st hq hj => ⟨_, hexec.trans (congrArg _ (start_refused hq hj)), rfl⟩,
    fun hq => hexec.trans (congrArg _ (start_none hq))⟩

/-! ## CLOCK_STATUS and CLOCK_ENGINES -/

/-- Settles O16: the two registers read the Warden's record of its islands, which a chip reset clears. -/
theorem clockRegistersReadTheIslandsAndResetToZero : Obligations.ClockRegistersReadTheIslandsAndResetToZero := by
  intro d f e v
  have hreset : d.chipReset.warden = Warden.reset := rfl
  refine ⟨rfl, rfl, rfl, rfl, ?_, ?_⟩
  · simp only [Dev.regValue, hreset]
    decide
  · simp only [Dev.regValue, hreset]
    decide

/-! ## Counters -/

theorem Dev.clearCounter_other (d : Dev) {n m : Nat} (h : m ≠ n) : (d.clearCounter n).counter m = d.counter m := by
  simp [Dev.counter, Dev.clearCounter, h]

/-- Settles O13: by what a counter reads after an increment and after a clear. -/
theorem countersWrapAndStandAlone : Obligations.CountersWrapAndStandAlone := by
  refine ⟨fun d n k => d.countBy_same n k, fun d n k m h => d.countBy_other k h, fun d n j k => ?_, fun d n m => ?_⟩
  · rw [Dev.countBy_same, Dev.countBy_same, Nat.mod_add_mod, Nat.add_assoc]
  · split
    · next h => rw [h, Dev.clearCounter_same]
    · next h => exact d.clearCounter_other h

end Sys2Proof.Machine
end

section
/-! What lock cells are after a reset (13 R406), and what the packets at a cell, the LOCK commands and the responses to a PENDING entry
do where the conditions of their rules hold (13 R407 to R422). -/

namespace Sys2Proof.Machine

/-! ## Cells (R406) -/

@[simp] theorem Dev.modLockCell_same (d : Dev) (id : Nat) (f : LockCell → LockCell) :
    (d.modLockCell id f).lockCell id = f (d.lockCell id) := by
  simp [Dev.modLockCell, Dev.lockCell, Region.lockCell]

theorem Dev.takeIntake_locks (d : Dev) (r q : Nat) (p : Packet) : ((d.takeIntake r p).region q).locks = (d.region q).locks := by
  by_cases h : q = r
  · subst h
    simp only [Dev.takeIntake, Dev.modRegion_same]
    split <;> rfl
  · rw [Dev.takeIntake, Dev.modRegion_other d _ h]

@[simp] theorem Dev.takeIntake_lockCell (d : Dev) (r id : Nat) (p : Packet) : (d.takeIntake r p).lockCell id = d.lockCell id := by
  simp [Dev.lockCell, Region.lockCell, Dev.takeIntake_locks]

/-- A region that lists no cell. -/
theorem Dev.lockCell_unlisted {d : Dev} {id : Nat} (h : (d.region (id / 16384)).locks = []) : d.lockCell id = LockCell.reset := by
  simp [Dev.lockCell, Region.lockCell, h, tgetD, tget]

theorem tget_map {α β : Type} (t : Tbl α) (f : α → β) (k : Nat) : tget (t.map (fun e => (e.1, f e.2))) k = (tget t k).map f := by
  induction t with
  | nil => rfl
  | cons e t ih =>
    by_cases h : e.1 = k
    · simp [tget, h]
    · simpa [tget, h] using ih

theorem Dev.chipReset_locks (d : Dev) (r : Nat) : (d.chipReset.region r).locks = [] := by
  simp only [Dev.region, Dev.chipReset_regions, tgetD, tget_map]
  cases tget d.regions r <;> rfl

theorem Dev.setBlock_region (d : Dev) (b r : Nat) (st : BState) : (d.setBlock b st).region r = d.region r := by
  unfold Dev.setBlock
  split <;> rfl

theorem Dev.resetBlock_region (d : Dev) (b r : Nat) : (d.resetBlock b).region r = d.region r := by
  simp only [Dev.resetBlock]
  split
  · rfl
  · exact Dev.setBlock_region _ b r _

/-- A reset of a region leaves its slice without a written cell. -/
theorem Dev.regionReset_locks (d : Dev) (r : Nat) (forced : Bool) : ((d.regionReset r forced).region r).locks = [] := by
  refine forEach_keeps (P := fun d => (d.region r).locks = []) _ (fun b d h => ?_) (blocksOf r) _ ?_
  · rw [Dev.resetBlock_region]; exact h
  · split
    · rw [Dev.raise_region, Dev.modRegion_same]; rfl
    · rw [Dev.modRegion_same]; rfl

/-! ## Grants (R407, R409) -/

/-- The cell that a LOCK finds free, abandoned or forced is granted to its sender. -/
theorem Dev.lockAtCell_grants {d : Dev} {r : Nat} {p : Packet} (hok : lockOk r p 1 = true) (hfree : (d.lockCell p.hdr.lockId).state ≠ 1) :
    d.lockAtCell r p = d.grantLock r p.hdr.lockId
      ⟨p.hdr.srcFen, p.hdr.srcEpi, p.hdr.lockPrio, argPend p.hdr, p.hdr.grantAddr, (d.region r).freeWaiter⟩
      ((d.lockCell p.hdr.lockId).state == 2) ((d.lockCell p.hdr.lockId).state == 3) := by
  simp [Dev.lockAtCell, hok, hfree]

/-- A grant of a cell without waiters is a GRANT packet with the cell's new GRANT_SEQ. -/
theorem Dev.grantLock_alone {d : Dev} {r id : Nat} {w : Waiter} {aband forced : Bool} (h : (d.lockCell id).waiters = []) :
    ∃ e : Dev, d.grantLock r id w aband forced =
      (e.lockSend r 0x81 w.fen w.epi id w.prio w.tag (lockArgOf w.pend aband forced 0 0 (e.lockCell id).grantSeq)).count
        (Ctr.lockGrants r) := by
  refine ⟨d.modLockCell id (fun c =>
    { c with state := 1, holderPrio := w.prio, effPrio := max w.prio (firstPrio c.waiters), holderFen := w.fen, holderEpi := w.epi,
             holderPend := w.pend, grantSeq := (c.grantSeq + 1) % 2 ^ 32, holderTag := w.tag }), ?_⟩
  simp [Dev.grantLock, h]

/-- PREV_ABANDONED and PREV_FORCED stand in bits 16 and 17 of LOCK_ARG. -/
theorem lockArgOf_flags (pend seq : Nat) (aband forced : Bool) :
    bit (lockArgOf pend aband forced 0 0 seq) 16 = aband ∧ bit (lockArgOf pend aband forced 0 0 seq) 17 = forced := by
  constructor
  · rw [bit, lockArgOf, bits_pack_rest (w := 15) (h := 1) (l := 1), bits_pack_rest (w := 1) (h := 0) (l := 0), bits_pack_first _ rfl]
    cases aband <;> rfl
  · rw [bit, lockArgOf, bits_pack_rest (w := 15) (h := 2) (l := 2), bits_pack_rest (w := 1) (h := 1) (l := 1),
      bits_pack_rest (w := 1) (h := 0) (l := 0), bits_pack_first _ rfl]
    cases forced <;> rfl

/-- Settles O17: a reset leaves no written cell, and an unwritten cell is ABANDONED. -/
theorem lockCellsAreAbandonedAfterAReset : Obligations.LockCellsAreAbandonedAfterAReset := by
  refine ⟨?chip, ?region, ?held, ?granted, ?packet, fun pend seq => lockArgOf_flags pend seq true false⟩
  case chip =>
    intro d id
    rw [Dev.lockCell_unlisted (d.chipReset_locks _)]
    exact ⟨rfl, rfl, rfl⟩
  case region =>
    rintro d _ id forced rfl
    rw [Dev.lockCell_unlisted (d.regionReset_locks _ forced)]
    exact ⟨rfl, rfl, rfl⟩
  case held =>
    intro c h hc
    simp [LockCell.heldBy, hc]
  case granted =>
    intro s r p hrun hok hcell
    refine (answers_arrival (fun d => d.lockAtCell r p) rfl hrun rfl (Dev.lockAtCell_grants hok (by simp [hcell]))).imp fun d hd => ?_
    exact ⟨⟨p.hdr.srcFen, p.hdr.srcEpi, p.hdr.lockPrio, argPend p.hdr, p.hdr.grantAddr, _⟩, rfl, by simpa [hcell] using hd⟩
  case packet =>
    intro d r id w h
    exact Dev.grantLock_alone h

/-! ## Packets at the cell (R407, R413) -/

theorem Dev.unlockAtCell_holder {d : Dev} {r : Nat} {p : Packet} (hok : lockOk r p 2 = true)
    (hheld : (d.lockCell p.hdr.lockId).heldBy p.hdr = true) :
    d.unlockAtCell r p = ((d.modLockCell p.hdr.lockId (fun c =>
      { c with lastFen := p.hdr.srcFen, lastEpi := p.hdr.srcEpi, lastPend := argPend p.hdr })).lockAnswer r 0x84 p.hdr).releaseLock
        r p.hdr.lockId := by
  simp [Dev.unlockAtCell, hok, hheld]

theorem Dev.cancelAtCell_waiter {d : Dev} {r : Nat} {p : Packet} (hok : lockOk r p 3 = true)
    (hwaits : (d.lockCell p.hdr.lockId).waiters.any (fun v => v.is p.hdr) = true) :
    d.cancelAtCell r p = ((d.lockAnswer r 0x84 p.hdr).modLockCell p.hdr.lockId (fun c =>
      { c with waiters := c.waiters.filter (fun v => !v.is p.hdr) })).lowerEff r p.hdr.lockId := by
  unfold Dev.cancelAtCell
  dsimp only
  rw [hok, if_neg (by decide), if_pos hwaits]

theorem Dev.lockForceRelease_held {d : Dev} {q : Request} {id : Nat} (hid : id = field q.params 0 2) (hheld : (d.lockCell id).state = 1)
    (hseq : (d.lockCell id).grantSeq = field q.params 4 4) :
    d.lockForceRelease q = ((d.forceLock (id / 16384) id).pendServe (id / 16384),
      .done Ocm.ok (leBytes 4 (((d.forceLock (id / 16384) id).pendServe (id / 16384)).lockCell id).grantSeq)) := by
  subst hid
  simp [Dev.lockForceRelease, hheld, hseq]

/-- Settles O45: each packet by what it finds at its cell, each command by its body. -/
theorem lockCellAndLockCommandsComplete : Obligations.LockCellAndLockCommandsComplete := by
  refine ⟨?lock, ?unlock, ?cancel, ?force, ?abandon, ?read⟩
  case lock =>
    rintro s r pkt b _ hrun hb hok rfl hfree
    exact answers_arrival (fun d => d.lockAtCell r pkt) rfl hrun hb (Dev.lockAtCell_grants hok hfree)
  case unlock =>
    intro s r pkt b hrun hb hok hheld
    exact answers_arrival (fun d => (d.unlockAtCell r pkt).pendServe r) rfl hrun hb
      (congrArg (fun d => Dev.pendServe d r) (Dev.unlockAtCell_holder hok hheld))
  case cancel =>
    intro s r pkt b hrun hb hok hwaits
    exact answers_arrival (fun d => (d.cancelAtCell r pkt).pendServe r) rfl hrun hb
      (congrArg (fun d => Dev.pendServe d r) (Dev.cancelAtCell_waiter hok hwaits))
  case force =>
    rintro s path tag q ptr id _ h hid hheld hseq rfl
    exact answers_command rfl h (Dev.lockForceRelease_held hid hheld hseq)
  case abandon =>
    rintro s path tag q ptr _ h rfl
    exact answers_command rfl h rfl
  case read =>
    rintro s path tag q ptr _ h rfl
    exact answers_command rfl h rfl

/-! ## Responses to a PENDING entry (R410, R412, R413) -/

/-- A response of an opcode meets the PENDING entry `q` on the device `a` that the ended timers have left: the entry is its own, waits for
an answer, and is neither lost nor parked, and the response's endpoint is up. -/
structure Dev.AwaitsLock (d : Dev) (r : Nat) (p : Packet) (op : Nat) (a : Dev) (q : Pend) : Prop where
  left : a = (d.lockRepeat r (argPend p.hdr)).lockProbe r (argPend p.hdr)
  ok : lockOk r p op = true
  entry : a.pend r (argPend p.hdr) = some q
  waits : q.state = .sent ∨ q.state = .queued
  own : q.fen = p.hdr.dstFen ∧ q.epi = p.hdr.srcEpi ∧ q.router = fenRouter p.hdr.srcFen ∧ q.lockId = p.hdr.lockId
  up : a.targetUp r p.hdr = true
  runs : (a.sq q.ep q.sq).state ≠ .halted
  kept : q.lost = false

/-- Such a response has its own effect, and entries that wait are served. -/
theorem Dev.AwaitsLock.lockResponse {d a : Dev} {r op : Nat} {p : Packet} {q : Pend} (h : d.AwaitsLock r p op a q)
    (go : Dev → Nat → Pend → Dev) : d.lockResponse r p op go = (go a (argPend p.hdr) q).pendServe r := by
  obtain ⟨hleft, hok, hentry, hwaits, ⟨hfen, hepi, hrouter, hid⟩, hup, hruns, hkept⟩ := h
  subst hleft
  rcases hwaits with hst | hst <;>
    simp [Dev.lockResponse, hok, hentry, hst, hfen, hepi, hrouter, hid, hup, hruns, hkept]

/-- The row of a lock response answers what the response does with the entry that it meets. -/
theorem answers_lockResponse {c : Instr} {s : State} {r : Fin 4} {p : Packet} {op : Nat} {a e : Dev} {q : Pend}
    {go : Dev → Nat → Pend → Dev} (hc : exec c s = onArrival r p (fun d => d.lockResponse r p op go) s) (hrun : s.dev.regionRuns r = true)
    (h : (s.dev.takeIntake r p).AwaitsLock r p op a q) (hgo : go a (argPend p.hdr) q = e) : Answers c s (fun d => d = e.pendServe r) :=
  answers_arrival (fun d => d.lockResponse r p op go) hc hrun rfl ((h.lockResponse go).trans (congrArg (Dev.pendServe · r) hgo))

theorem Dev.inheritRecord_up {d : Dev} {r op kind : Nat} {p : Packet} (hok : lockOk r p op = true) (hup : d.targetUp r p.hdr = true) :
    d.inheritRecord r p op kind = d.eqRecord (d.targetEp r p.hdr) p.hdr.srcEpi
      (leBytes 1 kind ++ sliceBytes (leBytes 12 p.hdr.lockArg) 1 3 ++ leBytes 2 p.hdr.lockId ++ leBytes 2 (fenRouter p.hdr.srcFen) ++
        sliceBytes (leBytes 12 p.hdr.lockArg) 4 8 ++ leBytes 8 p.hdr.grantAddr ++ zeros 7) true := by
  simp [Dev.inheritRecord, hok, hup]

/-! ## Repeats and probes (R412) -/

/-- A repeat that is due sends the request again. -/
theorem Dev.lockRepeat_sends {d : Dev} {r k : Nat} {p : Pend} (hentry : d.pend r k = some p) (hst : p.state = .sent)
    (hdue : p.since + (d.region r).chip.msgTimeout ≤ d.belfryNow r) (hruns : (d.sq p.ep p.sq).state ≠ .halted)
    (hleft : p.repeats < (d.region r).chip.maxRetries) (hfenced : d.fenced = false) (hkept : p.lost = false) :
    d.lockRepeat r k = ((d.modPend r k (fun p => { p with repeats := p.repeats + 1, since := d.belfryNow r })).sendRequest r k p
      p.opcode).count (Ctr.lockRepeats r) := by
  simp [Dev.lockRepeat, hentry, hst, Nat.not_lt.2 hdue, Dev.pendParked, hruns, hleft, hfenced, hkept]

/-- A repeat that is due on a FENCED device ends the entry. -/
theorem Dev.lockRepeat_fenced {d : Dev} {r k : Nat} {p : Pend} (hentry : d.pend r k = some p) (hst : p.state = .sent)
    (hdue : p.since + (d.region r).chip.msgTimeout ≤ d.belfryNow r) (hruns : (d.sq p.ep p.sq).state ≠ .halted)
    (hfenced : d.fenced = true) : d.lockRepeat r k = d.timeoutPend r k p 0x0501 := by
  simp [Dev.lockRepeat, hentry, hst, Nat.not_lt.2 hdue, Dev.pendParked, hruns, hfenced]

/-- An entry that no reset withdrew times out with its record alone, or with its DENIED word. -/
theorem Dev.timeoutPend_live {d : Dev} {r k detail : Nat} {p : Pend} (hlive : p.flushed = 0) :
    d.timeoutPend r k p detail =
      (if p.unlock = true then d.endPend r k (Fin8.status' 0x07 detail) else d.denyPend r k p 0x07 detail).pendServe r := by
  simp [Dev.timeoutPend, hlive]

/-- A probe that is due, after an answered one, is sent as a LOCK. -/
theorem Dev.lockProbe_sends {d : Dev} {r k : Nat} {q : Pend} (hentry : d.pend r k = some q) (hst : q.state = .queued)
    (hdue : q.since + (d.region r).chip.probe ≤ d.belfryNow r) (hruns : (d.sq q.ep q.sq).state ≠ .halted)
    (hanswered : q.unanswered = false) (hfenced : d.fenced = false) (hkept : q.lost = false) :
    d.lockProbe r k = ((d.modPend r k (fun p => { p with repeats := q.repeats, unanswered := true, since := d.belfryNow r })).sendRequest
      r k q 0x01).count (Ctr.lockRepeats r) := by
  simp [Dev.lockProbe, hentry, hst, Nat.not_lt.2 hdue, Dev.pendParked, hruns, hanswered, hfenced, hkept, b2n]

/-- Settles O46: each response by the PENDING entry that it meets, each timer by what it does when it is due. -/
theorem lockResponsesComplete : Obligations.LockResponsesComplete := by
  refine ⟨?grant, ?queued, ?busy, ?unlockDone, ?inherit, ?disinherit, ?again, ?fenced, ?probe⟩
  case grant =>
    intro s r pkt q a hrun ha hok hentry hwaits hown hup hruns hkept hlock
    exact answers_lockResponse rfl hrun ⟨ha, hok, hentry, hwaits, hown, hup, hruns, hkept⟩ (by simp [hlock])
  case queued =>
    intro s r pkt q a hrun ha hok hentry hwaits hown hup hruns hkept hlock
    exact answers_lockResponse rfl hrun ⟨ha, hok, hentry, hwaits, hown, hup, hruns, hkept⟩ (by simp [hlock])
  case busy =>
    intro s r pkt q a hrun ha hok hentry hwaits hown hup hruns hkept
    exact answers_lockResponse rfl hrun ⟨ha, hok, hentry, hwaits, hown, hup, hruns, hkept⟩ rfl
  case unlockDone =>
    intro s r pkt q a hrun ha hok hentry hwaits hown hup hruns hkept hunlock
    refine answers_lockResponse rfl hrun ⟨ha, hok, hentry, hwaits, hown, hup, hruns, hkept⟩ ?_
    rcases hwaits with hst | hst <;> simp [hst, hunlock]
  case inherit =>
    intro s r pkt a hrun ha hok hup
    exact answers_arrival (fun d => d.inheritRecord r pkt 0x85 0x02) rfl hrun ha (Dev.inheritRecord_up hok hup)
  case disinherit =>
    intro s r pkt a hrun ha hok hup
    exact answers_arrival (fun d => d.inheritRecord r pkt 0x86 0x03) rfl hrun ha (Dev.inheritRecord_up hok hup)
  case again =>
    intro s r pend p hrun hentry hst hdue hruns hleft hfenced hkept
    exact answers_regionRuns (fun d => d.lockRepeat r pend) rfl hrun (Dev.lockRepeat_sends hentry hst hdue hruns hleft hfenced hkept)
  case fenced =>
    intro s r pend p hrun hentry hst hdue hruns hfenced hlive
    refine (answers_regionRuns (fun d => d.lockRepeat r pend) rfl hrun
      ((Dev.lockRepeat_fenced hentry hst hdue hruns hfenced).trans (Dev.timeoutPend_live hlive))).imp ?_
    rintro _ rfl
    exact ⟨fun hunlock => by rw [if_pos hunlock], fun hlock => by rw [if_neg (by simp [hlock])]⟩
  case probe =>
    intro s r pend q hrun hentry hst hdue hruns hanswered hfenced hkept
    exact answers_regionRuns (fun d => d.lockProbe r pend) rfl hrun (Dev.lockProbe_sends hentry hst hdue hruns hanswered hfenced hkept)

end Sys2Proof.Machine
end

section
/-! What the packets and windows of a collective and the TREE commands do where the conditions of their rules hold (12 R369, R380, R381,
R392, R393, R396 to R399). -/

namespace Sys2Proof.Machine

/-! ## Packets (R380, R381) -/

/-- An up packet of a REMOTE child that is in time and brings elements that the instance lacks contributes them. -/
theorem Dev.collUp_contributes {d a : Dev} {r j first : Nat} {p : Packet} {t : Tree} {i : Instance}
    (htree : d.tree r p.hdr.treeId = some t) (hop : p.hdr.opcode = 1 ∧ p.hdr.cls = 2) (hslot : argSlot p.hdr < t.numChildren)
    (hremote : childLocal (t.child (argSlot p.hdr)) = false) (hfen : childFen (t.child (argSlot p.hdr)) = p.hdr.srcFen)
    (haccepts : t.accepts p.hdr.inst = true)
    (ha : a = d.openInst r p.hdr.treeId p.hdr.inst (argOp p.hdr) p.hdr.dtype p.hdr.redop p.hdr.exact_ (argTotal p.hdr))
    (hinst : (a.tree r p.hdr.treeId).bind (fun t => t.inst p.hdr.inst) = some i)
    (hsame : i.differs (argOp p.hdr) p.hdr.dtype p.hdr.redop p.hdr.exact_ (argTotal p.hdr) = false)
    (htime : t.upLate i (a.belfryNow r) = false) (hpresent : bit i.absent (argSlot p.hdr) = false)
    (hj : j = (if i.carries then p.hdr.elemOffset / i.size else 0)) (hfirst : first = (if i.carries then p.hdr.elemOffset % i.size else 0))
    (hseg : i.segsUp ≤ j ∧ j < i.upSegs) (hfits : first + p.hdr.elemCount ≤ i.upElems j)
    (hnew : (i.seg j).has (argSlot p.hdr) first p.hdr.elemCount = false) :
    d.collUp r p = (a.modInst r p.hdr.treeId p.hdr.inst (fun i =>
      i.contribute (argSlot p.hdr) j first (upVals i p) (argContrib p.hdr) (argPartial p.hdr))).coopRun r p.hdr.treeId := by
  obtain ⟨hopcode, hcls⟩ := hop
  obtain ⟨hlow, hhigh⟩ := hseg
  have hchild : ¬ (p.hdr.opcode ≠ 0x01 ∨ p.hdr.cls ≠ 2 ∨ t.numChildren ≤ argSlot p.hdr ∨ childLocal (t.child (argSlot p.hdr)) = true ∨
      childFen (t.child (argSlot p.hdr)) ≠ p.hdr.srcFen) := by
    simp [hopcode, hcls, hslot, hremote, hfen]
  have hrange : ¬ (i.upSegs ≤ j ∨ j < i.segsUp ∨ i.upElems j < first + p.hdr.elemCount ∨
      (i.seg j).has (argSlot p.hdr) first p.hdr.elemCount = true) := by
    simp [hnew, Nat.not_le.2 hhigh, Nat.not_lt.2 hlow, Nat.not_lt.2 hfits]
  simp only [Dev.collUp, htree, if_neg hchild, haccepts, ← ha, hinst, hsame, htime, hpresent, ← hj, ← hfirst, if_neg hrange]
  rfl

/-- A down packet or a credit from the parent that is in time goes down. -/
theorem Dev.collDown_sends {d : Dev} {r j op : Nat} {p : Packet} {t : Tree} {i : Instance}
    (htree : d.tree r p.hdr.treeId = some t) (hop : p.hdr.opcode = op ∧ p.hdr.cls = 3) (hroot : t.root = false)
    (hfen : t.parentFen = p.hdr.srcFen) (haccepts : t.accepts p.hdr.inst = true) (hinst : t.inst p.hdr.inst = some i)
    (htime : t.downLate i (d.belfryNow r) = false) (hj : j = (if i.collOp = 0 then 0 else p.hdr.elemOffset / i.size))
    (hseg : j < i.downSegs) (hnew : j ∉ i.downGot) :
    d.collDown r p op = (d.sendDown r p.hdr.treeId t i j (argPartial p.hdr) (argContrib p.hdr)
      (sliceBytes p.payload 0 (i.elemsOf j * dtypeBytes i.dtype))).coopRun r p.hdr.treeId := by
  obtain ⟨hopcode, hcls⟩ := hop
  have hparent : ¬ (p.hdr.opcode ≠ op ∨ p.hdr.cls ≠ 3 ∨ t.root = true ∨ t.parentFen ≠ p.hdr.srcFen) := by
    simp [hopcode, hcls, hroot, hfen]
  have hrange : ¬ (i.downSegs ≤ j ∨ i.downGot.contains j = true) := by
    simp [Nat.not_le.2 hseg, hnew]
  simp only [Dev.collDown, htree, if_neg hparent, haccepts, hinst, htime, ← hj, if_neg hrange]
  rfl

/-! ## Reads and windows (R380, R392, R393) -/

theorem Dev.contribRequest_ok {d : Dev} {r id c seg : Nat} {data : List Byte} {t : Tree} {p : Posting} {x : Tag}
    (htree : d.tree r id = some t) (hreader : t.reader c seg = some p)
    (hout : (d.ep p.ep).outstanding (.contrib r id c seg) = some x) (htime : d.expired p.ep x = false) :
    d.contribRequest r id c seg (.ok data) = (d.freeTag p.ep x.tag).hostEnd p.ep x (.ok (x.got ++ sliceBytes data 0 x.byteCount)) := by
  simp only [Dev.contribRequest, htree, hreader, Option.bind_some]
  exact Dev.endRequest_ok hout htime

/-- Settles O43: each packet by the instance that it meets, the read by its posting, each window by what has passed it. -/
theorem collectivePacketsComplete : Obligations.CollectivePacketsComplete := by
  refine ⟨?up, ?down, ?credit, ?read, ?upWindow, ?downWindow⟩
  case up =>
    intro s r pkt t i b a j first hrun hb htree hop hslot hremote hfen haccepts ha hinst hsame htime hpresent hj hfirst hseg hfits hnew
    exact answers_arrival (fun d => d.collUp r pkt) rfl hrun hb
      (Dev.collUp_contributes htree hop hslot hremote hfen haccepts ha hinst hsame htime hpresent hj hfirst hseg hfits hnew)
  case down =>
    intro s r pkt t i b j hrun hb htree hop hroot hfen haccepts hinst htime hj hseg hnew
    exact answers_arrival (fun d => d.collDown r pkt 0x02) rfl hrun hb
      (Dev.collDown_sends htree hop hroot hfen haccepts hinst htime hj hseg hnew)
  case credit =>
    intro s r pkt t i b j hrun hb htree hop hroot hfen haccepts hinst htime hj hseg hnew
    exact answers_arrival (fun d => d.collDown r pkt 0x03) rfl hrun hb
      (Dev.collDown_sends htree hop hroot hfen haccepts hinst htime hj hseg hnew)
  case read =>
    intro s r tree child seg data t p x hrun htree hreader hout htime
    exact answers_regionRuns (fun d => d.contribRequest r tree child seg (.ok data)) rfl hrun
      (Dev.contribRequest_ok htree hreader hout htime)
  case upWindow =>
    intro s r tree t hrun htree
    exact answers_regionRuns (fun d => d.upWindow r tree) rfl hrun (by simp only [Dev.upWindow, Dev.endWindows, htree])
  case downWindow =>
    intro s r tree t hrun htree
    exact answers_regionRuns (fun d => d.downWindow r tree) rfl hrun (by simp only [Dev.downWindow, htree])

/-! ## The TREE commands (R396 to R399) -/

/-- A TREE_SET of well-formed parameters, of a TREE_ID that no region holds, in a region with room. -/
theorem Dev.treeSet_new {d : Dev} {q : Request} {r id w : Nat} {kids : List Nat} {t : Tree} (hr : r = treeRegionOf q.params)
    (hw : w = field q.params 8 32) (hid : id = bits w 11 0)
    (hkids : kids = (List.range (setChildren q.params)).map (fun c => field q.params (40 + 4 * c) 4)) (hok : treeSetOk w kids = true)
    (hnew : d.treeRegion id = none)
    (hroom : (d.region r).treesOf (id % 2) < 512 ∧ (d.region r).scratchUsed + Tree.scratchNeed (bits w 59 56) ≤ (d.region r).scratchTotal)
    (ht : t = { static := leBytes 32 (w &&& staticMask), state := 1, cur := bits w 143 128,
                scratch := (Config.unstated d.free).toNat % 2 ^ 32, children := kids, insts := [], postings := [], abortNew := 0 }) :
    d.treeSet q = (d.draw.modRegion r (fun x => { x with trees := tput x.trees id t }), .done Ocm.ok (leBytes 8 t.scratch)) := by
  subst ht
  obtain ⟨hcontexts, hscratch⟩ := hroom
  have hfull : ¬ (512 ≤ (d.region r).treesOf (id % 2) ∨
      (d.region r).scratchTotal < (d.region r).scratchUsed + Tree.scratchNeed (bits w 59 56)) := by
    simp [Nat.not_le.2 hcontexts, Nat.not_lt.2 hscratch]
  simp only [Dev.treeSet, ← hw, ← hid, ← hkids, ← hr, hok, hnew, if_neg hfull]
  rfl

theorem Dev.treeClear_ready {d : Dev} {q : Request} {r : Nat} {t : Tree} (hheld : d.heldTree (treeIdOf q.params) = some (r, t))
    (hready : t.state = 1) :
    d.treeClear q = (d.modRegion r (fun x => { x with trees := tdrop x.trees (treeIdOf q.params) }), .done Ocm.ok []) := by
  simp [Dev.treeClear, hheld, hready]

theorem Dev.treeAbort_held {d : Dev} {q : Request} {r : Nat} {t : Tree} (hheld : d.heldTree (treeIdOf q.params) = some (r, t)) :
    d.treeAbort q = (((d.dropContribs r (treeIdOf q.params) t).countAborted r t).modTree r (treeIdOf q.params)
      (fun t => t.abort (field q.params 2 2)), .runs r (treeIdOf q.params) []) := by
  simp [Dev.treeAbort, hheld]

/-- An abort whose local writes are issued ends: its entries complete, and the context is READY. -/
theorem Dev.treeAbortDone_issued {d a : Dev} {r id : Nat} {t : Tree} (htree : d.tree r id = some t) (hst : t.state = 3)
    (hissued : (t.postings.filter (fun p => p.admitted)).any (fun p => p.writing != 0) = false)
    (ha : a = forEach (t.postings.filter (fun p => p.admitted)) (fun p d => d.complete p.ep p.sq p.entry ⟨0x0B, p.written, 0, 0, 0⟩)
      (d.modTree r id (fun t => { t with state := 1, postings := t.postings.filter (fun p => !p.admitted) }))) :
    d.treeAbortDone r id = ((a.unpark r id).coopRun r id).finishAll 0x0C03 r id Ocm.ok [] := by
  have hgoes : ¬ (t.state ≠ 3 ∨ (t.postings.filter (fun p => p.admitted)).any (fun p => p.writing != 0) = true) := by
    simp only [hst, hissued]; decide
  simp only [Dev.treeAbortDone, htree, if_neg hgoes, ← ha]

theorem Dev.treeRead_held {d : Dev} {q : Request} {r : Nat} {t : Tree} (hheld : d.heldTree (treeIdOf q.params) = some (r, t)) :
    d.treeRead q = .done Ocm.ok t.image := by
  simp [Dev.treeRead, hheld]

/-- Settles O44: each command by its body where its context admits it. -/
theorem treeCommandsComplete : Obligations.TreeCommandsComplete := by
  refine ⟨?set, ?clear, ?abort, ?abortDone, ?read⟩
  case set =>
    rintro s path tag q ptr r id w _ kids t h rfl hr hw hid hkids hok hnew hroom ht
    exact answers_command rfl h (Dev.treeSet_new hr hw hid hkids hok hnew hroom ht)
  case clear =>
    intro s path tag q ptr r t h hheld hready
    exact answers_command rfl h (Dev.treeClear_ready hheld hready)
  case abort =>
    intro s path tag q ptr r t h hheld
    exact answers_commandRuns rfl h (Dev.treeAbort_held hheld)
  case abortDone =>
    intro s r tree t a hrun htree hst hissued ha
    exact answers_regionRuns (fun d => d.treeAbortDone r tree) rfl hrun (Dev.treeAbortDone_issued htree hst hissued ha)
  case read =>
    intro s path tag q ptr r t h hheld
    exact ⟨_, reading_done h (Dev.treeRead_held hheld), rfl⟩

end Sys2Proof.Machine
end

section
/-! What the transport of Ocmiset commands and the management commands do where the conditions of their rules hold (14 R433 to R436,
R442 to R446, R459, 16 R505 to R508). -/

namespace Sys2Proof.Machine

/-! ## The intake and the calls (R433, R434, R443) -/

/-- A request that a running Warden does not know, with room in the intake, joins it. -/
theorem Dev.register_room {d : Dev} {q : Request} (hrun : d.wardenRuns = true) (hnew : d.warden.knows q.path q.tag = false)
    (hothers : (d.warden.intake.filter (fun x => x.path != .bellrope)).length < 252) (hroom : d.warden.intake.length < 256) :
    d.register q = ((d.count Ctr.cmdsReceived).modWarden (fun w => { w with intake := w.intake ++ [q] })).answerBad 256 := by
  have hfull : ¬ (256 ≤ d.warden.intake.length ∨
      (q.path ≠ .bellrope ∧ 252 ≤ (d.warden.intake.filter (fun x => x.path != .bellrope)).length)) := by
    rintro (h | ⟨-, h⟩) <;> omega
  simp only [Dev.register, hrun, hnew, if_neg hfull]
  rfl

theorem Dev.wardenPacket_request {d : Dev} {r : Nat} {p : Packet} (h : p.hdr.cls = 4 ∧ p.hdr.opcode ≠ 2 ∧ p.hdr.opcode ≠ 3) :
    d.wardenPacket r p = d.register ⟨.inband p.hdr.srcFen p.hdr.srcEpi, d.wardenNow, p.payload, some p.hdr, r, 0⟩ := by
  simp [Dev.wardenPacket, h]

theorem Dev.wardenPacket_reply {d : Dev} {r : Nat} {p : Packet} (h : (p.hdr.opcode = 2 ∨ p.hdr.opcode = 3) ∧ p.hdr.cls = 4) :
    d.wardenPacket r p = d.replyArrived r p := by
  simp [Dev.wardenPacket, h]

/-- A call whose time is not over. -/
theorem Dev.callTimeout_early {d : Dev} {id : Nat} {c : Outstanding} (hcall : d.warden.calls.find? (fun x => x.id == id) = some c)
    (hearly : d.callNow c < c.since + d.warden.cmdTimeout) : d.callTimeout id = d := by
  simp [Dev.callTimeout, hcall, hearly]

/-- The REPLY of a CMD that is in time ends its call and reaches its queue. -/
theorem Dev.replyArrived_cmd {d : Dev} {r : Nat} {p : Packet} {c : Outstanding} (hcall : d.callOf r p.hdr (Ocm.tag p.payload) = some c)
    (hlisted : d.warden.calls.find? (fun x => x.id == c.id) = some c) (hearly : d.callNow c < c.since + d.warden.cmdTimeout)
    (htype : Ocm.type p.payload = 2) (hcmd : c.forward = none) :
    d.replyArrived r p = (d.dropCall c.id).cmdAnswer c.ep c.sq c.tag 2 c.orphan p.payload := by
  simp [Dev.replyArrived, hcall, Dev.callTimeout_early hlisted hearly, htype, hcmd]

@[simp] theorem Dev.dropCall_sq (d : Dev) (id e q : Nat) : (d.dropCall id).sq e q = d.sq e q := rfl

/-- The CMD of a call whose time is over completes with TIMEOUT. -/
theorem Dev.callTimeout_cmd {d : Dev} {id : Nat} {c : Outstanding} {m : Cmd}
    (hcall : d.warden.calls.find? (fun x => x.id == id) = some c) (hdue : c.since + d.warden.cmdTimeout ≤ d.callNow c)
    (hforward : c.forward = none) (hours : c.orphan = 0) (hruns : (d.sq c.ep c.sq).state ≠ .halted)
    (hcmd : (d.sq c.ep c.sq).cmdOf c.tag = some m) :
    d.callTimeout id = (((d.dropCall id).modSq c.ep c.sq (fun s =>
      { s with cmds := s.cmds.filter (fun x => x.entry != m.entry) })).count (Ctr.cmdTimeouts c.ep)).complete c.ep c.sq m.entry
        (Fin8.status' 7 0) := by
  simp [Dev.callTimeout, hcall, Nat.not_lt.2 hdue, hforward, hours, hruns, hcmd]

theorem Dev.interimSend_due {d : Dev} {path : Path} {tag : Nat} {x : Exec} (hx : d.warden.exec path tag = some x)
    (hpath : path ≠ .bellrope) (hdue : d.warden.nextInterim x ≤ d.wardenNow) :
    d.interimSend path tag = ((d.count Ctr.interimsSent).modExec path tag (fun x =>
      { x with interims := x.interims + 1 })).sendReply x.req 3 Ocm.running (zeros 8) := by
  simp [Dev.interimSend, hx, hpath, Nat.not_lt.2 hdue]

/-! ## Bellrope (16 R505 to R508) -/

theorem Dev.ropeMatch_own {d : Dev} {addr : Nat} (hidle : d.lantern.rope = .idle) (haddr : addr = d.lantern.brAddr) :
    d.ropeMatch addr false = (d.count Ctr.brFrames).ropeAck := by
  simp [Dev.ropeMatch, hidle, haddr]

theorem Dev.ropeMatch_other {d : Dev} {addr : Nat} (wake : Bool) (hidle : d.lantern.rope = .idle) (haddr : addr ≠ d.lantern.brAddr) :
    d.ropeMatch addr wake = d.setRope (.ignoring 1) := by
  simp [Dev.ropeMatch, hidle, haddr]

/-- A request that the Warden's intake counts leaves the frame waiting for its answer. -/
theorem Dev.ropeTake_counted {d b : Dev} {bytes : List Byte} {q : Request} (hq : q = ⟨.bellrope, d.wardenNow, bytes, none, 0, 0⟩)
    (hb : b = (d.setRope (.waiting (some q.tag))).register q) (hcounted : b.counter Ctr.cmdsReceived ≠ d.counter Ctr.cmdsReceived) :
    d.ropeTake bytes = b := by
  simp only [Dev.ropeTake, ← hq, ← hb]
  exact if_neg fun h => hcounted h.1

theorem Dev.ropeRequest_good {d : Dev} {symbols : List RopeSym} {bytes : List Byte} (hmatched : d.lantern.rope = .matched)
    (hbytes : requestBytes symbols = some bytes) :
    d.ropeRequest symbols = (d.emit (.brAck (fourPhases (symbols.takeWhile (fun x => x != .dlm)).length))).ropeTake bytes := by
  simp [Dev.ropeRequest, hmatched, hbytes]

theorem Dev.ropeRequest_bad {d : Dev} {symbols : List RopeSym} (hmatched : d.lantern.rope = .matched)
    (hbytes : requestBytes symbols = none) :
    d.ropeRequest symbols = ((d.emit (.brAck (fourPhases (symbols.takeWhile (fun x => x != .dlm)).length))).count Ctr.brBadFrames).setRope
      (.answer [0, 0]) := by
  simp only [Dev.ropeRequest, hmatched, hbytes]
  rfl

theorem Dev.ropeAnswer_strobes {d : Dev} {bytes : List Byte} (hanswer : d.lantern.rope = .answer bytes) :
    d.ropeAnswer = ((d.emit (.bellrope bytes)).emit (.brAck (answerLevels bytes))).setRope .idle := by
  simp [Dev.ropeAnswer, hanswer]

/-- A row of the Lantern domain acts while it runs. -/
theorem answers_lanternRuns {c : Instr} {s : State} {d : Dev} (f : Dev → Dev) (hc : exec c s = actIf Dev.lanternRuns f s)
    (hrun : s.dev.lanternRuns = true) (hf : f s.dev = d) : Answers c s (fun e => e = d) := answers_actIf hc hrun hf

/-- A row of the Warden acts while it runs. -/
theorem answers_wardenRuns {c : Instr} {s : State} {d : Dev} (f : Dev → Dev) (hc : exec c s = actIf Dev.wardenRuns f s)
    (hrun : s.dev.wardenRuns = true) (hf : f s.dev = d) : Answers c s (fun e => e = d) := answers_actIf hc hrun hf

/-- A packet that reaches a running Warden. -/
theorem answers_wardenArrival {c : Instr} {s : State} {r : Fin 4} {p : Packet} {b d : Dev} (hc : exec c s = wardenArrival r p s)
    (hrun : s.dev.regionRuns r = true) (hb : b = s.dev.takeIntake r p) (hwarden : b.wardenRuns = true) (hd : b.wardenPacket r p = d) :
    Answers c s (fun e => e = d) :=
  answers_arrival (fun d => if d.wardenRuns then d.wardenPacket r p else d.crossingDrop r) hc hrun hb ((if_pos hwarden).trans hd)

/-- Settles O47: each packet by the Warden's intake or the call that it answers, each frame of Bellrope by its phase. -/
theorem commandTransportCompletes : Obligations.CommandTransportCompletes := by
  refine ⟨?intake, ?reply, ?interim, ?timeout, ?own, ?other, ?good, ?bad, ?answer, ?null⟩
  case intake =>
    rintro s r pkt b _ hrun hb hwarden hpkt rfl hnew hothers hroom
    exact answers_wardenArrival rfl hrun hb hwarden ((Dev.wardenPacket_request hpkt).trans (Dev.register_room hwarden hnew hothers hroom))
  case reply =>
    intro s r pkt b c hrun hb hwarden hpkt hcall hlisted hearly htype hcmd
    exact answers_wardenArrival (if_pos hpkt.1) hrun hb hwarden
      ((Dev.wardenPacket_reply hpkt).trans (Dev.replyArrived_cmd hcall hlisted hearly htype hcmd))
  case interim =>
    intro s path tag x hrun hx hpath hdue
    exact answers_wardenRuns (fun d => d.interimSend path tag) rfl hrun (Dev.interimSend_due hx hpath hdue)
  case timeout =>
    intro s call c m hrun hcall hdue hforward hours hruns hcmd
    exact answers_actIf (g := fun d => d.gatesRun) (f := fun d => d.callTimeout call) rfl hrun
      (Dev.callTimeout_cmd hcall hdue hforward hours hruns hcmd)
  case own =>
    intro s addr hrun hidle haddr
    exact answers_lanternRuns (fun d => d.ropeMatch addr.toNat false) rfl hrun (Dev.ropeMatch_own hidle haddr)
  case other =>
    intro s addr wake hrun hidle haddr
    exact answers_lanternRuns (fun d => d.ropeMatch addr.toNat wake) rfl hrun (Dev.ropeMatch_other wake hidle haddr)
  case good =>
    rintro s symbols bytes q _ b hrun hmatched hbytes hq rfl hb hcounted
    exact answers_lanternRuns (fun d => d.ropeRequest symbols) rfl hrun
      ((Dev.ropeRequest_good hmatched hbytes).trans (Dev.ropeTake_counted hq hb hcounted))
  case bad =>
    intro s symbols hrun hmatched hbytes
    exact answers_lanternRuns (fun d => d.ropeRequest symbols) rfl hrun (Dev.ropeRequest_bad hmatched hbytes)
  case answer =>
    intro s bytes hrun hanswer
    exact answers_lanternRuns Dev.ropeAnswer rfl hrun (Dev.ropeAnswer_strobes hanswer)
  case null =>
    intro s ns hrun hns
    exact answers_actIf (g := fun d => d.lanternRuns && decide (100000 ≤ ns)) (f := fun d => d.setRope .idle) rfl (by simp [hrun, hns]) rfl

/-! ## Management commands (14 R436, R442, R446) -/

theorem Dev.authNonce_room {d : Dev} (q : Request) (hroom : d.liveNonces.length < 8) :
    d.authNonce q = (d.draw.modWarden (fun w =>
      { w with nonces := d.liveNonces ++ [((Config.nonce d.free).toNat, d.wardenNow + 10000000000)] }),
      .done Ocm.ok (leBytes 8 (Config.nonce d.free).toNat ++ leBytes 8 (d.wardenNow + 10000000000))) := by
  simp [Dev.authNonce, hroom]

theorem Dev.mgmtForward_sends {d : Dev} {q : Request} {r : Nat} {h : Hdr} (hlen : 24 ≤ q.params.length)
    (hdir : 1 ≤ bits (byteAt q.params 0) 3 0 ∧ bits (byteAt q.params 0) 3 0 ≤ 8) (hhops : fwdHopsOk q.params = true)
    (hr : r = d.fwdRegion q)
    (hh : h = { dstFen := 0, srcFen := fenOf (d.region r).chip.routerId 0, cls := 4, mode := 2,
                interGroup := bits (byteAt q.params 0) 3 0, unit := 3, opcode := Ocm.type (q.params.drop 8),
                laSet := bits (field q.params 0 8) 63 8 }) :
    d.mgmtForward q = ((d.takeId.addCall
      ⟨d.nextId, some (q.path, q.tag), 0, 0, Ocm.tag (q.params.drop 8), 0, d.wardenNow, 0, false⟩).send r 63 h (q.params.drop 8),
      .runs d.nextId 0 []) := by
  obtain ⟨hlow, hhigh⟩ := hdir
  have hadmitted : ¬ (q.params.length < 24 ∨ bits (byteAt q.params 0) 3 0 = 0 ∨ 8 < bits (byteAt q.params 0) 3 0 ∨
      (!fwdHopsOk q.params) = true) := by
    rw [hhops]
    rintro (h | h | h | h)
    · omega
    · omega
    · omega
    · cases h
  subst hr hh
  simp only [Dev.mgmtForward, if_neg hadmitted]

theorem Dev.cmdAbort_first {d : Dev} {q : Request} {x : Exec} (hx : d.abortable q.path (abortTag q.params) = some x)
    (hfirst : x.aborting = false) : d.cmdAbort q = ((d.abortExec x).count Ctr.cmdsAborted, .done Ocm.ok []) := by
  simp [Dev.cmdAbort, hx, hfirst]

/-- Settles O48: each command by its body. -/
theorem managementCommandsComplete : Obligations.ManagementCommandsComplete := by
  refine ⟨?nop, ?nonce, ?forward, ?abort⟩
  case nop =>
    intro s path tag q ptr h
    exact ⟨_, reading_done (body := fun _ _ => .done Ocm.ok []) h rfl, rfl⟩
  case nonce =>
    rintro s path tag q ptr _ _ h rfl rfl hroom
    exact answers_command rfl h (Dev.authNonce_room q hroom)
  case forward =>
    rintro s path tag q ptr r _ hd h rfl hlen hdir hhops hr hh
    exact answers_commandRuns rfl h (Dev.mgmtForward_sends hlen hdir hhops hr hh)
  case abort =>
    intro s path tag q ptr x h hx hfirst
    exact answers_command rfl h (Dev.cmdAbort_first hx hfirst)

end Sys2Proof.Machine
end

section
/-! What the commands, heartbeats and timers of a twin pair do where the conditions of their rules hold (15 R461 to R477). -/

namespace Sys2Proof.Machine

/-! ## Fencing, death and heartbeats (R463, R465, R472) -/

/-- A pair whose own heartbeats have been silent for DEAD_TIME fences itself. -/
theorem Dev.silenceFence_due {d : Dev} (hstate : d.twin.state = .joining ∨ d.twin.state = .paired)
    (hdue : d.twin.lastIssued + d.twin.deadTime ≤ d.wardenNow) : d.silenceFence = d.enterFenced 2 := by
  rcases hstate with h | h <;> simp [Dev.silenceFence, h, hdue]

/-- The end of the death window without AUTO: the peer is dead, and nothing is taken over. -/
theorem Dev.twinDeath_manual {d a : Dev} (ha : a = d.silenceFence) (hover : a.windowOver = true) (hauto : a.twin.auto = false) :
    d.twinDeath = ((a.modTwin (fun t =>
      { t with peerDead := true, peerHeard := false, windowOpen := false })).raise Isl.warden (Src.chip 2) 0 0).count Ctr.twinDeaths := by
  have hkept : (!a.twin.auto) = true := by rw [hauto]; rfl
  simp only [Dev.twinDeath, ← ha, hover]
  exact if_pos hkept

/-- A heartbeat that is due leaves on the two ports of the twin link. -/
theorem Dev.heartbeatIssue_link {d a : Dev} {pkt : List Byte} {hd : Hdr} (ha : a = d.silenceFence) (hon : a.twin.state ≠ .off)
    (hdue : a.twin.lastIssued + a.twin.period ≤ a.wardenNow)
    (hpkt : pkt = Ocm.build 1 0 0x0F04 ((Config.unstated a.free).toNat % 65536) 0 0 a.heartbeat)
    (hhd : hd = { srcFen := fenOf a.chip.routerId 0, cls := 4, unit := 3, opcode := 1 }) (hfabric : a.twin.fabricHb = false) :
    d.heartbeatIssue = ((forEach [a.twin.portA, a.twin.portB] (fun p d =>
      d.send (p / 32) 63 { hd with mode := 2, interGroup := 1, laSet := p } pkt) a.draw).count Ctr.hbSent).modTwin (fun t =>
        { t with hbSeq := (t.hbSeq + 1) % 65536, lastIssued := a.wardenNow }) := by
  subst hpkt hhd
  simp [Dev.heartbeatIssue, ← ha, hon, Nat.not_lt.2 hdue, hfabric]

/-! ## The commands (R464, R467, R476, R477) -/

theorem Dev.twinSet_ok {d a : Dev} {q : Request} (ha : a = d.silenceFence) (hok : a.twinSetOk q.params = true)
    (hid : a.chip.idValid = true) (hfree : a.twin.state ≠ .taken) :
    d.twinSet q = (a.modTwin (fun t => (t.load q.params).setState q.params a.wardenNow), .done Ocm.ok []) := by
  simp [Dev.twinSet, ← ha, hok, hid, hfree]

theorem Dev.take_pair {d a : Dev} (q : Request) (ha : a = d.silenceFence) (hpair : a.twin.state = .joining ∨ a.twin.state = .paired) :
    d.take q = (a.takeOver, .done Ocm.ok (leBytes 8 a.takeOver.twin.info)) := by
  simp [Dev.take, ← ha, hpair]

theorem Dev.giveBack_taken {d b : Dev} {q : Request} (hop : byteAt q.params 0 = 2) (htaken : d.twin.state = .taken)
    (hb : b = d.dropAlt.modTwin (fun t =>
      { t with state := if d.heardLately then .paired else .joining, windowStart := t.lastHeard.getD d.wardenNow,
               windowOpen := true })) :
    d.giveBack q = (b, .done Ocm.ok (leBytes 8 b.twin.info)) := by
  simp [Dev.giveBack, hop, htaken, hb]

theorem Dev.twinHeartbeat_peer {d : Dev} {q : Request} (hon : d.twin.state ≠ .off) (hserial : field q.params 0 6 = d.twin.peerSerial)
    (hrouter : bits (field q.params 6 2) 13 0 = d.twin.peerRouter) : d.twinHeartbeat q = (d.heartbeatHeard q, .done Ocm.ok []) := by
  simp [Dev.twinHeartbeat, hon, hserial, hrouter]

/-- Settles O51: the commands by their bodies, the timers by the state of the pair once its own silence is judged. -/
theorem twinCommandsAndEventsComplete : Obligations.TwinCommandsAndEventsComplete := by
  refine ⟨?set, ?status, ?take, ?release, ?heartbeat, ?issue, ?death, ?silence⟩
  case set =>
    intro s path tag q ptr a h ha hok hid hfree
    exact answers_command rfl h (Dev.twinSet_ok ha hok hid hfree)
  case status =>
    intro s path tag q ptr h
    exact ⟨_, reading_done (body := fun d _ => .done Ocm.ok d.twin.status) h rfl, rfl⟩
  case take =>
    intro s path tag q ptr a h hop ha hpair
    exact answers_command (commandIf_own h (by simp [hop])) h (Dev.take_pair q ha hpair)
  case release =>
    rintro s path tag q ptr _ b h rfl hop htaken hb
    exact answers_command (commandIf_own h (by simp [hop])) h (Dev.giveBack_taken hop htaken hb)
  case heartbeat =>
    rintro s path tag q ptr _ h rfl hon hserial hrouter
    exact answers_command rfl h (Dev.twinHeartbeat_peer hon hserial hrouter)
  case issue =>
    intro s a pkt hd hrun ha hon hdue hpkt hhd hfabric
    exact answers_wardenRuns Dev.heartbeatIssue rfl hrun (Dev.heartbeatIssue_link ha hon hdue hpkt hhd hfabric)
  case death =>
    intro s a hrun ha hover hauto
    exact answers_wardenRuns Dev.twinDeath rfl hrun (Dev.twinDeath_manual ha hover hauto)
  case silence =>
    intro s hrun hstate hdue
    exact answers_wardenRuns Dev.silenceFence rfl hrun (Dev.silenceFence_due hstate hdue)

end Sys2Proof.Machine
end

section
/-! What engine dispatch, the BLOCK commands and the REGION commands do where the conditions of their rules hold (15 R480 to R487). -/

namespace Sys2Proof.Machine

/-! ## Engine blocks (R480 to R482) -/

/-- The oldest item of a RUN block starts a step on the engine that the dispatch pointer reaches first. -/
theorem Dev.engineDispatch_starts {d a : Dev} {b e : Nat} {item : Item} (ha : a = d.sweepItems b) (hst : (a.block b).state = .run)
    (hitem : minBy (fun (i : Item) => i.stamp) (a.block b).queue = some item) (hengine : a.freeEngine b = some e) :
    d.engineDispatch b = (a.modBlock b (fun x =>
      { x with queue := x.queue.erase item, running := x.running ++ [(e, item)], dispatchPtr := (e + 1) % 16 })).storeWrite
        (b / 16) item.id := by
  simp [Dev.engineDispatch, Dev.dispatchItem, ← ha, hst, hitem, hengine]

theorem Dev.blockReset_free {d : Dev} {q : Request} (hlimit : field q.params 0 4 ≤ 1000000) (hheld : d.blockHeld q.index = false) :
    d.blockReset q = (d.migrate q.index (stepLimit q.params) (d.block q.index).version (d.block q.index).code false,
      .runs q.index 0 []) := by
  simp [Dev.blockReset, Nat.not_lt.2 hlimit, hheld]

theorem Dev.blockLoad_good {d : Dev} {q : Request} {version : Nat} {code : List Byte} (hlimit : field q.params 0 4 ≤ 1000000)
    (hheld : d.blockHeld q.index = false) (hwant : field q.params 8 4 = 0 ∨ field q.params 8 4 = version)
    (hothers : ((d.versionsOf (q.index / 16)).filter (fun v => v != version)).length < 2) :
    d.blockLoad q version code 0 = (d.migrate q.index (stepLimit q.params) version code true, .runs q.index 0 []) := by
  simpa [Dev.blockLoad, Nat.not_lt.2 hlimit, hheld, Nat.not_le.2 hothers] using or_iff_not_imp_left.1 hwant

/-- A command over the whole state that starts and goes on, its body changing the device alone. -/
theorem answers_startRuns {c : Instr} {s : State} {f : Form} {path : Path} {tag : Nat} {body : State → Request → State × Answer}
    {q : Request} {ptr a b : Nat} {e : Dev} {data : List Byte} (hc : exec c s = .next (s.startCommand f path tag body))
    (h : Starts s f path tag q ptr)
    (hb : body { s with dev := s.dev.started q ptr } q = ({ s with dev := e }, .runs a b data)) :
    Answers c s (fun d => d = (e.modExec path tag (fun x => { x with a := a, b := b, data := data })).answerBad 256) :=
  ⟨_, hc.trans (congrArg _ ((start_settles h).trans (congrArg (State.settle path tag) hb))), rfl⟩

theorem Dev.blockMigrationEnd_done {d a : Dev} {b : Nat} (ha : a = d.sweepItems b) (hst : (a.block b).state = .migrating)
    (hidle : (a.block b).running = [] ∨ (a.block b).limit ≤ a.belfryNow (b / 16)) :
    d.blockMigrationEnd b = (a.abandonSteps b (fun _ => true)).setBlock b .resetting := by
  rcases hidle with h | h
  · simp [Dev.blockMigrationEnd, ← ha, hst, h]
  · simp [Dev.blockMigrationEnd, ← ha, hst, Nat.not_lt.2 h]

/-- The code of a block command that CMD_ABORT has not named is loaded. -/
theorem Dev.blockCodeLoaded_good {d a c : Dev} {b : Nat} {x : Exec} (hx : d.blockCommand b = some x)
    (hst : (d.block b).state = .resetting)
    (ha : a = (d.modBlock b (fun y => { y with version := y.loading, code := y.newCode, newCode := [] })).setBlock b .run)
    (hc : c = (a.count (if x.opcode = 0x0F10 then Ctr.blockResets (b / 16) else Ctr.blockLoads (b / 16))).finishAll x.opcode b 0
      Ocm.ok (a.block b).reply)
    (hgood : c.blockBad b = false) (hkept : x.aborting = false) : d.blockCodeLoaded b true = c := by
  have hdone : (a.count (if x.opcode = 0x0F10 then Ctr.blockResets (b / 16) else Ctr.blockLoads (b / 16))).blockDone x b Ocm.ok
      (a.block b).reply = c := by
    rw [hc, Dev.blockDone, hkept]
    rfl
  simp [Dev.blockCodeLoaded, hx, hst, ← ha, hdone, hgood]

/-- Settles O52: each command by its body, each row of a block by the block's state. -/
theorem engineBlockCommandsComplete : Obligations.EngineBlockCommandsComplete := by
  refine ⟨?dispatch, ?reset, ?load, ?migrationEnd, ?codeLoaded⟩
  case dispatch =>
    intro s b item e a hrun ha hst hitem hengine
    exact answers_actIf (g := fun d => d.blockRuns b) (f := fun d => d.engineDispatch b) rfl hrun
      (Dev.engineDispatch_starts ha hst hitem hengine)
  case reset =>
    rintro s path tag q ptr _ h rfl hlimit hheld
    exact answers_commandRuns rfl h (Dev.blockReset_free hlimit hheld)
  case load =>
    rintro s path tag q ptr _ _ _ h rfl rfl rfl hlimit hheld hfail hwant hothers
    refine answers_startRuns rfl h ?_
    simp only [hfail, Dev.blockLoad_good hlimit hheld hwant hothers]
  case migrationEnd =>
    intro s b a hrun ha hst hidle
    exact answers_actIf (g := fun d => d.regionRuns (b / 16)) (f := fun d => d.blockMigrationEnd b) rfl hrun
      (Dev.blockMigrationEnd_done ha hst hidle)
  case codeLoaded =>
    intro s b x a c hblock hregion hx hst ha hc hgood hkept
    exact answers_actIf (g := fun d => d.blockRuns b && d.regionRuns (b / 16)) (f := fun d => d.blockCodeLoaded b true) rfl
      (by simp [hblock, hregion]) (Dev.blockCodeLoaded_good hx hst ha hc hgood hkept)

/-! ## Regions (R485 to R487) -/

theorem Dev.regionDrain_run {d : Dev} {q : Request} {t : Nat} (ht : t = field q.params 0 4) (hrange : 1 ≤ t ∧ t ≤ 1000000)
    (hst : (d.region q.index).state = .run) :
    d.regionDrain q = (((d.setRState q.index .draining).modRegion q.index (fun x =>
      { x with drainEnd := d.belfryNow q.index + 1000 * t })).relive q.index, .runs q.index 0 []) := by
  have hin : ¬ (field q.params 0 4 = 0 ∨ 1000000 < field q.params 0 4) := by omega
  simp [Dev.regionDrain, hin, hst, ht]

theorem Dev.regionDrained_end {d a : Dev} {r : Nat} (hst : (d.region r).state = .draining)
    (hend : d.emptied r = true ∨ (d.region r).drainEnd ≤ d.belfryNow r)
    (ha : a = (d.setRState r .drained).count (Ctr.regionDrains r)) :
    d.regionDrained r = a.finishAll 0x0F20 r 0 Ocm.ok (leBytes 4 (a.egressLeft r) ++ leBytes 4 (a.unitsLeft r)) := by
  have hover : ¬ (((d.region r).state != .draining || !(d.emptied r || decide ((d.region r).drainEnd ≤ d.belfryNow r))) = true) := by
    rcases hend with h | h <;> simp [hst, h]
  rw [Dev.regionDrained, if_neg hover, ← ha]

/-- A drained region, one that drains, or under FORCE one that runs, is reset. -/
theorem Dev.regionResetCmd_resets {d : Dev} {q : Request} (hst : (d.region q.index).state = .draining ∨
      (d.region q.index).state = .drained ∨ ((d.region q.index).state = .run ∧ bit (byteAt q.params 0) 0 = true)) :
    d.regionResetCmd q = (d.regionReset q.index (bit (byteAt q.params 0) 0), .runs q.index 0 []) := by
  rcases hst with h | h | ⟨h, hforce⟩
  · simp [Dev.regionResetCmd, h]
  · simp [Dev.regionResetCmd, h]
  · simp [Dev.regionResetCmd, h, hforce]

theorem Dev.regionResume_idle {d : Dev} {q : Request} (hst : (d.region q.index).state = .drained ∨ (d.region q.index).state = .ready) :
    d.regionResume q = ((d.setRState q.index .run).relive q.index, .done Ocm.ok []) := by
  rcases hst with h | h <;> simp [Dev.regionResume, h]

/-- Settles O53: each command by the region's state, the ends of a drain and of a reset by theirs. -/
theorem regionResetAndResumeComplete : Obligations.RegionResetAndResumeComplete := by
  refine ⟨?drain, ?drained, ?reset, ?ready, ?resume⟩
  case drain =>
    rintro s path tag q ptr t _ h rfl ht hrange hst
    exact (answers_commandRuns rfl h (Dev.regionDrain_run ht hrange hst)).imp fun d hd => ⟨_, rfl, hd⟩
  case drained =>
    intro s r a hrun hst hend ha
    exact answers_regionRuns (fun d => d.regionDrained r) rfl hrun (Dev.regionDrained_end hst hend ha)
  case reset =>
    rintro s path tag q ptr _ h rfl hst
    exact answers_commandRuns rfl h (Dev.regionResetCmd_resets hst)
  case ready =>
    intro s r bad hrun hst
    refine (answers_actIf (g := fun d => d.belfryRuns r) (f := fun d => d.regionReady r bad) rfl hrun rfl).imp fun d hd => ?_
    refine ⟨hd, _, _, _, _, rfl, rfl, rfl, rfl, hd.trans ?_⟩
    simp only [Dev.regionReady, hst]
    rfl
  case resume =>
    rintro s path tag q ptr _ h rfl hst
    exact answers_command rfl h (Dev.regionResume_idle hst)

end Sys2Proof.Machine
end

section
/-! What the power states' commands, entries and exits do where the conditions of their rules hold (16 R495 to R509). -/

namespace Sys2Proof.Machine

/-! ## Entries (R495) -/

theorem Dev.powerSet_enters {d : Dev} {q : Request} {target : Nat} (ht : target = bits (byteAt q.params 0) 1 0) (hsleep : 2 ≤ target)
    (hmay : d.powerRefused target (bit (byteAt q.params 0) 2) = false) :
    d.powerSet q = (d.sleepAll.modLantern (fun l => { l with entering := some ⟨target, d.lanternNow, none⟩ }), .done Ocm.ok []) := by
  subst ht
  simp [Dev.powerSet, Nat.not_lt.2 hsleep, hmay]

/-- The entry's window opens once every step has parked; an entry to P3 saves the registers first. -/
theorem Dev.windowOpens_entry {d a : Dev} {e : Entry} (he : d.lantern.entering = some e) (hnone : e.window = none)
    (ha : a = d.sleepAll.parkSteps) :
    d.windowOpens = Dev.modLantern
      (if e.target = 3 then a.modLantern (fun l => { l with retained := a.retention, retainValid := true }) else a)
      (fun l => { l with entering := some { e with window := some d.lanternNow } }) := by
  simp [Dev.windowOpens, he, hnone, ← ha]

theorem Dev.windowEnds_entry {d : Dev} {target start w : Nat} (he : d.lantern.entering = some ⟨target, start, some w⟩)
    (hend : w + 320 ≤ d.lanternNow) : d.windowEnds = d.sleepAll.entryEnd target := by
  simp [Dev.windowEnds, he, Nat.not_lt.2 hend]

/-! ## Exits (R503) -/

/-- An exit from P2, or one from P3 whose start-up has brought up the gates, ends in P0. -/
theorem Dev.exitDone_ends {d a : Dev} {f t : Nat} (hexit : d.lantern.exiting = some (f, t)) (hup : f ≠ 3 ∨ d.boot.stage = .running)
    (ha : a = d.modLantern (fun l => { l with state := 0, exiting := none })) :
    d.exitDone = Dev.raise
      (if f = 2 then forEach (List.range 128) (fun p d => if d.portRuns p then d.releaseStored p else d) a else a)
      Isl.lantern (Src.chip 1) (Dev.lantern (if f = 2 then
        forEach (List.range 128) (fun p d => if d.portRuns p then d.releaseStored p else d) a else a)).wakeSrc.primary 0 := by
  have hends : ¬ (f = 3 ∧ d.boot.stage ≠ .running) := by tauto
  simp only [Dev.exitDone, hexit, if_neg hends, ← ha]

/-! ## The link pattern (R509) -/

/-- A port that does not train sends the pattern on its CK lane, and goes on at DETECT or DISABLED. -/
theorem Dev.sendPattern_idle {d b : Dev} {q : Request} {p : Nat} (hp : p = patternPort q.params) (hawake : d.lantern.state < 2)
    (hst : (d.port p).train.state = .disabled ∨ (d.port p).train.state = .detect ∨ (d.port p).train.state = .backoff)
    (hb : b = d.emit (.ckOut p 3)) :
    d.sendPattern q = (if (b.port p).enable && b.mayTrain p then b.toDetect p causeRequest else b.toDisabled p (!(b.port p).enable),
      .done Ocm.ok []) := by
  subst hp hb
  rcases hst with h | h | h <;> simp [Dev.sendPattern, Nat.not_le.2 hawake, h]

/-- Settles O54: each command by its body, an entry and an exit by what the Lantern holds of them. -/
theorem powerStateCommandsComplete : Obligations.PowerStateCommandsComplete := by
  refine ⟨?set, ?windowOpen, ?windowEnd, ?pattern, ?exit, ?config, ?send, ?status⟩
  case set =>
    rintro s path tag q ptr target _ h rfl ht hsleep hmay
    exact answers_command rfl h (Dev.powerSet_enters ht hsleep hmay)
  case windowOpen =>
    intro s e a hrun he hnone ha
    exact answers_lanternRuns Dev.windowOpens rfl hrun (Dev.windowOpens_entry he hnone ha)
  case windowEnd =>
    intro s target start w hrun he hend
    exact answers_lanternRuns Dev.windowEnds rfl hrun (Dev.windowEnds_entry he hend)
  case pattern =>
    intro s p bursts gaps hrun hfits
    exact answers_actIf (g := fun d => d.lanternRuns && isPattern bursts gaps) (f := fun d => d.wake 5 p) rfl (by simp [hrun, hfits]) rfl
  case exit =>
    intro s f t a hrun hexit hup ha
    exact answers_lanternRuns Dev.exitDone rfl hrun (Dev.exitDone_ends hexit hup ha)
  case config =>
    intro s path tag q ptr h hsends
    exact answers_command (commandIf_own h (by simp [hsends])) h rfl
  case send =>
    rintro s path tag q ptr p _ h hsends hp rfl hawake hst
    exact Answers.imp (answers_command (commandIf_own h hsends) h (Dev.sendPattern_idle hp hawake hst rfl)) fun d hd => ⟨_, rfl, hd⟩
  case status =>
    rintro s path tag q ptr _ h rfl
    exact ⟨_, reading_done h rfl, rfl⟩

end Sys2Proof.Machine
end

section
/-! What start-up, attestation, CHIP_RESET, and the flash and image commands do where the conditions of their rules hold (17 R512 to
R530). -/

namespace Sys2Proof.Machine

/-! ## Start-up (R512, R516) -/

/-- A device whose reset is released starts up from what the ROM chooses. -/
theorem State.bootStart_released {s : State} {fails : List Bool} {x : Boot × List (Nat × List Byte)} {a b c : Dev}
    (hst : s.dev.boot.stage = .released) (hx : x = s.chooseBoot fails) (ha : a = Dev.loadRecord { s.dev with boot := x.1 } x.2)
    (hb : b = if a.lantern.retainValid && !x.1.recovery then a.restore else a)
    (hc : c = if x.1.recovery then b.raise Isl.warden (Src.chip 0) 1 0 else b) :
    s.bootStart fails =
      { s with dev := Dev.bringUp (if x.1.configDefault then c.raise Isl.warden (Src.chip 0) 3 0 else c) } := by
  rw [hc, hb, ha, hx]
  exact if_neg fun h => h hst

section
variable {d : Dev} (hrecovery : d.boot.recovery = false) (hloaded : d.boot.engineLoaded = false) (hfail : d.boot.engineFail = false)
  (hwait : d.unloaded ≠ [])
include hrecovery hloaded hfail hwait

/-- The first engine code of a device that waits for it. -/
theorem Dev.engineLoad_open : (d.boot.recovery || d.boot.engineLoaded || d.boot.engineFail || d.unloaded.isEmpty) = false := by
  simp [hrecovery, hloaded, hfail, hwait]

/-- Good engine code reaches every block, and the blocks that wait for it run. -/
theorem Dev.engineLoad_good {a : Dev} {code : List Byte}
    (ha : a = forEach (List.range 64) (fun b e => e.modBlock b (fun x => { x with version := d.boot.version, code := code }))
      { d with boot := { d.boot with engineLoaded := true } }) :
    d.engineLoad code true = forEach a.unloaded (fun b d => d.runLoaded b) a := by
  simp only [Dev.engineLoad, Dev.engineLoad_open hrecovery hloaded hfail hwait, Bool.false_eq_true, if_false, if_true, ← ha]

/-- Without good engine code every block goes OFF. -/
theorem Dev.engineLoad_bad {e : Dev} (code : List Byte) (he : e = forEach (List.range 64) (fun b d => (d.setBlock b .off).moveItems b) d) :
    d.engineLoad code false = Dev.raise { e with boot := { e.boot with engineFail := true } } Isl.warden (Src.chip 0) 2 0 := by
  simp only [Dev.engineLoad, Dev.engineLoad_open hrecovery hloaded hfail hwait, Bool.false_eq_true, if_false, ← he]

end

/-! ## CHIP_RESET (R530) -/

theorem Dev.chipResetCmd_delays {d : Dev} {q : Request} {delay : Nat}
    (hdelay : delay = if field q.params 0 4 = 0 then 100 else field q.params 0 4) (hrange : 100 ≤ delay ∧ delay ≤ 1000000) :
    d.chipResetCmd q = ({ d with boot := { d.boot with resetAt := some (d.wardenNow + 1000 * delay) } }, .done Ocm.ok []) := by
  have hin : ¬ (delay < 100 ∨ 1000000 < delay) := by omega
  simp only [Dev.chipResetCmd, ← hdelay, if_neg hin]

theorem Dev.chipResetDelayEnd_due {d : Dev} {t : Nat} (ht : d.boot.resetAt = some t) (hdue : t ≤ d.wardenNow) :
    d.chipResetDelayEnd = d.resetAll 2 (allRegions.foldl (fun n r => n + (d.region r).cellsUsed) 0) := by
  simp [Dev.chipResetDelayEnd, ht, Nat.not_lt.2 hdue]

/-- Settles O55: start-up from what the ROM chooses, the commands by their bodies, each of ATTEST's two rows by its step. -/
theorem startupAndAttestationComplete : Obligations.StartupAndAttestationComplete := by
  refine ⟨?boot, ?engineCode, ?attestFirst, ?attestNext, ?cert, ?reset, ?resetEnd⟩
  case boot =>
    intro s fails x a b c hst hx ha hb hc
    exact ⟨_, congrArg _ (State.bootStart_released hst hx ha hb hc), rfl⟩
  case engineCode =>
    intro s readFail a hwarden hgates hwait hrecovery hloaded hfail ha
    refine (answers_actIf (g := fun d => d.wardenRuns && d.gatesRun) (f := fun d =>
      d.engineLoad (slotSection s.flash d.boot.slot 32) (!readFail && engineGood s.flash d.boot.slot)) rfl
        (by simp [hwarden, hgates]) rfl).imp fun d hd => ⟨fun hread hgood => ?_, fun hbad => ⟨_, rfl, ?_⟩⟩
    · rw [hd, hread, hgood]
      exact Dev.engineLoad_good hrecovery hloaded hfail hwait ha
    · have hgood : (!readFail && engineGood s.flash s.dev.boot.slot) = false := by rcases hbad with h | h <;> simp [h]
      rw [hd, hgood]
      exact Dev.engineLoad_bad hrecovery hloaded hfail hwait _ rfl
  case attestFirst =>
    intro s path tag q ptr hnone h
    exact ⟨_, congrArg _ ((step_first hnone).trans (start_settles h)), rfl⟩
  case attestNext =>
    rintro s path tag x _ hrun hx hop rfl
    exact ⟨_, congrArg _ (step_next hx hop hrun), rfl⟩
  case cert =>
    intro s path tag q ptr h
    exact ⟨_, reading_done (body := fun _ _ => .done Ocm.ok certBytes) h rfl, rfl⟩
  case reset =>
    rintro s path tag q ptr delay _ h rfl hdelay hrange
    exact answers_command rfl h (Dev.chipResetCmd_delays hdelay hrange)
  case resetEnd =>
    intro s t hrun ht hdue
    exact answers_wardenRuns Dev.chipResetDelayEnd rfl hrun (Dev.chipResetDelayEnd_due ht hdue)

/-! ## The flash commands (R525, R526) -/

theorem State.flashReadCmd_ok {s : State} {q : Request} (hlen : 4 ≤ flashLen q.params ∧ flashLen q.params ≤ 4080 ∧ flashLen q.params % 4 = 0)
    (haddr : flashAddr q.params % 4 = 0 ∧ flashAddr q.params < 2 ^ 26) :
    s.flashReadCmd q = (s, .done Ocm.ok (flashRead s.flash (flashAddr q.params) (flashLen q.params))) :=
  if_pos ⟨decide_eq_true hlen, haddr⟩

theorem State.flashEraseCmd_ok {s : State} {q : Request} (e : Bool) (haddr : flashAddr q.params % 4096 = 0)
    (hlen : 1 ≤ flashLen q.params ∧ flashLen q.params ≤ 16384)
    (hfree : s.dev.boot.protects (flashAddr q.params) (4096 * flashLen q.params) = false) :
    s.flashEraseCmd q e = s.eraseSector (flashAddr q.params) (flashLen q.params) 0 e := by
  have hin : ¬ (flashAddr q.params % 4096 ≠ 0 ∨ flashLen q.params = 0 ∨ 16384 < flashLen q.params) := by omega
  simp [State.flashEraseCmd, if_neg hin, hfree]

theorem State.flashWriteCmd_ok {s : State} {q : Request} (e : Bool)
    (hin : flashAddr q.params % 4 = 0 ∧ flashLen q.params % 4 = 0 ∧ flashLen q.params ≤ 3944 ∧ flashLen q.params ≠ 0)
    (hfree : s.dev.boot.protects (flashAddr q.params) (flashLen q.params) = false) :
    s.flashWriteCmd q e = s.writePage (flashAddr q.params) (sliceBytes q.params 8 (flashLen q.params)) e := by
  obtain ⟨haddr, halign, hmax, hsome⟩ := hin
  simp [State.flashWriteCmd, haddr, halign, Nat.not_lt.2 hmax, hsome, hfree]

/-- The erase of a sector without an error, and what its request does next. -/
theorem State.settle_eraseSector (s : State) (path : Path) (tag a n k : Nat) :
    State.settle path tag (s.eraseSector a n k false) =
      { s with
        dev := Dev.settle path tag (s.dev.emit (.spi 0 (a + 4096 * k) []), if n ≤ k + 1 then .done Ocm.ok [] else .runs (k + 1) 0 [])
        flash := s.flash.filter (fun c => !(a + 4096 * k ≤ c.1 && c.1 < a + 4096 * k + 4096)) } :=
  State.settle_dev { s with flash := _ } path tag (_, _)

/-- The row that starts an erase comes to its first sector. -/
theorem exec_flashErase_first {s : State} {path : Path} {tag : Nat} {q : Request} {ptr : Nat} (hnone : s.dev.warden.exec path tag = none)
    (h : Starts s (Form.fixed 0x1102 8 [] 0) path tag q ptr) (haddr : flashAddr q.params % 4096 = 0)
    (hlen : 1 ≤ flashLen q.params ∧ flashLen q.params ≤ 16384)
    (hfree : (s.dev.started q ptr).boot.protects (flashAddr q.params) (4096 * flashLen q.params) = false) :
    exec (.flashErase path tag false) s = .next (State.settle path tag
      (State.eraseSector { s with dev := s.dev.started q ptr } (flashAddr q.params) (flashLen q.params) 0 false)) := by
  rw [← State.flashEraseCmd_ok false haddr hlen hfree]
  exact congrArg _ ((step_first hnone).trans (start_settles h))

/-- The row that starts a write comes to its first page. -/
theorem exec_flashWrite_first {s : State} {path : Path} {tag : Nat} {q : Request} {ptr : Nat} (hnone : s.dev.warden.exec path tag = none)
    (h : Starts s writeForm path tag q ptr)
    (hin : flashAddr q.params % 4 = 0 ∧ flashLen q.params % 4 = 0 ∧ flashLen q.params ≤ 3944 ∧ flashLen q.params ≠ 0)
    (hfree : (s.dev.started q ptr).boot.protects (flashAddr q.params) (flashLen q.params) = false) :
    exec (.flashWrite path tag false) s = .next (State.settle path tag
      (State.writePage { s with dev := s.dev.started q ptr } (flashAddr q.params) (sliceBytes q.params 8 (flashLen q.params)) false)) := by
  rw [← State.flashWriteCmd_ok false hin hfree]
  exact congrArg _ ((step_first hnone).trans (start_settles h))

/-- The write of a page that reads back as written, and what its request does next. -/
theorem State.settle_writePage {s t : State} {a : Nat} {data page : List Byte} (path : Path) (tag : Nat)
    (hpage : page = data.take (256 - a % 256)) (ht : t = s.program a page) (hread : Sys2Proof.Machine.flashRead t.flash a page.length = page) :
    State.settle path tag (s.writePage a data false) =
      { t with dev := Dev.settle path tag (t.dev, if (data.drop page.length).isEmpty then .done Ocm.ok []
                                                  else .runs (a + page.length) 0 (data.drop page.length)) } := by
  have hwrite : s.writePage a data false = (t, if (data.drop page.length).isEmpty then .done Ocm.ok []
      else .runs (a + page.length) 0 (data.drop page.length)) := by
    simp only [State.writePage, ← hpage, ← ht, hread, bne_self_eq_false]
    rfl
  rw [hwrite]
  exact State.settle_dev t path tag (t.dev, _)

/-! ## IMAGE_ACTIVATE (R527) -/

/-- The row that starts an activation of a good image goes on to the next stage. -/
theorem exec_imageActivate_first {s : State} {path : Path} {tag : Nat} {readFail : Bool} {q : Request} {ptr : Nat}
    (hnone : s.dev.warden.exec path tag = none) (h : Starts s (Form.fixed 0x1104 8 [(3, 63)] 8) path tag q ptr)
    (hgood : imageFail s.flash s.fuses (bits (byteAt q.params 0) 0 0) readFail = 0) :
    exec (.imageActivate path tag readFail) s =
      .next (State.settle path tag ({ s with dev := s.dev.started q ptr }, .runs 0 0 [])) := by
  have hverified : State.imageVerify { s with dev := s.dev.started q ptr } q readFail =
      ({ s with dev := s.dev.started q ptr }, .runs 0 0 []) := by simp only [State.imageVerify, hgood, ne_eq, not_true, if_false]
  change execImageActivate path tag readFail s = _
  rw [execImageActivate, step_first hnone, start_settles h, hverified]

/-- A further row of an activation takes its last stages. -/
theorem exec_imageActivate_next {s : State} {path : Path} {tag : Nat} (readFail : Bool) {x : Exec} (hrun : s.dev.wardenRuns = true)
    (hx : s.dev.warden.exec path tag = some x) (hop : x.opcode = 0x1104) :
    exec (.imageActivate path tag readFail) s = .next (State.settle path tag (s.imageActivate x.req)) :=
  congrArg _ (step_next hx hop hrun)

theorem State.imageActivate_ok {s t : State} {q : Request} {slot : Nat} (hslot : slot = bits (byteAt q.params 0) 0 0)
    (hown : bit (byteAt q.params 0) 2 = false ∨ (s.fuses.ownerFused = false ∧ s.dev.boot.ownerKey.isEmpty = false))
    (ht : t = (s.writeDir slot).burn (bit (byteAt q.params 0) 1) (bit (byteAt q.params 0) 2)) :
    s.imageActivate q = (t, .done Ocm.ok (leBytes 8 t.fuses.status)) := by
  have hmay : ¬ ((bit (byteAt q.params 0) 2 && (s.fuses.ownerFused || s.dev.boot.ownerKey.isEmpty)) = true) := by
    rcases hown with h | ⟨hfused, hkey⟩
    · simp [h]
    · simp [hfused, hkey]
  simp only [State.imageActivate, if_neg hmay, ← hslot, ← ht]

/-- Settles O56: the row that starts a command by its body, a further row by the sector, page or stage that it comes to. -/
theorem flashAndImageCommandsComplete : Obligations.FlashAndImageCommandsComplete := by
  refine ⟨?read, ?eraseFirst, ?eraseNext, ?eraseFails, ?writeFirst, ?writeNext, ?writeFails, ?verify, ?activate⟩
  case read =>
    intro s path tag q ptr h hlen haddr
    exact answers_start rfl h (State.flashReadCmd_ok hlen haddr)
  case eraseFirst =>
    rintro s path tag q ptr _ _ _ hnone h rfl rfl haddr hlen hfree rfl
    refine ⟨_, (exec_flashErase_first hnone h haddr hlen hfree).trans
      (congrArg _ (State.settle_eraseSector _ path tag _ _ 0)), fun hlast => ?_, fun hmore => ?_⟩
    · rw [if_pos (by omega)]; rfl
    · rw [if_neg (by omega)]; rfl
  case eraseNext =>
    rintro s path tag x _ _ _ hrun hx hop rfl rfl rfl
    refine ⟨_, congrArg _ ((step_next hx hop hrun).trans (s.settle_eraseSector path tag _ _ x.a)), fun hlast => ?_, fun hmore => ?_⟩
    · rw [if_pos hlast]; rfl
    · rw [if_neg (Nat.not_le.2 hmore)]; rfl
  case eraseFails =>
    rintro s _ path tag x _ hrun hx hop rfl rfl
    exact congrArg _ (step_next hx hop hrun)
  case writeFirst =>
    rintro s t path tag q ptr _ _ _ page hnone h rfl rfl hin hfree rfl hpage ht hread
    refine ⟨_, (exec_flashWrite_first hnone h hin hfree).trans
      (congrArg _ (State.settle_writePage path tag hpage ht hread)), fun hlast => ?_, fun hmore => ?_⟩
    · rw [if_pos (List.isEmpty_iff.2 hlast)]; rfl
    · rw [if_neg (fun h => hmore (List.isEmpty_iff.1 h))]; rfl
  case writeNext =>
    intro s t path tag x page hrun hx hop hpage ht hread
    refine ⟨_, congrArg _ ((step_next hx hop hrun).trans (State.settle_writePage path tag hpage ht hread)), fun hlast => ?_, fun hmore => ?_⟩
    · rw [if_pos (List.isEmpty_iff.2 hlast)]; rfl
    · rw [if_neg (fun h => hmore (List.isEmpty_iff.1 h))]; rfl
  case writeFails =>
    rintro s _ path tag x hrun hx hop rfl
    exact congrArg _ (step_next hx hop hrun)
  case verify =>
    intro s path tag q ptr hnone h hgood
    exact ⟨_, exec_imageActivate_first hnone h hgood, rfl⟩
  case activate =>
    intro s t path tag readFail x slot hrun hx hop hslot hown ht
    rw [exec_imageActivate_next readFail hrun hx hop, State.imageActivate_ok hslot hown ht]
    rfl

end Sys2Proof.Machine
end

section
/-! What memory errors, the error window and the event commands do where the conditions of their rules hold (18 R533 to R554). -/

namespace Sys2Proof.Machine

/-! ## Corrections and the error window (R533, R537) -/

/-- While the Warden runs, a window that has ended is judged before an error counts. -/
theorem Dev.rise_judged {d : Dev} (r sram hbm : Nat) (hrun : d.wardenRuns = true) :
    d.rise r sram hbm = { d.errorWindowEnd with
      errRise := tput d.errorWindowEnd.errRise r
        ((tgetD d.errorWindowEnd.errRise r (0, 0)).1 + sram, (tgetD d.errorWindowEnd.errRise r (0, 0)).2 + hbm) } := by
  simp only [Dev.rise, if_pos hrun]

/-- The windows that have ended are judged in every region, and the window of the tick begins. -/
theorem Dev.errorWindowEnd_ended {d a : Dev} {n : Nat} (hn : n = (d.wardenNow - d.errStart) / 1000000000) (hended : 1 ≤ n)
    (ha : a = forEach allRegions (fun r d => (d.limitEvent r 4 r (tgetD d.errRise r (0, 0)).1 d.corrLimit).limitEvent r 5 (4 + r)
      (tgetD d.errRise r (0, 0)).2 d.hbmCorrLimit) d) :
    d.errorWindowEnd = { a with errStart := a.errStart + 1000000000 * n, errRise := [] } := by
  simp only [Dev.errorWindowEnd, ← hn, if_neg (Nat.one_le_iff_ne_zero.1 hended), ← ha]

/-! ## Uncorrectable errors and spares (R534, R536) -/

section
variable {d : Dev} {what : ErrData} (hloud : d.silentError what = false)
include hloud

theorem Dev.uncorrectable_chip :
    d.uncorrectable .chip what = ((d.count (dropsCtr .chip)).raise Isl.warden (Src.chip 8) 0 0).dispose what := by
  simp only [Dev.uncorrectable, hloud]
  rfl

theorem Dev.uncorrectable_region (r : Fin 4) (hdata : cellError what = false) :
    d.uncorrectable (.region r) what = ((d.count (dropsCtr (.region r))).raise (Isl.belfry r) (Src.region r 7) 0 0).dispose what := by
  simp only [Dev.uncorrectable, hloud, hdata]
  rfl

theorem Dev.uncorrectable_cell (r : Fin 4) (hcell : cellError what = true) :
    d.uncorrectable (.region r) what = (d.count (dropsCtr (.region r))).dispose what := by
  simp only [Dev.uncorrectable, hloud, hcell]
  rfl

theorem Dev.uncorrectable_block (b : Fin 64) : d.uncorrectable (.block b) what = (d.count (dropsCtr (.block b))).dispose what := by
  simp only [Dev.uncorrectable, hloud]
  rfl

end

theorem Dev.spareCopy_copying {d : Dev} {r : Fin 4} {array bank : Nat} (dropped : List ErrData)
    (hcopies : d.quarantine.copying.contains (r.val, array, bank) = true) :
    d.spareCopy r array bank dropped = (forEach dropped (fun w d => d.uncorrectable (.region r) w) d).modQuarantine (fun z =>
      { z with copying := z.copying.erase (r.val, array, bank) }) := by
  simp only [Dev.spareCopy, hcopies]
  rfl

/-- A correction acts while something of its scope runs. -/
theorem answers_correction {s : State} {scope : ErrScope} {hbm : Bool} {d : Dev} (hrun : s.dev.scopeRuns scope = true)
    (hd : s.dev.corrected scope hbm = d) : Answers (.secdedCorrection scope hbm) s (fun e => e = d) :=
  answers_actIf (g := fun d => d.scopeRuns scope) (f := fun d => d.corrected scope hbm) rfl hrun hd

/-- Settles O57: each correction by its level, each uncorrectable error by its scope, the window by its end. -/
theorem errorEventsComplete : Obligations.ErrorEventsComplete := by
  refine ⟨?correction, ?uncorrectable, ?copy, ?window⟩
  case correction =>
    intro s r hregion hwarden
    refine ⟨?hbm, ?sram, fun hbm => ?chip, fun b hblock hbm => ?block⟩
    case hbm =>
      exact Answers.imp (answers_correction hregion rfl) fun d hd =>
        ⟨_, rfl, hd.trans (Dev.rise_judged (d := s.dev.count (Ctr.hbmCorrected r)) r 0 1 hwarden)⟩
    case sram =>
      exact Answers.imp (answers_correction hregion rfl) fun d hd =>
        ⟨_, rfl, hd.trans (Dev.rise_judged (d := s.dev.count (Ctr.secdedCorrected r)) r 1 0 hwarden)⟩
    case chip => exact answers_correction hwarden (by cases hbm <;> rfl)
    case block =>
      exact Answers.imp (answers_correction hblock (by cases hbm <;> rfl)) fun d hd =>
        ⟨_, rfl, hd.trans (Dev.rise_judged (d := s.dev.count (Ctr.blockSecdedCorrected b)) (b / 16) 1 0 hwarden)⟩
  case uncorrectable =>
    rintro s scope what _ hrun hloud rfl
    refine (answers_actIf (g := fun d => d.scopeRuns scope) (f := fun d => d.uncorrectable scope what) rfl hrun rfl).imp fun d hd => ?_
    refine ⟨?chip, ?region, ?cell, ?block⟩
    case chip => rintro rfl; exact hd.trans (Dev.uncorrectable_chip hloud)
    case region => rintro r rfl hdata; exact hd.trans (Dev.uncorrectable_region hloud r hdata)
    case cell => rintro r rfl hcell; exact hd.trans (Dev.uncorrectable_cell hloud r hcell)
    case block => rintro b rfl; exact hd.trans (Dev.uncorrectable_block hloud b)
  case copy =>
    intro s r array bank dropped hrun hcopies
    exact answers_actIf (g := fun d => d.scopeRuns (.region r)) (f := fun d => d.spareCopy r array bank dropped) rfl hrun
      (Dev.spareCopy_copying dropped hcopies)
  case window =>
    intro s a n hrun hn hended ha
    exact answers_wardenRuns Dev.errorWindowEnd rfl hrun (Dev.errorWindowEnd_ended hn hended ha)

/-! ## Events (R549) -/

theorem Dev.eventRaise_registers {d : Dev} {x : Raise} {rest : List Raise} (hraises : d.raises = x :: rest) :
    d.eventRaise = ((((Dev.count { d with raises := rest } Ctr.eventsRaised).setPending x.source).recordRaise x).refreshSummaries) := by
  simp only [Dev.eventRaise, hraises]

theorem Dev.holdoffEnd_due {d : Dev} {src : Nat} {w : Window} (hw : tget d.events.windows src = some w) (hdue : w.ends ≤ d.wardenNow) :
    d.holdoffEnd src = d.endWindow src true := by
  simp only [Dev.holdoffEnd, hw, if_neg (Nat.not_lt.2 hdue)]

/-! ## The event commands (R553, R554, R539) -/

theorem Dev.eventMapSet_ok {d : Dev} {q : Request} {entries : List (Nat × Nat)}
    (hentries : entries = (List.range (mapCount q.params)).map (fun i => (mapFirst q.params + i, field q.params (8 + 8 * i) 8)))
    (hcount : 1 ≤ mapCount q.params ∧ mapCount q.params ≤ 509) (hlast : mapFirst q.params + mapCount q.params ≤ 1408)
    (hok : entries.all (fun x => d.mapOk x.2) = true) :
    d.eventMapSet q = ((forEach entries (fun x d => d.setMap x.1 x.2) d).refreshSummaries, .done Ocm.ok []) := by
  have hranged : mapSetForm.ranged q.params = true := decide_eq_true hcount
  simp only [Dev.eventMapSet, ← hentries, hranged, hok, decide_eq_false (Nat.not_lt.2 hlast)]
  rfl

theorem Dev.eventMapRead_ok {d : Dev} {q : Request} (hcount : 1 ≤ mapCount q.params ∧ mapCount q.params ≤ 510)
    (hlast : mapFirst q.params + mapCount q.params ≤ 1408) :
    d.eventMapRead q = .done Ocm.ok ((List.range (mapCount q.params)).flatMap (fun i => leBytes 8 (d.evtMap (mapFirst q.params + i)))) := by
  have hranged : mapReadForm.ranged q.params = true := decide_eq_true hcount
  simp only [Dev.eventMapRead, hranged, decide_eq_false (Nat.not_lt.2 hlast)]
  rfl

theorem Dev.eventInject_source {d : Dev} {q : Request} (hsource : Src.reserved (field q.params 0 2) = false) :
    d.eventInject q = ({ d with raises := d.raises ++
      [⟨Isl.warden, field q.params 0 2, field q.params 2 2, field q.params 8 8, d.wardenNow, true⟩] }, .done Ocm.ok []) := by
  simp only [Dev.eventInject, hsource]
  rfl

theorem Dev.quarantineCmd_fits {d : Dev} {q : Request} (hfits : (d.quarantine.reply q.level q.index).length ≤ q.replyMax) :
    d.quarantineCmd q = .done Ocm.ok (d.quarantine.reply q.level q.index) := if_neg (Nat.not_lt.2 hfits)

/-- Settles O58: a raise by what the Warden registers, the commands by their bodies. -/
theorem eventCommandsComplete : Obligations.EventCommandsComplete := by
  refine ⟨?raise, ?holdoff, ?mapSet, ?mapRead, ?inject, ?quarantine⟩
  case raise =>
    intro s x rest hrun hraises
    exact answers_wardenRuns Dev.eventRaise rfl hrun (Dev.eventRaise_registers hraises)
  case holdoff =>
    intro s src w hrun hw hdue
    exact answers_wardenRuns (fun d => d.holdoffEnd src) rfl hrun (Dev.holdoffEnd_due hw hdue)
  case mapSet =>
    rintro s path tag q ptr _ entries h rfl hentries hcount hlast hok
    exact answers_command rfl h (Dev.eventMapSet_ok hentries hcount hlast hok)
  case mapRead =>
    rintro s path tag q ptr _ h rfl hcount hlast
    exact ⟨_, reading_done h (Dev.eventMapRead_ok hcount hlast), rfl⟩
  case inject =>
    rintro s path tag q ptr _ h rfl hsource
    exact answers_command rfl h (Dev.eventInject_source hsource)
  case quarantine =>
    rintro s path tag q ptr _ h rfl hfits
    exact ⟨_, reading_done h (Dev.quarantineCmd_fits hfits), rfl⟩

end Sys2Proof.Machine
end

section
/-! Which functions of the model leave the HBM of every region: all but the writes of BAR4 and of the aperture and the
resets, function by function in the order of the model, so that each lemma cites those of the functions it calls. -/

namespace Sys2Proof.Machine

/-- The HBM of each region. -/
def Dev.hbms (d : Dev) (r : Nat) : List Host.Cell := (d.region r).hbm

theorem Dev.hbms_congr {d e : Dev} (h : e.regions = d.regions) : e.hbms = d.hbms := by
  funext r
  rw [Dev.hbms, Dev.hbms, Dev.region, Dev.region, h]

/-- A device built from the fields of others has the HBM of the one whose regions it has. -/
@[simp] theorem Dev.mk_hbms (d : Dev) (now skews free nextId out counters raises events lantern cages ports chip gates eps warden
    epochs twin blocks boot errCtrl errStart errRise errRaised quarantine) :
    (Dev.mk now skews free nextId out counters raises events lantern cages ports chip d.regions gates eps warden epochs twin blocks boot
      errCtrl errStart errRise errRaised quarantine).hbms = d.hbms := Dev.hbms_congr rfl

@[simp] theorem Dev.ite_hbms (c : Prop) [Decidable c] (a b : Dev) : (if c then a else b).hbms = if c then a.hbms else b.hbms :=
  apply_ite Dev.hbms c a b

theorem Dev.setRegion_hbms_eq (d : Dev) (r : Nat) (x : Region) :
    (d.setRegion r x).hbms = fun q => if q = r then x.hbm else d.hbms q := by
  funext q
  by_cases hq : q = r
  · subst hq; simp [Dev.hbms, Dev.setRegion, Dev.region]
  · simp [Dev.hbms, Dev.setRegion, Dev.region, hq]

/-! ## Named operations -/

theorem Dev.setRegion_hbms {d : Dev} {r : Nat} {x : Region} (h : x.hbm = (d.region r).hbm) : (d.setRegion r x).hbms = d.hbms := by
  rw [Dev.setRegion_hbms_eq]
  funext q
  split
  · next hq => rw [hq, h]; rfl
  · rfl

@[simp] theorem Dev.modRegion_hbms (d : Dev) (r : Nat) {f : Region → Region} (h : ∀ x, (f x).hbm = x.hbm) :
    (d.modRegion r f).hbms = d.hbms := Dev.setRegion_hbms (h _)

@[simp] theorem forEach_hbms {α : Type} (xs : List α) {f : α → Dev → Dev} (h : ∀ a d, (f a d).hbms = d.hbms) (d : Dev) :
    (forEach xs f d).hbms = d.hbms :=
  forEach_keeps (P := fun e => e.hbms = d.hbms) f (fun a e he => (h a e).trans he) xs d rfl

@[simp] theorem Dev.ite_fst_hbms {β : Type} (c : Prop) [Decidable c] (a b : Dev × β) :
    (if c then a else b).1.hbms = if c then a.1.hbms else b.1.hbms := apply_ite (fun x : Dev × β => x.1.hbms) c a b

@[simp] theorem foldl_fst_hbms {α β : Type} (xs : List α) {f : Dev × β → α → Dev × β} (h : ∀ x a, (f x a).1.hbms = x.1.hbms)
    (x : Dev × β) : (xs.foldl f x).1.hbms = x.1.hbms := by
  induction xs generalizing x with
  | nil => rfl
  | cons a xs ih => exact (ih _).trans (h x a)

@[simp] theorem Region.ite_hbm (c : Prop) [Decidable c] (x y : Region) : (if c then x else y).hbm = if c then x.hbm else y.hbm :=
  apply_ite Region.hbm c x y

/-- What a function that answers a device and more leaves of the HBM is what the device that it answers has. -/
theorem Dev.fst_hbms {β : Type} {p : Dev × β} {d : Dev} {b : β} (h : p = (d, b)) : d.hbms = p.1.hbms := by rw [h]

/-! ## Fields of a region other than its HBM -/

@[simp] theorem Region.setCells_hbm (x : Region) (input vc : Nat) (c : Cells) : (x.setCells input vc c).hbm = x.hbm := (rfl)

@[simp] theorem Region.freeCell_hbm (x : Region) (input vc : Nat) : (x.freeCell input vc).hbm = x.hbm := by
  simp [Region.freeCell]

@[simp] theorem Region.freeCells_hbm (x : Region) (input vc n : Nat) : (x.freeCells input vc n).hbm = x.hbm := by
  induction n generalizing x with
  | zero => rfl
  | succ n ih => exact (ih _).trans (x.freeCell_hbm input vc)

@[simp] theorem Region.nameAsk_hbm (x : Region) (input vc id : Nat) : (x.nameAsk input vc id).hbm = x.hbm := (rfl)

@[simp] theorem Region.discardRest_hbm (x : Region) (input vc id : Nat) : (x.discardRest input vc id).hbm = x.hbm := by
  unfold Region.discardRest
  split <;> simp

theorem Region.bindHeader_hbm {x y : Region} {input vc flits id : Nat} (h : x.bindHeader input vc flits id = some y) : y.hbm = x.hbm := by
  simp only [Region.bindHeader] at h
  split at h
  · rw [← Option.some.inj h]
  · split at h
    · exact nomatch h
    · rw [← Option.some.inj h]; simp

@[simp] theorem Region.takePool_hbm (x : Region) (input vc : Nat) : (x.takePool input vc).hbm = x.hbm := (rfl)

@[simp] theorem Region.poolFresh_hbm (x : Region) (now input : Nat) : (x.poolFresh now input).hbm = x.hbm := by
  simp [Region.poolFresh]

theorem Region.takeSkid_hbm {x y : Region} {input vc : Nat} (h : x.takeSkid input vc = some y) : y.hbm = x.hbm := by
  simp only [Region.takeSkid] at h
  split at h
  · rw [← Option.some.inj h]; simp
  · exact nomatch h

@[simp] theorem Region.movePool_hbm (x : Region) (input vc : Nat) : (x.movePool input vc).1.hbm = x.hbm := by
  simp only [Region.movePool]
  split
  · next h => simpa using Region.takeSkid_hbm h
  · simp

@[simp] theorem Region.storeNet_hbm (x : Region) (now input vc : Nat) : (x.storeNet now input vc).region.hbm = x.hbm := by
  have skid {y : Region} (h : y.hbm = x.hbm) : (match y.takeSkid input vc with
      | some z => (⟨z, true, none⟩ : Stored)
      | none => ⟨y, false, none⟩).region.hbm = x.hbm := by
    split
    · next hz => exact (Region.takeSkid_hbm hz).trans h
    · exact h
  have fresh := x.poolFresh_hbm now input
  unfold Region.storeNet
  dsimp only
  split
  · rfl
  · split
    · exact fresh
    · split
      · exact skid fresh
      · split
        · exact skid fresh
        · simp

theorem Region.storeInternal_hbm {x y : Region} {input vc : Nat} (h : x.storeInternal input vc = some y) : y.hbm = x.hbm := by
  simp only [Region.storeInternal] at h
  split at h
  · rw [← Option.some.inj h]; simp
  · split at h
    · rw [← Option.some.inj h]; simp
    · exact nomatch h

@[simp] theorem Region.oneArrived_hbm (x : Region) (k : Nat) (a : Arriving) (stored : Bool) :
    (x.oneArrived k a stored).hbm = x.hbm := (rfl)

@[simp] theorem Region.dropTracker_hbm (x : Region) (id : Nat) : (x.dropTracker id).hbm = x.hbm := (rfl)

@[simp] theorem Dev.countBy_hbms (d : Dev) (n k : Nat) : (d.countBy n k).hbms = d.hbms := Dev.hbms_congr rfl

@[simp] theorem Dev.count_hbms (d : Dev) (n : Nat) : (d.count n).hbms = d.hbms := Dev.hbms_congr rfl

@[simp] theorem Dev.clearCounter_hbms (d : Dev) (n : Nat) : (d.clearCounter n).hbms = d.hbms := Dev.hbms_congr rfl

@[simp] theorem Dev.raise_hbms (d : Dev) (island src code arg : Nat) :
    (d.raise island src code arg).hbms = d.hbms := Dev.hbms_congr rfl

@[simp] theorem Dev.emit_hbms (d : Dev) (o : Output) : (d.emit o).hbms = d.hbms := Dev.hbms_congr rfl

@[simp] theorem Dev.draw_hbms (d : Dev) : d.draw.hbms = d.hbms := Dev.hbms_congr rfl

@[simp] theorem Dev.takeId_hbms (d : Dev) : d.takeId.hbms = d.hbms := Dev.hbms_congr rfl

@[simp] theorem Dev.setPort_hbms (d : Dev) (p : Nat) (x : Port) : (d.setPort p x).hbms = d.hbms := Dev.hbms_congr rfl

@[simp] theorem Dev.modPort_hbms (d : Dev) (p : Nat) (f : Port → Port) : (d.modPort p f).hbms = d.hbms := Dev.hbms_congr rfl

@[simp] theorem Dev.modTrain_hbms (d : Dev) (p : Nat) (f : Train → Train) : (d.modTrain p f).hbms = d.hbms := Dev.hbms_congr rfl

@[simp] theorem Dev.modToll_hbms (d : Dev) (p : Nat) (f : Toll → Toll) : (d.modToll p f).hbms = d.hbms := Dev.hbms_congr rfl

@[simp] theorem Dev.modGate_hbms (d : Dev) (g : Nat) (f : Gate → Gate) : (d.modGate g f).hbms = d.hbms := Dev.hbms_congr rfl

@[simp] theorem Dev.setEp_hbms (d : Dev) (e : Nat) (x : Endpoint) : (d.setEp e x).hbms = d.hbms := Dev.hbms_congr rfl

@[simp] theorem Dev.modEp_hbms (d : Dev) (e : Nat) (f : Endpoint → Endpoint) : (d.modEp e f).hbms = d.hbms := Dev.hbms_congr rfl

@[simp] theorem Dev.modSq_hbms (d : Dev) (e q : Nat) (f : Sq → Sq) : (d.modSq e q f).hbms = d.hbms := Dev.hbms_congr rfl

@[simp] theorem Dev.modCq_hbms (d : Dev) (e q : Nat) (f : Cq → Cq) : (d.modCq e q f).hbms = d.hbms := Dev.hbms_congr rfl

@[simp] theorem Dev.modEq_hbms (d : Dev) (e q : Nat) (f : Cq → Cq) : (d.modEq e q f).hbms = d.hbms := Dev.hbms_congr rfl

@[simp] theorem Dev.modKey_hbms (d : Dev) (e k : Nat) (f : Key → Key) : (d.modKey e k f).hbms = d.hbms := Dev.hbms_congr rfl

@[simp] theorem Dev.modBlock_hbms (d : Dev) (b : Nat) (f : Block → Block) : (d.modBlock b f).hbms = d.hbms := Dev.hbms_congr rfl

@[simp] theorem Dev.modCage_hbms (d : Dev) (c : Nat) (f : Cage → Cage) : (d.modCage c f).hbms = d.hbms := Dev.hbms_congr rfl

@[simp] theorem Dev.modWarden_hbms (d : Dev) (f : Warden → Warden) : (d.modWarden f).hbms = d.hbms := Dev.hbms_congr rfl

@[simp] theorem Dev.modLantern_hbms (d : Dev) (f : Lantern → Lantern) : (d.modLantern f).hbms = d.hbms := Dev.hbms_congr rfl

@[simp] theorem Dev.modTwin_hbms (d : Dev) (f : Twin → Twin) : (d.modTwin f).hbms = d.hbms := Dev.hbms_congr rfl

@[simp] theorem Dev.modLockCell_hbms (d : Dev) (id : Nat) (f : LockCell → LockCell) : (d.modLockCell id f).hbms = d.hbms := by
  simp [Dev.modLockCell]

/-! ## Rails and wakes -/

@[simp] theorem Dev.enableRail_hbms (d : Dev) (g : Rail) : (d.enableRail g).hbms = d.hbms := Dev.hbms_congr rfl

@[simp] theorem Dev.dropCounters_hbms (d : Dev) : d.dropCounters.hbms = d.hbms := Dev.hbms_congr rfl

@[simp] theorem Dev.startRails_hbms (d : Dev) : d.startRails.hbms = d.hbms := by simp [Dev.startRails]

@[simp] theorem Dev.railsOff_hbms (d : Dev) : d.railsOff.hbms = d.hbms := by simp [Dev.railsOff]

@[simp] theorem Dev.dropEnable_hbms (d : Dev) : d.dropEnable.hbms = d.hbms := by
  simp only [Dev.dropEnable]
  split <;> simp

@[simp] theorem Dev.removeRails_hbms (d : Dev) : d.removeRails.hbms = d.hbms := by
  simp only [Dev.removeRails]
  split <;> simp

@[simp] theorem Dev.resetNRelease_hbms (d : Dev) (straps : BitVec 7) : (d.resetNRelease straps).hbms = d.hbms := by
  simp only [Dev.resetNRelease]
  split
  · rfl
  · split <;> simp

@[simp] theorem Dev.powerGoodHigh_hbms (d : Dev) (g : Rail) : (d.powerGoodHigh g).hbms = d.hbms := by
  simp only [Dev.powerGoodHigh]
  split <;> simp

@[simp] theorem Dev.railSettleEnd_hbms (d : Dev) : d.railSettleEnd.hbms = d.hbms := by
  simp only [Dev.railSettleEnd]
  split
  · split
    · rfl
    · split <;> rfl
  · rfl

@[simp] theorem Dev.railRemoveNext_hbms (d : Dev) (pgLow : Bool) : (d.railRemoveNext pgLow).hbms = d.hbms := by
  simp only [Dev.railRemoveNext]
  split <;> simp

@[simp] theorem Dev.sensor_hbms (d : Dev) (r : Nat) (t : ℤ) : (d.sensor r t).hbms = d.hbms := by simp [Dev.sensor]

@[simp] theorem Dev.tjSecond_hbms (d : Dev) : d.tjSecond.hbms = d.hbms := by simp [Dev.tjSecond]

@[simp] theorem Dev.startExit_hbms (d : Dev) (srcs : List (Nat × Nat)) : (d.startExit srcs).hbms = d.hbms := by simp [Dev.startExit]

@[simp] theorem Dev.cancelEntry_hbms (d : Dev) (code loc target : Nat) :
    (d.cancelEntry code loc target).hbms = d.hbms := Dev.hbms_congr rfl

@[simp] theorem Dev.joinWake_hbms (d : Dev) (code loc : Nat) : (d.joinWake code loc).hbms = d.hbms := by simp [Dev.joinWake]

@[simp] theorem Dev.wakeInExit_hbms (d : Dev) (code loc : Nat) : (d.wakeInExit code loc).hbms = d.hbms := by simp [Dev.wakeInExit]

@[simp] theorem Dev.linksToL1_hbms (d : Dev) : d.linksToL1.hbms = d.hbms := by simp [Dev.linksToL1]

/-! ## Live masks and the cells of the Belfry buffer -/

@[simp] theorem Dev.setLive_hbms (d : Dev) (r p : Nat) : (d.setLive r p).hbms = d.hbms := by simp [Dev.setLive]

@[simp] theorem Dev.dropCount_hbms (d : Dev) (r ctr : Nat) (k : Option Nat) : (d.dropCount r ctr k).hbms = d.hbms := by
  simp only [Dev.dropCount]
  split <;> rfl

@[simp] theorem Dev.noRoute_hbms (d : Dev) (r : Nat) : (d.noRoute r).hbms = d.hbms := Dev.hbms_congr rfl

@[simp] theorem Dev.hdrDrop_hbms (d : Dev) (r : Nat) : (d.hdrDrop r).hbms = d.hbms := Dev.hbms_congr rfl

@[simp] theorem Dev.crossingDrop_hbms (d : Dev) (r : Nat) : (d.crossingDrop r).hbms = d.hbms := Dev.hbms_congr rfl

@[simp] theorem Dev.takeIntake_hbms (d : Dev) (r : Nat) (pkt : Packet) : (d.takeIntake r pkt).hbms = d.hbms := by
  simp only [Dev.takeIntake]
  refine Dev.modRegion_hbms _ _ fun x => ?_
  split <;> rfl

@[simp] theorem Dev.leaveBy_hbms (d : Dev) (r p : Nat) (h : Hdr) (entry : Option Nat) : (d.leaveBy r p h entry).1.hbms = d.hbms := by
  simp [Dev.leaveBy]

@[simp] theorem Dev.deliverHop_hbms (d : Dev) (r : Nat) (h : Hdr) : (d.deliverHop r h).1.hbms = d.hbms := by simp [Dev.deliverHop]

@[simp] theorem Dev.directedHop_hbms (d : Dev) (r : Nat) (net : Option Nat) (h : Hdr) : (d.directedHop r net h).1.hbms = d.hbms := by
  simp only [Dev.directedHop]
  split <;> simp

@[simp] theorem Dev.tableHop_hbms (d : Dev) (r : Nat) (net : Option Nat) (h : Hdr) (la : Bool) :
    (d.tableHop r net h la).1.hbms = d.hbms := by
  simp only [Dev.tableHop]
  split
  · rfl
  · split
    · simp
    · split
      · split
        · split <;> simp
        · simp
      · split
        · split <;> simp
        · simp
      · split
        · split <;> simp
        · simp
      · split
        · split <;> simp
        · rfl

@[simp] theorem Dev.hopOf_hbms (d : Dev) (r : Nat) (net : Option Nat) (h : Hdr) (la : Bool) :
    (d.hopOf r net h la).1.hbms = d.hbms := by
  simp [Dev.hopOf]

@[simp] theorem Dev.release_hbms (d : Dev) (r input vc id flits sent : Nat) : (d.release r input vc id flits sent).hbms = d.hbms := by
  simp only [Dev.release]
  split <;> simp

@[simp] theorem Dev.place_hbms (d : Dev) (r : Nat) (w : Waiting) (o : Option (Hop × Hdr)) : (d.place r w o).hbms = d.hbms := by
  simp only [Dev.place]
  split <;> simp

@[simp] theorem Dev.learnEpoch_hbms (d : Dev) (q src epoch : Nat) : (d.learnEpoch q src epoch).hbms = d.hbms := by
  simp only [Dev.learnEpoch, Dev.ite_hbms]
  split <;> simp

@[simp] theorem Dev.deliveryTests_hbms (d : Dev) (q : Nat) (pkt : Packet) : (d.deliveryTests q pkt).1.hbms = d.hbms := by
  simp [Dev.deliveryTests]

@[simp] theorem Dev.placeTested_hbms (d : Dev) (r : Nat) (w : Waiting) (o : Option (Hop × Hdr)) :
    (d.placeTested r w o).hbms = d.hbms := by
  simp only [Dev.placeTested]
  split <;> simp

@[simp] theorem Dev.chooseAgain_hbms (d : Dev) (r : Nat) (w : Waiting) : (d.chooseAgain r w).hbms = d.hbms := by simp [Dev.chooseAgain]

@[simp] theorem Dev.rerouteWaiting_hbms (d : Dev) (r p : Nat) : (d.rerouteWaiting r p).hbms = d.hbms := by simp [Dev.rerouteWaiting]

@[simp] theorem Dev.starve_hbms (d : Dev) (p : Nat) : (d.starve p).hbms = d.hbms := Dev.hbms_congr rfl

@[simp] theorem Dev.starveAll_hbms (d : Dev) : d.starveAll.hbms = d.hbms := by simp [Dev.starveAll]

@[simp] theorem Dev.releaseEgress_hbms (d : Dev) (e : Egress) : (d.releaseEgress e).hbms = d.hbms := by
  simp only [Dev.releaseEgress]
  split <;> simp

@[simp] theorem Dev.pruneEgress_hbms (d : Dev) (p : Nat) : (d.pruneEgress p).hbms = d.hbms := by simp [Dev.pruneEgress]

@[simp] theorem Dev.stompFrom_hbms (d : Dev) (p : Nat) (e : Egress) (n : Nat) : (d.stompFrom p e n).hbms = d.hbms := by
  simp only [Dev.stompFrom]
  split <;> simp

@[simp] theorem Dev.dropWaiting_hbms (d : Dev) (r q id : Nat) (w : Waiting) : (d.dropWaiting r q id w).hbms = d.hbms := by
  simp [Dev.dropWaiting]

@[simp] theorem Dev.disposeTruncated_hbms (d : Dev) (r id : Nat) (kept : Kept) : (d.disposeTruncated r id kept).hbms = d.hbms := by
  simp only [Dev.disposeTruncated]
  split
  · simp
  · split <;> split <;> simp

@[simp] theorem Dev.truncateArriving_hbms (d : Dev) (r input vc lost released : Nat) :
    (d.truncateArriving r input vc lost released).hbms = d.hbms := by
  simp only [Dev.truncateArriving]
  split
  · simp
  · refine (Dev.modRegion_hbms _ _ fun x => ?_).trans ?_
    · rfl
    · split
      · rfl
      · split <;> simp

@[simp] theorem Dev.prune_hbms (d : Dev) (p : Nat) : (d.prune p).hbms = d.hbms := by simp [Dev.prune]

/-! ## Link units held and discarded -/

@[simp] theorem Dev.crossCuts_hbms (d : Dev) (p : Nat) (cs : List Cross) : (d.crossCuts p cs).hbms = d.hbms := by
  fun_induction Dev.crossCuts <;> simp [*]

@[simp] theorem Dev.crossFlit_hbms (d : Dev) (p : Nat) : (d.crossFlit p).hbms = d.hbms := by
  simp only [Dev.crossFlit]
  split <;> simp

@[simp] theorem Dev.truncateRx_hbms (d : Dev) (p : Nat) : (d.truncateRx p).hbms = d.hbms := by simp [Dev.truncateRx]

@[simp] theorem Dev.discardHeld_hbms (d : Dev) (p : Nat) (counted : Bool) : (d.discardHeld p counted).hbms = d.hbms := by
  simp [Dev.discardHeld]

@[simp] theorem Dev.closeLink_hbms (d : Dev) (p : Nat) (counted : Bool) : (d.closeLink p counted).hbms = d.hbms := by
  simp [Dev.closeLink]

@[simp] theorem Dev.countCauses_hbms (d : Dev) (p causes : Nat) : (d.countCauses p causes).hbms = d.hbms := by simp [Dev.countCauses]

@[simp] theorem Dev.leaveUp_hbms (d : Dev) (p asked : Nat) : (d.leaveUp p asked).hbms = d.hbms := by
  simp only [Dev.leaveUp, Dev.ite_hbms]
  split <;> split <;> simp

@[simp] theorem Dev.tollUp_hbms (d : Dev) (p : Nat) : (d.tollUp p).hbms = d.hbms := by simp [Dev.tollUp]

@[simp] theorem Dev.enterOpen_hbms (d : Dev) (p ack : Nat) : (d.enterOpen p ack).hbms = d.hbms := by simp [Dev.enterOpen]

/-! ## Port training -/

@[simp] theorem Dev.retestLanes_hbms (d : Dev) (p : Nat) : (d.retestLanes p).hbms = d.hbms := Dev.hbms_congr rfl

@[simp] theorem Dev.leaveState_hbms (d : Dev) (p causes : Nat) (f : Train → Train) : (d.leaveState p causes f).hbms = d.hbms := by
  simp only [Dev.leaveState]
  split <;> simp

@[simp] theorem Dev.toDetect_hbms (d : Dev) (p causes : Nat) : (d.toDetect p causes).hbms = d.hbms := by simp [Dev.toDetect]

@[simp] theorem Dev.toDisabled_hbms (d : Dev) (p : Nat) (close : Bool) : (d.toDisabled p close).hbms = d.hbms := by
  simp [Dev.toDisabled]

@[simp] theorem Dev.toBackoff_hbms (d : Dev) (p : Nat) (limp : Bool) : (d.toBackoff p limp).hbms = d.hbms := by simp [Dev.toBackoff]

@[simp] theorem Dev.tierFail_hbms (d : Dev) (p tier : Nat) : (d.tierFail p tier).hbms = d.hbms := by simp [Dev.tierFail]

@[simp] theorem Dev.clearExclusions_hbms (d : Dev) (p : Nat) : (d.clearExclusions p).hbms = d.hbms := Dev.hbms_congr rfl

@[simp] theorem Dev.liftExclusions_hbms (d : Dev) (p : Nat) : (d.liftExclusions p).hbms = d.hbms := Dev.hbms_congr rfl

@[simp] theorem Dev.toStep_hbms (d : Dev) (p tier width : Nat) : (d.toStep p tier width).hbms = d.hbms := by simp [Dev.toStep]

@[simp] theorem Dev.sendT0_hbms (d : Dev) (p lane : Nat) (syms : List Sym) : (d.sendT0 p lane syms).hbms = d.hbms := Dev.hbms_congr rfl

@[simp] theorem Dev.sendTraining_hbms (d : Dev) (p : Nat) : (d.sendTraining p).hbms = d.hbms := by simp [Dev.sendTraining]

@[simp] theorem Dev.takeLanes_hbms (d : Dev) (p n : Nat) : (d.takeLanes p n).hbms = d.hbms := Dev.hbms_congr rfl

@[simp] theorem Dev.sendFrame_hbms (d : Dev) (p vc : Nat) (f : Flit) : (d.sendFrame p vc f).hbms = d.hbms := by simp [Dev.sendFrame]

@[simp] theorem Dev.sendWord_hbms (d : Dev) (p : Nat) (lanes : List Nat) (sleep wake : Bool) :
    (d.sendWord p lanes sleep wake).hbms = d.hbms := by
  simp [Dev.sendWord]

@[simp] theorem Dev.sendWords_hbms (d : Dev) (p : Nat) (sleep wake : Bool) (n : Nat) : (d.sendWords p sleep wake n).hbms = d.hbms := by
  fun_induction Dev.sendWords <;> simp [*]

@[simp] theorem Dev.wakeTx_hbms (d : Dev) (p n : Nat) : (d.wakeTx p n).hbms = d.hbms := by simp [Dev.wakeTx]

@[simp] theorem Dev.toRetrain_hbms (d : Dev) (p causes : Nat) (retest : Bool) : (d.toRetrain p causes retest).hbms = d.hbms := by
  simp [Dev.toRetrain]

@[simp] theorem Dev.request_hbms (d : Dev) (p : Nat) : (d.request p).hbms = d.hbms := by simp [Dev.request]

@[simp] theorem Dev.laneFail_hbms (d : Dev) (p l : Nat) : (d.laneFail p l).hbms = d.hbms := by simp [Dev.laneFail]

@[simp] theorem Dev.laneErrorWindow_hbms (d : Dev) (p : Nat) : (d.laneErrorWindow p).hbms = d.hbms := by simp [Dev.laneErrorWindow]

@[simp] theorem Dev.toUp_hbms (d : Dev) (p tier width : Nat) (far : Bool) : (d.toUp p tier width far).hbms = d.hbms := by
  simp [Dev.toUp]

@[simp] theorem Dev.toLimp_hbms (d : Dev) (p width : Nat) : (d.toLimp p width).hbms = d.hbms := by simp [Dev.toLimp]

@[simp] theorem Dev.breakLink_hbms (d : Dev) (p causes : Nat) : (d.breakLink p causes).hbms = d.hbms := by simp [Dev.breakLink]

@[simp] theorem Dev.sleepTx_hbms (d : Dev) (p : Nat) : (d.sleepTx p).hbms = d.hbms := by simp [Dev.sleepTx]

@[simp] theorem Dev.sendSlot_hbms (d : Dev) (p : Nat) : (d.sendSlot p).hbms = d.hbms := by
  simp only [Dev.sendSlot]
  split <;> simp

@[simp] theorem Dev.sendSlots_hbms (d : Dev) (p n : Nat) : (d.sendSlots p n).hbms = d.hbms := by
  fun_induction Dev.sendSlots <;> simp [*]

@[simp] theorem Dev.sendIdle_hbms (d : Dev) (p : Nat) : (d.sendIdle p).hbms = d.hbms := by simp [Dev.sendIdle]

@[simp] theorem Dev.tickPort_hbms (d : Dev) (p : Nat) : (d.tickPort p).hbms = d.hbms := by simp [Dev.tickPort]

@[simp] theorem Dev.portEnable_hbms (d : Dev) (p : Nat) (on : Bool) : (d.portEnable p on).hbms = d.hbms := by simp [Dev.portEnable]

@[simp] theorem Dev.portRetrain_hbms (d : Dev) (p : Nat) : (d.portRetrain p).hbms = d.hbms := by simp [Dev.portRetrain]

@[simp] theorem Dev.startPorts_hbms (d : Dev) (r : Nat) : (d.startPorts r).hbms = d.hbms := by simp [Dev.startPorts]

/-! ## The link layer -/

@[simp] theorem Dev.countCorrected_hbms (d : Dev) (p c : Nat) (es : List (Nat × Nat)) : (d.countCorrected p c es).hbms = d.hbms := by
  simp [Dev.countCorrected]

@[simp] theorem Dev.dueResend_hbms (d : Dev) (p seq ctr : Nat) : (d.dueResend p seq ctr).hbms = d.hbms := by
  simp only [Dev.dueResend]
  split <;> simp

@[simp] theorem Dev.applyControl_hbms (d : Dev) (p : Nat) (c : Control) : (d.applyControl p c).hbms = d.hbms := by
  simp [Dev.applyControl]

@[simp] theorem Dev.releaseFlit_hbms (d : Dev) (p : Nat) (last : Bool) (vc : Nat) (f : Flit) :
    (d.releaseFlit p last vc f).hbms = d.hbms := Dev.hbms_congr rfl

@[simp] theorem Dev.releaseFlits_hbms (d : Dev) (p : Nat) (fs : List (Nat × Flit)) : (d.releaseFlits p fs).hbms = d.hbms := by
  fun_induction Dev.releaseFlits <;> simp [*]

@[simp] theorem Dev.releaseUnits_hbms (n : Nat) (d : Dev) (p : Nat) : (Dev.releaseUnits n d p).hbms = d.hbms := by
  fun_induction Dev.releaseUnits <;> simp +zetaDelta [*]

@[simp] theorem Dev.releaseStored_hbms (d : Dev) (p : Nat) : (d.releaseStored p).hbms = d.hbms := by simp [Dev.releaseStored]

@[simp] theorem Dev.findGaps_hbms (d : Dev) (p s : Nat) : (d.findGaps p s).hbms = d.hbms := Dev.hbms_congr rfl

@[simp] theorem Dev.protocolError_hbms (d : Dev) (p : Nat) : (d.protocolError p).hbms = d.hbms := by simp [Dev.protocolError]

@[simp] theorem Dev.sendSlotBytes_hbms (d : Dev) (p : Nat) (lane : Nat → List Byte) : (d.sendSlotBytes p lane).hbms = d.hbms := by
  simp [Dev.sendSlotBytes]

@[simp] theorem Dev.sendWire_hbms (d : Dev) (p : Nat) (wire : List Byte) : (d.sendWire p wire).hbms = d.hbms := by simp [Dev.sendWire]

@[simp] theorem Dev.sendUnit_hbms (d : Dev) (p : Nat) (resent : Bool) (seq : Nat) (flits : List (Nat × Flit)) :
    (d.sendUnit p resent seq flits).hbms = d.hbms := by
  simp [Dev.sendUnit]

@[simp] theorem Dev.finishBlock_hbms (d : Dev) (p n : Nat) : (d.finishBlock p n).hbms = d.hbms := by
  fun_induction Dev.finishBlock <;> simp [*]

@[simp] theorem Dev.linkUnitSend_hbms (d : Dev) (p : Nat) : (d.linkUnitSend p).hbms = d.hbms := by
  simp only [Dev.linkUnitSend]
  split
  · rfl
  · split <;> simp

@[simp] theorem Dev.resendTimeout_hbms (d : Dev) (p : Nat) : (d.resendTimeout p).hbms = d.hbms := by
  simp only [Dev.resendTimeout]
  split <;> simp

@[simp] theorem Dev.nakRepeat_hbms (d : Dev) (p : Nat) : (d.nakRepeat p).hbms = d.hbms := Dev.hbms_congr rfl

@[simp] theorem Dev.creditTimeoutEnd_hbms (d : Dev) (p : Nat) : (d.creditTimeoutEnd p).hbms = d.hbms := by simp [Dev.creditTimeoutEnd]

@[simp] theorem Dev.replayHoldEnd_hbms (d : Dev) (p : Nat) : (d.replayHoldEnd p).hbms = d.hbms := by
  simp only [Dev.replayHoldEnd]
  split <;> simp

/-! ## Flits, units and the switch -/

@[simp] theorem Dev.headerRegistered_hbms (d : Dev) (r input : Nat) (pkt : Packet) :
    (d.headerRegistered r input pkt).hbms = d.hbms := by
  simp only [Dev.headerRegistered, Dev.ite_hbms]
  split
  · rfl
  · split
    · simp
    · split
      · rfl
      · next h => simp [Dev.setRegion_hbms (Region.bindHeader_hbm h)]

@[simp] theorem Dev.toCopy_hbms (d : Dev) (r : Nat) {f : Dev → Dev} (h : ∀ d, (f d).hbms = d.hbms) : (d.toCopy r f).hbms = d.hbms := by
  simp [Dev.toCopy, h]

@[simp] theorem Dev.liveMaskUpdate_hbms (d : Dev) (r p : Nat) : (d.liveMaskUpdate r p).hbms = d.hbms := by simp [Dev.liveMaskUpdate]

@[simp] theorem Dev.sidebandReport_hbms (d : Dev) (r : Nat) : (d.sidebandReport r).hbms = d.hbms := by simp [Dev.sidebandReport]

@[simp] theorem Dev.skidDrop_hbms (d : Dev) (r input vc : Nat) : (d.skidDrop r input vc).hbms = d.hbms := by simp [Dev.skidDrop]

@[simp] theorem Dev.unstore_hbms (d : Dev) (r input vc : Nat) (id : Option Nat) : (d.unstore r input vc id).hbms = d.hbms := by
  simp only [Dev.unstore]
  split
  · exact Dev.setRegion_hbms rfl
  · rfl

@[simp] theorem Dev.countSkid_hbms (d : Dev) (r input was : Nat) : (d.countSkid r input was).hbms = d.hbms := by simp [Dev.countSkid]

@[simp] theorem Dev.flitStore_hbms (d : Dev) (p vc : Nat) (flit : Flit) : (d.flitStore p vc flit).hbms = d.hbms := by
  simp only [Dev.flitStore, Dev.ite_hbms]
  split
  · simp
  · split <;> simp [Dev.setRegion_hbms]

@[simp] theorem Dev.handUnit_hbms (d : Dev) (r q y : Nat) (pkt : Packet) : (d.handUnit r q y pkt).hbms = d.hbms := by
  simp [Dev.handUnit]

@[simp] theorem Dev.stampCrossed_hbms (d : Dev) (r : Nat) (c : Crossing) : (d.stampCrossed r c).hbms = d.hbms := by
  simp only [Dev.stampCrossed]
  split <;> rfl

@[simp] theorem Dev.crossButtress_hbms (d : Dev) (r : Nat) (c : Crossing) : (d.crossButtress r c).hbms = d.hbms := by
  simp only [Dev.crossButtress]
  split <;> simp

@[simp] theorem Dev.acceptFlit_hbms (d : Dev) (r input vc : Nat) (fits : Region → Nat → Nat → Bool) {store : Region → Region}
    (h : ∀ x, (store x).hbm = x.hbm) : (d.acceptFlit r input vc fits store).hbms = d.hbms := by
  simp only [Dev.acceptFlit, Dev.ite_hbms]
  split
  · split <;> simp [h]
  · split <;> simp [h]

@[simp] theorem Dev.internalAccept_hbms (d : Dev) (r input vc : Nat) : (d.internalAccept r input vc).hbms = d.hbms := by
  have store (x : Region) : ((x.storeInternal input vc).getD x).hbm = x.hbm := by
    cases h : x.storeInternal input vc with
    | none => rfl
    | some y => exact Region.storeInternal_hbm h
  simp only [Dev.internalAccept, Dev.ite_hbms]
  split
  · rfl
  · split <;> simp [store]

@[simp] theorem Dev.poolServeBut_hbms (d : Dev) (r : Nat) (passed : List (Nat × Nat × Nat)) (n : Nat) :
    (d.poolServeBut r passed n).hbms = d.hbms := by
  fun_induction Dev.poolServeBut <;> simp +zetaDelta [*]

@[simp] theorem Dev.poolServe_hbms (d : Dev) (r n : Nat) : (d.poolServe r n).hbms = d.hbms := by simp [Dev.poolServe]

@[simp] theorem Dev.goUpdate_hbms (d : Dev) (r : Nat) : (d.goUpdate r).hbms = d.hbms := by simp [Dev.goUpdate]

@[simp] theorem Dev.mark_hbms (d : Dev) (r : Nat) (w : Waiting) : (d.mark r w).1.hbms = d.hbms := by simp [Dev.mark]

@[simp] theorem Dev.deliverUnit_hbms (d : Dev) (r x : Nat) (w : Waiting) (pkt : Packet) : (d.deliverUnit r x w pkt).hbms = d.hbms := by
  simp [Dev.deliverUnit]

@[simp] theorem Dev.grantOutput_hbms (d : Dev) (r output : Nat) (w : Waiting) : (d.grantOutput r output w).hbms = d.hbms := by
  simp only [Dev.grantOutput]
  split
  · split <;> simp
  · split
    · simp
    · split <;> simp

@[simp] theorem Dev.switchAllocation_hbms (d : Dev) (r output : Nat) : (d.switchAllocation r output).hbms = d.hbms := by
  simp only [Dev.switchAllocation]
  split
  · rfl
  · split <;> simp

@[simp] theorem Dev.noteTransit_hbms (d : Dev) (p : Nat) (e : Egress) : (d.noteTransit p e).hbms = d.hbms := by
  simp only [Dev.noteTransit]
  split <;> simp

@[simp] theorem Dev.handFlit_hbms (d : Dev) (p : Nat) (e : Egress) : (d.handFlit p e).hbms = d.hbms := by simp [Dev.handFlit]

@[simp] theorem Dev.egressSelect_hbms (d : Dev) (p : Nat) : (d.egressSelect p).hbms = d.hbms := by
  simp only [Dev.egressSelect]
  split
  · rfl
  · split <;> simp

@[simp] theorem Dev.mgmtHoldExpiry_hbms (d : Dev) (r id : Nat) : (d.mgmtHoldExpiry r id).hbms = d.hbms := by
  simp only [Dev.mgmtHoldExpiry]
  split <;> simp

/-! ## Lanes and bring-up -/

@[simp] theorem Dev.ckSeen_hbms (d : Dev) (p : Nat) : (d.ckSeen p).hbms = d.hbms := Dev.hbms_congr rfl

@[simp] theorem Dev.ckDetected_hbms (d : Dev) (p : Nat) : (d.ckDetected p).hbms = d.hbms := by simp [Dev.ckDetected]

@[simp] theorem Dev.trainingTimeout_hbms (d : Dev) (p : Nat) : (d.trainingTimeout p).hbms = d.hbms := by
  simp only [Dev.trainingTimeout]
  split
  · rfl
  · split <;> simp

@[simp] theorem Dev.backoffEnd_hbms (d : Dev) (p : Nat) : (d.backoffEnd p).hbms = d.hbms := by simp [Dev.backoffEnd]

@[simp] theorem Dev.breakAgain_hbms (d : Dev) (p cause : Nat) : (d.breakAgain p cause).hbms = d.hbms := by simp [Dev.breakAgain]

@[simp] theorem Dev.ckLoss_hbms (d : Dev) (p last : Nat) : (d.ckLoss p last).hbms = d.hbms := by simp [Dev.ckLoss]

@[simp] theorem Dev.receiveSet_hbms (d : Dev) (p lane : Nat) (groups : Groups) : (d.receiveSet p lane groups).1.hbms = d.hbms := by
  simp [Dev.receiveSet]

@[simp] theorem Dev.learnPeer_hbms (d : Dev) (p serial port : Nat) : (d.learnPeer p serial port).hbms = d.hbms := by
  simp [Dev.learnPeer]

@[simp] theorem Dev.agree_hbms (d : Dev) (p : Nat) : (d.agree p).hbms = d.hbms := by
  simp only [Dev.agree]
  split
  · rfl
  · split <;> simp

@[simp] theorem Dev.ts1Received_hbms (d : Dev) (p lane : Nat) (groups : Groups) : (d.ts1Received p lane groups).hbms = d.hbms := by
  simp only [Dev.ts1Received, Dev.ite_hbms]
  split
  · simp
  · split <;> simp

@[simp] theorem Dev.ts2Received_hbms (d : Dev) (p lane : Nat) (groups : Groups) : (d.ts2Received p lane groups).hbms = d.hbms := by
  simp only [Dev.ts2Received]
  split <;> simp

@[simp] theorem Dev.toConfig_hbms (d : Dev) (p : Nat) : (d.toConfig p).hbms = d.hbms := Dev.hbms_congr rfl

@[simp] theorem Dev.countdownEnd_hbms (d : Dev) (p : Nat) : (d.countdownEnd p).hbms = d.hbms := by
  simp only [Dev.countdownEnd]
  split
  · rfl
  · split
    · rfl
    · split <;> simp

@[simp] theorem Dev.phaseAcquired_hbms (d : Dev) (p : Nat) : (d.phaseAcquired p).hbms = d.hbms := by simp [Dev.phaseAcquired]

@[simp] theorem Dev.agreeWord_hbms (d : Dev) (p : Nat) : (d.agreeWord p).hbms = d.hbms := by
  simp only [Dev.agreeWord]
  split
  · rfl
  · split <;> simp

@[simp] theorem Dev.joinRetest_hbms (d : Dev) (p : Nat) : (d.joinRetest p).hbms = d.hbms := by simp [Dev.joinRetest]

@[simp] theorem Dev.wordTraining_hbms (d : Dev) (p lane : Nat) (w : List Byte) : (d.wordTraining p lane w).hbms = d.hbms := by
  simp [Dev.wordTraining]

@[simp] theorem Dev.wordWake_hbms (d : Dev) (p lane : Nat) : (d.wordWake p lane).hbms = d.hbms := Dev.hbms_congr rfl

@[simp] theorem Dev.wordUp_hbms (d : Dev) (p lane : Nat) (w : List Byte) : (d.wordUp p lane w).hbms = d.hbms := by simp [Dev.wordUp]

@[simp] theorem Dev.trainingWordReceived_hbms (d : Dev) (p lane : Nat) (w : List Byte) :
    (d.trainingWordReceived p lane w).hbms = d.hbms := by
  simp only [Dev.trainingWordReceived]
  split <;> simp

@[simp] theorem Dev.lanePhaseFail_hbms (d : Dev) (p lane : Nat) : (d.lanePhaseFail p lane).hbms = d.hbms := by simp [Dev.lanePhaseFail]

@[simp] theorem Dev.txSleepEntry_hbms (d : Dev) (p : Nat) : (d.txSleepEntry p).hbms = d.hbms := by simp [Dev.txSleepEntry]

@[simp] theorem Dev.txWake_hbms (d : Dev) (p : Nat) : (d.txWake p).hbms = d.hbms := by simp [Dev.txWake]

@[simp] theorem Dev.ckBeaconEnd_hbms (d : Dev) (p : Nat) : (d.ckBeaconEnd p).hbms = d.hbms := Dev.hbms_congr rfl

@[simp] theorem Dev.wakeFail_hbms (d : Dev) (p : Nat) : (d.wakeFail p).hbms = d.hbms := by
  simp only [Dev.wakeFail]
  split <;> simp

@[simp] theorem Dev.sleepRefresh_hbms (d : Dev) (p : Nat) : (d.sleepRefresh p).hbms = d.hbms := by simp [Dev.sleepRefresh]

@[simp] theorem Dev.decodeLanes_hbms (d : Dev) (p : Nat) (ls : List Nat) (gs : List Groups) :
    (d.decodeLanes p ls gs).1.hbms = d.hbms := by
  fun_induction Dev.decodeLanes <;> simp +zetaDelta [*]

@[simp] theorem Dev.limpFrameReceived_hbms (d : Dev) (p : Nat) (lanes : List Groups) :
    (d.limpFrameReceived p lanes).hbms = d.hbms := by
  simp only [Dev.limpFrameReceived]
  split
  · rfl
  · split <;> simp

@[simp] theorem Dev.fcReceived_hbms (d : Dev) (p lane : Nat) (groups : Groups) : (d.fcReceived p lane groups).hbms = d.hbms := by
  simp only [Dev.fcReceived, Dev.ite_hbms]
  split
  · simp
  · split <;> simp

@[simp] theorem Dev.limpFcSend_hbms (d : Dev) (p : Nat) : (d.limpFcSend p).hbms = d.hbms := by simp [Dev.limpFcSend]

@[simp] theorem Dev.limpRetry_hbms (d : Dev) (p : Nat) : (d.limpRetry p).hbms = d.hbms := by simp [Dev.limpRetry]

/-! ## Gatehouse's upstream requests and interrupts -/

@[simp] theorem Dev.touchEp_hbms (d : Dev) (e : Nat) : (d.touchEp e).hbms = d.hbms := Dev.hbms_congr rfl

@[simp] theorem Dev.sendData_hbms (d : Dev) (e : Nat) (data : Option (List Byte)) :
    (d.sendData e data).hbms = d.hbms := Dev.hbms_congr rfl

@[simp] theorem Dev.sendUr_hbms (d : Dev) (e : Nat) : (d.sendUr e).hbms = d.hbms := Dev.hbms_congr rfl

@[simp] theorem Dev.issueWant_hbms (d : Dev) (e t : Nat) (w : WantTag) : (d.issueWant e t w).hbms = d.hbms := by
  simp only [Dev.issueWant]
  split <;> rfl

@[simp] theorem Dev.request2_hbms (d : Dev) (e : Nat) (w : WantTag) : (d.request2 e w).hbms = d.hbms := by
  simp only [Dev.request2]
  split
  · rfl
  · split <;> simp

@[simp] theorem Dev.startRead_hbms (d : Dev) (e : Nat) (use : Use) (who : Who) (space : Option (Nat × Option Nat)) (ps : List (Nat × Nat)) :
    (d.startRead e use who space ps).hbms = d.hbms := by
  simp only [Dev.startRead]
  split
  · rfl
  · split <;> simp

@[simp] theorem Dev.startAtomic_hbms (d : Dev) (e : Nat) (who : Who) (space : Option (Nat × Option Nat)) (op : HostOp)
    (width addr v c : Nat) :
    (d.startAtomic e who space op width addr v c).hbms = d.hbms := by
  simp [Dev.startAtomic]

@[simp] theorem Dev.serveWants_hbms (n : Nat) (d : Dev) (e : Nat) : (Dev.serveWants n d e).hbms = d.hbms := by
  fun_induction Dev.serveWants <;> simp_all

@[simp] theorem Dev.freeTag_hbms (d : Dev) (e t : Nat) : (d.freeTag e t).hbms = d.hbms := by simp [Dev.freeTag]

@[simp] theorem Dev.reportRes_hbms (d : Dev) (e : Nat) (res : HostRes) : (d.reportRes e res).hbms = d.hbms := by
  simp only [Dev.reportRes]
  split <;> rfl

@[simp] theorem Dev.hostWrite_hbms (d : Dev) (e addr : Nat) (data : List Byte) (payload : Bool) (use : Use) :
    (d.hostWrite e addr data payload use).hbms = d.hbms := by
  simp [Dev.hostWrite]

@[simp] theorem Dev.sendVector_hbms (d : Dev) (e v : Nat) : (d.sendVector e v).hbms = d.hbms := by simp [Dev.sendVector]

@[simp] theorem Dev.flushVectors_hbms (d : Dev) (e : Nat) : (d.flushVectors e).hbms = d.hbms := by simp [Dev.flushVectors]

@[simp] theorem Dev.syncInta_hbms (d : Dev) (e : Nat) : (d.syncInta e).hbms = d.hbms := by simp [Dev.syncInta]

@[simp] theorem Dev.wakeCondition_hbms (d : Dev) (e : Nat) : (d.wakeCondition e).hbms = d.hbms := by simp [Dev.wakeCondition]

@[simp] theorem Dev.refreshSummary_hbms (d : Dev) (e : Nat) : (d.refreshSummary e).hbms = d.hbms := by simp [Dev.refreshSummary]

@[simp] theorem Dev.refreshSummaries_hbms (d : Dev) : d.refreshSummaries.hbms = d.hbms := by simp [Dev.refreshSummaries]

/-! ## Completion and event records -/

@[simp] theorem Dev.fireCq_hbms (d : Dev) (e c : Nat) : (d.fireCq e c).hbms = d.hbms := by simp [Dev.fireCq]

@[simp] theorem Dev.fireEq_hbms (d : Dev) (e k : Nat) : (d.fireEq e k).hbms = d.hbms := by simp [Dev.fireEq]

@[simp] theorem Dev.cqWrite_hbms (d : Dev) (e c : Nat) (b : List Byte) : (d.cqWrite e c b).hbms = d.hbms := by simp [Dev.cqWrite]

@[simp] theorem Dev.cqRelease_hbms (d : Dev) (e c : Nat) : (d.cqRelease e c).hbms = d.hbms := Dev.hbms_congr rfl

@[simp] theorem Dev.eqPut_hbms (d : Dev) (e k : Nat) (b : List Byte) : (d.eqPut e k b).hbms = d.hbms := by simp [Dev.eqPut]

@[simp] theorem Dev.eqRecord_hbms (d : Dev) (e k : Nat) (b : List Byte) (counted : Bool) :
    (d.eqRecord e k b counted).hbms = d.hbms := by
  simp [Dev.eqRecord]

@[simp] theorem Dev.haltQueue_hbms (d : Dev) (e q : Nat) : (d.haltQueue e q).hbms = d.hbms := by simp [Dev.haltQueue]

@[simp] theorem Dev.complete_hbms (d : Dev) (e q id : Nat) (f : Fin8) : (d.complete e q id f).hbms = d.hbms := by
  simp only [Dev.complete]
  split <;> simp

@[simp] theorem Dev.haltQueues_hbms (d : Dev) (e : Nat) (p : Nat → Bool) : (d.haltQueues e p).1.hbms = d.hbms := by
  simp [Dev.haltQueues]

/-! ## What the units inject -/

@[simp] theorem Dev.send_hbms (d : Dev) (r x : Nat) (h : Hdr) (payload : List Byte) : (d.send r x h payload).hbms = d.hbms := by
  simp [Dev.send]

@[simp] theorem Dev.countSent_hbms (d : Dev) (ctr : Nat) : (d.countSent ctr).hbms = d.hbms := by simp [Dev.countSent]

@[simp] theorem Dev.sendEp_hbms (d : Dev) (e : Nat) (h : Hdr) (payload : List Byte) : (d.sendEp e h payload).hbms = d.hbms := by
  simp [Dev.sendEp]

@[simp] theorem Dev.refuse_hbms (d : Dev) (e : Nat) (p : Packet) (status detail : Nat) :
    (d.refuse e p status detail).hbms = d.hbms := by
  simp [Dev.refuse]

@[simp] theorem Dev.refuseGate_hbms (d : Dev) (e : Nat) (p : Packet) (status detail : Nat) :
    (d.refuseGate e p status detail).hbms = d.hbms := by
  simp [Dev.refuseGate]

@[simp] theorem Dev.retryLater_hbms (d : Dev) (e : Nat) (p : Packet) : (d.retryLater e p).hbms = d.hbms := by simp [Dev.retryLater]

/-! ## Surveyor's translation -/

@[simp] theorem Dev.evictAt_hbms (d : Dev) (es : List Nat) (n : Nat) : (d.evictAt es n).hbms = d.hbms := by
  fun_induction Dev.evictAt <;> simp_all

@[simp] theorem Dev.fill_hbms (d : Dev) (e pasid : Nat) (w : Cached) : (d.fill e pasid w).hbms = d.hbms := by simp [Dev.fill]

@[simp] theorem Dev.cached_hbms {α : Type} (d : Dev) (e : Nat) (p : CacheEntry → Option α) : (d.cached e p).1.hbms = d.hbms := by
  simp only [Dev.cached]
  split <;> simp

@[simp] theorem Dev.leafNow_hbms (d : Dev) (e pasid va : Nat) (key : Option Nat) : (d.leafNow e pasid va key).1.hbms = d.hbms := by
  simp [Dev.leafNow]

@[simp] theorem Dev.walkFill_hbms (d : Dev) (e : Nat) (w : Walk) (c : Option Cached) : (d.walkFill e w c).hbms = d.hbms := by
  simp only [Dev.walkFill]
  split <;> simp

@[simp] theorem Dev.walkOn_hbms (n : Nat) (d : Dev) (e id : Nat) (w : Walk) : (Dev.walkOn n d e id w).1.hbms = d.hbms := by
  induction n generalizing d w with
  | zero => rfl
  | succ n ih =>
    simp only [Dev.walkOn]
    split
    · next h => split <;> simp [ih, Dev.fst_hbms h]
    · next h => simp [Dev.fst_hbms h]

@[simp] theorem Dev.countFault_hbms (d : Dev) (e : Nat) (u : Option Found) : (d.countFault e u).hbms = d.hbms := by
  simp only [Dev.countFault]
  split <;> rfl

@[simp] theorem Dev.dropFault_hbms (d : Dev) (e : Nat) (u : Option Found) : (d.dropFault e u).hbms = d.hbms := by
  simp only [Dev.dropFault]
  split <;> rfl

@[simp] theorem Dev.startWalk_hbms (d : Dev) (e : Nat) (who : Who) (pasid va : Nat) (kind : Kind) (user : Bool) (key : Option Nat) :
    (d.startWalk e who pasid va kind user key).1.hbms = d.hbms := by
  simp [Dev.startWalk]

@[simp] theorem Dev.translate_hbms (d : Dev) (e : Nat) (who : Who) (pasid va : Nat) (kind : Kind) (user : Bool) (key : Option Nat) :
    (d.translate e who pasid va kind user key).1.hbms = d.hbms := by
  simp only [Dev.translate]
  split
  · rfl
  · split <;> next h => simp [Dev.fst_hbms h]

@[simp] theorem Dev.speculate_hbms (d : Dev) (e pasid va len rem : Nat) (kind : Kind) (user : Bool) (key : Option Nat) :
    (d.speculate e pasid va len rem kind user key).hbms = d.hbms := by
  simp [Dev.speculate]

@[simp] theorem Dev.walkRead_hbms (d : Dev) (e id : Nat) (res : HostRes) : (d.walkRead e id res).1.hbms = d.hbms := by
  simp only [Dev.walkRead]
  split
  · rfl
  · split
    · split
      · rfl
      · split <;> simp
    · split
      · rfl
      · split <;> simp

@[simp] theorem Dev.addGrant_hbms (d : Dev) (e walk : Nat) (who : Who) (pasid va : Nat) (f : Found) :
    (d.addGrant e walk who pasid va f).hbms = d.hbms := Dev.hbms_congr rfl

@[simp] theorem Dev.dropGrants_hbms (d : Dev) (e : Nat) (p : Who → Bool) : (d.dropGrants e p).hbms = d.hbms := Dev.hbms_congr rfl

@[simp] theorem Dev.forsake_hbms (d : Dev) (e : Nat) (p : Who → Bool) : (d.forsake e p).hbms = d.hbms := Dev.hbms_congr rfl

@[simp] theorem Dev.useGrants_hbms (d : Dev) (e : Nat) (who : Who) (new : Nat) :
    (d.useGrants e who new).hbms = d.hbms := Dev.hbms_congr rfl

@[simp] theorem Dev.findPages_hbms (e : Nat) (who : Who) (pasid : Nat) (user : Bool) (kind : Kind) (d : Dev)
    (ps : List (Nat × Nat)) (got : List (Nat × Nat × Bool)) : (Dev.findPages e who pasid user kind d ps got).1.hbms = d.hbms := by
  induction ps generalizing d got with
  | nil => rfl
  | cons p ps ih =>
    simp only [Dev.findPages]
    split
    · simp
    · exact ih d _
    · split <;> next h => simp [ih, Dev.fst_hbms h]

@[simp] theorem Dev.needPages_hbms (d : Dev) (e : Nat) (who : Who) (pasid : Nat) (user : Bool) (kind : Kind) (rem : Nat)
    (ps : List (Nat × Nat)) :
    (d.needPages e who pasid user kind rem ps).1.hbms = d.hbms := by
  simp only [Dev.needPages]
  split
  · next h => simp [Dev.fst_hbms h]
  · simp

/-! ## Writes to virtual addresses -/

@[simp] theorem Dev.modMatch_hbms (d : Dev) (e id : Nat) (f : Match → Match) : (d.modMatch e id f).hbms = d.hbms := Dev.hbms_congr rfl

@[simp] theorem Dev.modPosting_hbms (d : Dev) (r tree child number : Nat) (f : Posting → Posting) :
    (d.modPosting r tree child number f).hbms = d.hbms := by
  simp [Dev.modPosting]

@[simp] theorem Dev.modCmd_hbms (d : Dev) (e q entry : Nat) (f : Cmd → Cmd) :
    (d.modCmd e q entry f).hbms = d.hbms := Dev.hbms_congr rfl

@[simp] theorem Dev.onPlace_hbms (d : Dev) (e va : Nat) (o : PlaceFor) (src : Option Packet) (v : PlaceEvent) :
    (d.onPlace e va o src v).hbms = d.hbms := by
  simp only [Dev.onPlace]
  split
  · split <;> simp
  · simp
  · rfl

@[simp] theorem Dev.placeEnd_hbms (d : Dev) (e : Nat) (p : Place) (f : Found) : (d.placeEnd e p f).hbms = d.hbms := by
  simp only [Dev.placeEnd]
  split
  · simp
  · split <;> simp

@[simp] theorem Dev.placePage_hbms (d : Dev) (e : Nat) (p : Place) : (d.placePage e p).hbms = d.hbms := by
  simp only [Dev.placePage]
  split <;> next h => simp [Dev.fst_hbms h]

@[simp] theorem Dev.placeAll_hbms (d : Dev) (e pasid : Nat) (user : Bool) (va : Nat) (data : List Byte) (rem : Nat) (use : Use)
    (owner : PlaceFor) (src : Option Packet) :
    (d.placeAll e pasid user va data rem use owner src).hbms = d.hbms := by
  simp [Dev.placeAll]

@[simp] theorem Dev.placeFound_hbms (d : Dev) (e id : Nat) (f : Found) : (d.placeFound e id f).1.hbms = d.hbms := by
  simp only [Dev.placeFound]
  split <;> simp

/-! ## The match store -/

@[simp] theorem Dev.unlink_hbms (d : Dev) (e : Nat) (p : Nat → Bool) : (d.unlink e p).hbms = d.hbms := by simp [Dev.unlink]

@[simp] theorem Dev.link_hbms (d : Dev) (e id : Nat) (m : Match) : (d.link e id m).hbms = d.hbms := by simp [Dev.link]

@[simp] theorem Dev.putMatch_hbms (d : Dev) (e id : Nat) (m : Match) : (d.putMatch e id m).hbms = d.hbms := by simp [Dev.putMatch]

@[simp] theorem Dev.freeMatches_hbms (d : Dev) (e : Nat) (p : Nat × Match → Bool) : (d.freeMatches e p).hbms = d.hbms := by
  simp [Dev.freeMatches]

@[simp] theorem Dev.freeMatch_hbms (d : Dev) (e id : Nat) : (d.freeMatch e id).hbms = d.hbms := by simp [Dev.freeMatch]

/-! ## Connections -/

@[simp] theorem Dev.modConn_hbms (d : Dev) (r id : Nat) (f : Conn → Conn) : (d.modConn r id f).hbms = d.hbms := by simp [Dev.modConn]

@[simp] theorem Dev.takeConn_hbms (d : Dev) (e localFen peer cls : Nat) : (d.takeConn e localFen peer cls).1.hbms = d.hbms := by
  simp only [Dev.takeConn]
  split
  · simp
  · split
    · simp
    · split <;> simp

/-! ## Engine work items -/

@[simp] theorem Dev.sweepItems_hbms (d : Dev) (b : Nat) : (d.sweepItems b).hbms = d.hbms := Dev.hbms_congr rfl

@[simp] theorem Dev.queueItem_hbms (d : Dev) (r : Nat) (i : Item) : (d.queueItem r i).hbms = d.hbms := by
  simp only [Dev.queueItem]
  split <;> rfl

@[simp] theorem Dev.parkItem_hbms (d : Dev) (r id : Nat) : (d.parkItem r id).hbms = d.hbms := by simp [Dev.parkItem]

@[simp] theorem Dev.feedPull_hbms (d : Dev) (r : Nat) : (d.feedPull r).hbms = d.hbms := by
  simp only [Dev.feedPull]
  split <;> simp

@[simp] theorem Dev.stepEnd_hbms (d : Dev) (r id : Nat) : (d.stepEnd r id).hbms = d.hbms := by simp [Dev.stepEnd]

@[simp] theorem Dev.dispatchItem_hbms (d : Dev) (b : Nat) : (d.dispatchItem b).1.hbms = d.hbms := by
  simp only [Dev.dispatchItem]
  split
  · rfl
  · split <;> rfl

@[simp] theorem Dev.setBlock_hbms (d : Dev) (b : Nat) (st : BState) : (d.setBlock b st).hbms = d.hbms := by simp [Dev.setBlock]

@[simp] theorem Dev.moveItems_hbms (d : Dev) (b : Nat) : (d.moveItems b).hbms = d.hbms := by simp [Dev.moveItems]

@[simp] theorem Dev.abandonSteps_hbms (d : Dev) (b : Nat) (which : Nat → Bool) : (d.abandonSteps b which).hbms = d.hbms := by
  simp [Dev.abandonSteps]

@[simp] theorem Dev.blockOff_hbms (d : Dev) (b : Nat) : (d.blockOff b).hbms = d.hbms := by simp [Dev.blockOff]

@[simp] theorem Dev.runLoaded_hbms (d : Dev) (b : Nat) : (d.runLoaded b).hbms = d.hbms := by simp [Dev.runLoaded]

/-! ## Carter at the target -/

@[simp] theorem Dev.sendAck_hbms (d : Dev) (e : Nat) (h : Hdr) (bytes : Nat) (echo : Bool) (newest : Nat) :
    (d.sendAck e h bytes echo newest).hbms = d.hbms := by
  simp [Dev.sendAck]

@[simp] theorem Dev.sendMap_hbms (d : Dev) (r id : Nat) : (d.sendMap r id).hbms = d.hbms := by
  simp only [Dev.sendMap]
  split <;> simp

@[simp] theorem Dev.ackMapExpiry_hbms (d : Dev) (r id : Nat) : (d.ackMapExpiry r id).hbms = d.hbms := by
  simp only [Dev.ackMapExpiry]
  split <;> simp

@[simp] theorem Dev.ackWhole_hbms (d : Dev) (e : Nat) (h : Hdr) (time : Nat) : (d.ackWhole e h time).hbms = d.hbms := by
  simp only [Dev.ackWhole]
  split <;> simp

@[simp] theorem Dev.modTracker_hbms (d : Dev) (r id : Nat) (f : Tracker → Tracker) : (d.modTracker r id f).hbms = d.hbms := by
  simp [Dev.modTracker]

@[simp] theorem Dev.expireTracker_hbms (d : Dev) (r id : Nat) : (d.expireTracker r id).hbms = d.hbms := by
  simp only [Dev.expireTracker]
  split <;> simp

@[simp] theorem Dev.track_hbms (d : Dev) (r e : Nat) (p : Packet) : (d.track r e p).1.hbms = d.hbms := by
  simp only [Dev.track]
  split
  · split <;> simp
  · split
    · split
      · refine (Dev.modRegion_hbms _ _ fun x => ?_).trans ?_
        · rfl
        · split <;> simp
      · split <;> simp
    · split <;> simp

@[simp] theorem Dev.trackerAck_hbms (d : Dev) (r id : Nat) : (d.trackerAck r id).hbms = d.hbms := by
  simp only [Dev.trackerAck]
  split <;> simp

@[simp] theorem Dev.trackerPlaced_hbms (d : Dev) (r : Nat) (w : Work) (n : Nat) : (d.trackerPlaced r w n).hbms = d.hbms := by
  simp only [Dev.trackerPlaced]
  split <;> simp

@[simp] theorem Dev.keyPlaced_hbms (d : Dev) (e : Nat) (u : Option Nat) : (d.keyPlaced e u).hbms = d.hbms := by
  simp only [Dev.keyPlaced]
  split <;> rfl

@[simp] theorem Dev.modWork_hbms (d : Dev) (r id : Nat) (f : Work → Work) : (d.modWork r id f).hbms = d.hbms := by simp [Dev.modWork]

@[simp] theorem Dev.endWork_hbms (d : Dev) (r id n : Nat) : (d.endWork r id n).hbms = d.hbms := by
  simp only [Dev.endWork]
  split <;> simp

@[simp] theorem Dev.refuseWork_hbms (d : Dev) (r id status detail : Nat) (fault : Option (Nat × Nat)) :
    (d.refuseWork r id status detail fault).hbms = d.hbms := by
  simp only [Dev.refuseWork]
  split
  · rfl
  · split <;> simp

@[simp] theorem Dev.refuseWorkGate_hbms (d : Dev) (r id status detail : Nat) :
    (d.refuseWorkGate r id status detail).hbms = d.hbms := by
  simp only [Dev.refuseWorkGate]
  split <;> simp

@[simp] theorem Dev.placeWork_hbms (d : Dev) (r id : Nat) : (d.placeWork r id).hbms = d.hbms := by
  simp only [Dev.placeWork]
  split
  · rfl
  · split
    · simp
    · simp
    · simp
    · split
      · simp
      · split
        · simp
        · split <;> simp

@[simp] theorem Dev.workOn_hbms (n : Nat) (d : Dev) (r id : Nat) : (Dev.workOn n d r id).hbms = d.hbms := by
  induction n generalizing d with
  | zero => rfl
  | succ n ih =>
    simp only [Dev.workOn]
    split
    · rfl
    · split
      · simp
      · split
        · simp
        · split <;> next h => simp [ih, Dev.fst_hbms h]

@[simp] theorem Dev.workFound_hbms (d : Dev) (r id : Nat) (f : Found) : (d.workFound r id f).hbms = d.hbms := by
  simp only [Dev.workFound]
  split <;> simp

@[simp] theorem Dev.startWork_hbms (d : Dev) (r e : Nat) (p : Packet) (key tracker op : Option Nat) :
    (d.startWork r e p key tracker op).hbms = d.hbms := by
  simp [Dev.startWork]

@[simp] theorem Dev.keyedRequest_hbms (d : Dev) (r : Nat) (p : Packet) (op : Nat) {go : Dev → Nat → Nat → Dev}
    (h : ∀ d e k, (go d e k).hbms = d.hbms) : (d.keyedRequest r p op go).hbms = d.hbms := by
  simp only [Dev.keyedRequest, Dev.ite_hbms]
  split
  · simp
  · split
    · simp
    · split <;> simp [h]

@[simp] theorem Dev.putData_hbms (d : Dev) (r : Nat) (p : Packet) : (d.putData r p).hbms = d.hbms := by
  refine Dev.keyedRequest_hbms _ _ _ _ fun d e k => ?_
  split <;> next h => simp [Dev.fst_hbms h]

@[simp] theorem Dev.placementDone_hbms (d : Dev) (r id : Nat) : (d.placementDone r id).hbms = d.hbms := by
  simp only [Dev.placementDone]
  split <;> simp

@[simp] theorem Dev.readDone_hbms (d : Dev) (r id : Nat) (res : HostRes) : (d.readDone r id res).hbms = d.hbms := by
  simp only [Dev.readDone]
  split
  · rfl
  · split
    · split <;> simp
    · simp

@[simp] theorem Dev.atomicOk_hbms (d : Dev) (r id old : Nat) : (d.atomicOk r id old).hbms = d.hbms := by
  simp only [Dev.atomicOk]
  split <;> simp

@[simp] theorem Dev.atomicDone_hbms (d : Dev) (r id : Nat) (res : HostRes) : (d.atomicDone r id res).hbms = d.hbms := by
  simp only [Dev.atomicDone]
  split
  · rfl
  · split <;> simp

@[simp] theorem Dev.ackDelayExpiry_hbms (d : Dev) (r id : Nat) : (d.ackDelayExpiry r id).hbms = d.hbms := by
  simp only [Dev.ackDelayExpiry]
  split
  · rfl
  · split <;> simp

@[simp] theorem Dev.entryAckDelay_hbms (d : Dev) (r id : Nat) : (d.entryAckDelay r id).hbms = d.hbms := by
  refine forEach_hbms _ (fun e d => ?_) d
  split
  · rfl
  · split <;> simp

/-! ## Carter at the initiator -/

@[simp] theorem Dev.modOp_hbms (d : Dev) (r id : Nat) (f : Op → Op) : (d.modOp r id f).hbms = d.hbms := by simp [Dev.modOp]

@[simp] theorem Dev.countFence_hbms (d : Dev) (r id : Nat) : (d.countFence r id).hbms = d.hbms := by
  simp only [Dev.countFence]
  split <;> simp

@[simp] theorem Dev.dropOp_hbms (d : Dev) (r id : Nat) : (d.dropOp r id).hbms = d.hbms := by
  simp only [Dev.dropOp]
  split <;> simp

@[simp] theorem Dev.countStatus_hbms (d : Dev) (e status : Nat) : (d.countStatus e status).hbms = d.hbms := by simp [Dev.countStatus]

@[simp] theorem Dev.pay_hbms (d : Dev) (r id n : Nat) : (d.pay r id n).hbms = d.hbms := by
  simp only [Dev.pay]
  split <;> simp

@[simp] theorem Dev.toSignal_hbms (d : Dev) (r id : Nat) (o : Op) (s : Nat × Nat × Nat) : (d.toSignal r id o s).hbms = d.hbms := by
  simp [Dev.toSignal]

@[simp] theorem Dev.addFin_hbms (d : Dev) (e engine : Nat) (m : Match) : (d.addFin e engine m).hbms = d.hbms := by simp [Dev.addFin]

@[simp] theorem Dev.endReceive_hbms (d : Dev) (e id status detail bytes : Nat) :
    (d.endReceive e id status detail bytes).hbms = d.hbms := by
  simp only [Dev.endReceive]
  split <;> simp

@[simp] theorem Dev.endPull_hbms (d : Dev) (o : Op) (status detail : Nat) : (d.endPull o status detail).hbms = d.hbms := by
  simp only [Dev.endPull]
  split <;> simp

@[simp] theorem Dev.finishOp_hbms (d : Dev) (r id : Nat) (timed : Option (Nat × Nat)) (result : Nat) :
    (d.finishOp r id timed result).hbms = d.hbms := by
  simp only [Dev.finishOp]
  split
  · rfl
  · split <;> simp

@[simp] theorem Dev.giveTracker_hbms (d : Dev) (r id slot : Nat) (o : Op) : (d.giveTracker r id slot o).hbms = d.hbms := by
  simp [Dev.giveTracker]

@[simp] theorem Dev.giveTrackers_hbms (n : Nat) (d : Dev) (r : Nat) : (Dev.giveTrackers n d r).hbms = d.hbms := by
  fun_induction Dev.giveTrackers <;> simp +zetaDelta [*]

@[simp] theorem Dev.numberOp_hbms (d : Dev) (r id : Nat) (o : Op) (conn : Nat) (c : Conn) :
    (d.numberOp r id o conn c).hbms = d.hbms := by
  simp [Dev.numberOp]

@[simp] theorem Dev.beginOp_hbms (d : Dev) (r id : Nat) (o : Op) (c : Conn) : (d.beginOp r id o c).hbms = d.hbms := by
  simp [Dev.beginOp]

@[simp] theorem Dev.startOne_hbms (r : Nat) (x : Dev × Blocked) (id : Nat) : (Dev.startOne r x id).1.hbms = x.1.hbms := by
  simp only [Dev.startOne]
  split
  · rfl
  · next o _ =>
    have taken : (if o.numbered then (x.1, some o.conn) else x.1.takeConn o.ep o.localFen o.dstFen 0).1.hbms = x.1.hbms := by simp
    simp only [Dev.ite_fst_hbms]
    split
    · rfl
    · split
      · simp
      · split
        · rfl
        · split
          · next h => simp [Dev.fst_hbms h, taken]
          · next h => split <;> simp [Dev.fst_hbms h, taken]

@[simp] theorem Dev.startOps_hbms (d : Dev) (r : Nat) : (d.startOps r).hbms = d.hbms := by
  simp [Dev.startOps]

@[simp] theorem Dev.addOp_hbms (d : Dev) (o : Op) : (d.addOp o).hbms = d.hbms := by simp [Dev.addOp]

@[simp] theorem Dev.endOp_hbms (d : Dev) (r id : Nat) (timed : Option (Nat × Nat)) (result : Nat) :
    (d.endOp r id timed result).hbms = d.hbms := by
  simp [Dev.endOp]

@[simp] theorem Dev.checkOp_hbms (d : Dev) (r id : Nat) : (d.checkOp r id).hbms = d.hbms := by
  simp only [Dev.checkOp]
  split <;> simp

@[simp] theorem Dev.stopOp_hbms (d : Dev) (r id : Nat) (fault : Nat × Nat) : (d.stopOp r id fault).hbms = d.hbms := by
  simp [Dev.stopOp]

@[simp] theorem Dev.sendOp_hbms (d : Dev) (o : Op) (h : Hdr) (payload : List Byte) : (d.sendOp o h payload).hbms = d.hbms := by
  simp [Dev.sendOp]

@[simp] theorem Dev.sendPacket_hbms (d : Dev) (r id off : Nat) (o : Op) (payload : List Byte) (landing : List (Nat × Nat × Bool)) :
    (d.sendPacket r id off o payload landing).hbms = d.hbms := by
  simp only [Dev.sendPacket]
  split <;> simp

@[simp] theorem Dev.injectOp_hbms (d : Dev) (r id off : Nat) (o : Op) : (d.injectOp r id off o).hbms = d.hbms := by
  simp only [Dev.injectOp]
  split
  · simp
  · split
    · split
      · simp
      · split <;> next h => simp [Dev.fst_hbms h]
    · split
      · simp
      · split <;> next h => simp [Dev.fst_hbms h]

@[simp] theorem Dev.sourceRead_hbms (d : Dev) (e id : Nat) (res : HostRes) : (d.sourceRead e id res).hbms = d.hbms := by
  simp only [Dev.sourceRead]
  split
  · rfl
  · split <;> simp

@[simp] theorem Dev.packetInject_hbms (d : Dev) (g : Nat) : (d.packetInject g).hbms = d.hbms := by
  simp only [Dev.packetInject]
  split
  · simp
  · split
    · simp
    · split <;> simp

@[simp] theorem Dev.retryOp_hbms (d : Dev) (r id : Nat) (o : Op) : (d.retryOp r id o).hbms = d.hbms := by simp [Dev.retryOp]

@[simp] theorem Dev.msgTimeoutEnd_hbms (d : Dev) (r id : Nat) : (d.msgTimeoutEnd r id).hbms = d.hbms := by
  simp only [Dev.msgTimeoutEnd]
  split <;> simp

@[simp] theorem Dev.atomicTimeoutEnd_hbms (d : Dev) (r id : Nat) : (d.atomicTimeoutEnd r id).hbms = d.hbms := by
  simp only [Dev.atomicTimeoutEnd]
  split <;> simp

@[simp] theorem Dev.expireOp_hbms (d : Dev) (r id : Nat) : (d.expireOp r id).hbms = d.hbms := by simp [Dev.expireOp]

@[simp] theorem Dev.onProgress_hbms (d : Dev) (r conn : Nat) (marked : Bool) (sample : ℤ) :
    (d.onProgress r conn marked sample).hbms = d.hbms := by
  simp only [Dev.onProgress]
  split <;> simp

@[simp] theorem Dev.lateResponse_hbms (d : Dev) (r e : Nat) (h : Hdr) (seq : Nat) :
    (d.lateResponse r e h seq).hbms = d.hbms := Dev.hbms_congr rfl

@[simp] theorem Dev.onResponse_hbms (d : Dev) (r : Nat) (p : Packet) (op : Nat) {go : Dev → Nat → Dev}
    (h : ∀ d e, (go d e).hbms = d.hbms) : (d.onResponse r p op go).hbms = d.hbms := by
  simp only [Dev.onResponse, Dev.ite_hbms]
  split
  · simp
  · split <;> simp [h]

@[simp] theorem Dev.oneResponse_hbms (d : Dev) (r : Nat) (p : Packet) (op : Nat) (kind : Op → Bool) {go : Dev → Nat → Op → Dev}
    (h : ∀ d id o, (go d id o).hbms = d.hbms) : (d.oneResponse r p op kind go).hbms = d.hbms := by
  refine Dev.onResponse_hbms _ _ _ _ fun d e => ?_
  dsimp only
  split <;> split <;> simp [h]

@[simp] theorem Dev.ackReceived_hbms (d : Dev) (r : Nat) (p : Packet) : (d.ackReceived r p).hbms = d.hbms := by simp [Dev.ackReceived]

@[simp] theorem Dev.ackMapReceived_hbms (d : Dev) (r : Nat) (p : Packet) : (d.ackMapReceived r p).hbms = d.hbms := by
  refine Dev.onResponse_hbms _ _ _ _ fun d e => ?_
  dsimp only
  split <;> simp

@[simp] theorem Dev.landData_hbms (d : Dev) (r id off : Nat) (o : Op) (n : Nat) (data : List Byte) (payload : Bool) (use : Use) :
    (d.landData r id off o n data payload use).hbms = d.hbms := by
  simp only [Dev.landData]
  refine (Dev.modRegion_hbms _ _ fun x => ?_).trans ?_
  · rfl
  · split
    · refine forEach_hbms _ (fun a d => ?_) _
      split <;> simp
    · refine forEach_hbms _ (fun a d => ?_) _
      split <;> simp

@[simp] theorem Dev.dataReceived_hbms (d : Dev) (r : Nat) (p : Packet) (op : Nat) (kind : OpKind) :
    (d.dataReceived r p op kind).hbms = d.hbms := by
  simp [Dev.dataReceived]

@[simp] theorem Dev.atomicResp_hbms (d : Dev) (r : Nat) (p : Packet) : (d.atomicResp r p).hbms = d.hbms := by simp [Dev.atomicResp]

@[simp] theorem Dev.refuseReceived_hbms (d : Dev) (r : Nat) (p : Packet) : (d.refuseReceived r p).hbms = d.hbms := by
  simp [Dev.refuseReceived]

@[simp] theorem Dev.retryLaterResend_hbms (d : Dev) (r id off : Nat) : (d.retryLaterResend r id off).hbms = d.hbms := by
  simp only [Dev.retryLaterResend]
  split
  · rfl
  · split <;> simp

@[simp] theorem Dev.abandonOp_hbms (d : Dev) (r id : Nat) : (d.abandonOp r id).hbms = d.hbms := by
  simp only [Dev.abandonOp]
  split <;> simp

/-! ## Scrivener -/

@[simp] theorem Dev.rtsAck_hbms (d : Dev) (e : Nat) (h : Hdr) : (d.rtsAck e h).hbms = d.hbms := by simp [Dev.rtsAck]

@[simp] theorem Dev.copyEnd_hbms (d : Dev) (e id : Nat) : (d.copyEnd e id).hbms = d.hbms := Dev.hbms_congr rfl

@[simp] theorem Dev.entryProgress_hbms (d : Dev) (e id : Nat) : (d.entryProgress e id).hbms = d.hbms := by
  simp only [Dev.entryProgress]
  split <;> simp

@[simp] theorem Dev.entryPacket_hbms (d : Dev) (e id : Nat) (p : Packet) : (d.entryPacket e id p).hbms = d.hbms := by
  simp only [Dev.entryPacket]
  split
  · rfl
  · split
    · rfl
    · split <;> simp

@[simp] theorem Dev.storeWrite_hbms (d : Dev) (r item : Nat) : (d.storeWrite r item).hbms = d.hbms := by
  refine forEach_hbms _ (fun e d => ?_) d
  dsimp only
  split
  · rfl
  · split <;> simp

@[simp] theorem Dev.engineDispatch_hbms (d : Dev) (b : Nat) : (d.engineDispatch b).hbms = d.hbms := by
  simp only [Dev.engineDispatch]
  split <;> next h => simp [Dev.fst_hbms h]

@[simp] theorem Dev.toEntry_hbms (d : Dev) (e id : Nat) (p : Packet) : (d.toEntry e id p).hbms = d.hbms := by simp [Dev.toEntry]

@[simp] theorem Dev.uxRefuse_hbms (d : Dev) (e : Nat) (p : Packet) : (d.uxRefuse e p).hbms = d.hbms := by simp [Dev.uxRefuse]

@[simp] theorem Dev.onMatched_hbms (d : Dev) (e id : Nat) : (d.onMatched e id).hbms = d.hbms := by
  simp only [Dev.onMatched]
  split
  · rfl
  · split
    · split <;> simp
    · simp

@[simp] theorem Dev.findPosted_hbms (d : Dev) (e : Nat) (k : MKey) : (d.findPosted e k).1.hbms = d.hbms := Dev.hbms_congr rfl

@[simp] theorem Dev.stampUx_hbms (d : Dev) (e id : Nat) (m : Match) : (d.stampUx e id m).hbms = d.hbms := by simp [Dev.stampUx]

@[simp] theorem Dev.turnHeld_hbms (d : Dev) (e id : Nat) : (d.turnHeld e id).hbms = d.hbms := by
  simp only [Dev.turnHeld]
  split
  · rfl
  · split <;> next h => simp [Dev.fst_hbms h]

@[simp] theorem Dev.releaseHeld_hbms (n : Nat) (d : Dev) (r cid : Nat) : (Dev.releaseHeld n d r cid).hbms = d.hbms := by
  fun_induction Dev.releaseHeld <;> simp +zetaDelta [*]

@[simp] theorem Dev.touchRx_hbms (d : Dev) (r cid seq : Nat) : (d.touchRx r cid seq).hbms = d.hbms := by
  simp only [Dev.touchRx]
  split <;> simp

@[simp] theorem Dev.rebase_hbms (d : Dev) (r cid e : Nat) (h : Hdr) : (d.rebase r cid e h).hbms = d.hbms := by
  simp only [Dev.rebase]
  split <;> simp

@[simp] theorem Dev.passTurn_hbms (d : Dev) (r cid : Nat) : (d.passTurn r cid).hbms = d.hbms := by simp [Dev.passTurn]

@[simp] theorem Dev.turnNew_hbms (d : Dev) (r cid e : Nat) (p : Packet) : (d.turnNew r cid e p).hbms = d.hbms := by
  simp only [Dev.turnNew]
  split <;> next h => simp [Dev.fst_hbms h]

@[simp] theorem Dev.holdNew_hbms (d : Dev) (r cid e : Nat) (p : Packet) : (d.holdNew r cid e p).hbms = d.hbms := by simp [Dev.holdNew]

@[simp] theorem Dev.oldMessage_hbms (d : Dev) (r e : Nat) (p : Packet) : (d.oldMessage r e p).hbms = d.hbms := by simp [Dev.oldMessage]

@[simp] theorem Dev.gapExpiry_hbms (d : Dev) (r cid : Nat) : (d.gapExpiry r cid).hbms = d.hbms := by
  simp only [Dev.gapExpiry]
  split
  · rfl
  · split
    · rfl
    · split <;> simp

@[simp] theorem Dev.dropPull_hbms (d : Dev) (r e id : Nat) : (d.dropPull r e id).hbms = d.hbms := by
  simp only [Dev.dropPull]
  split <;> simp

@[simp] theorem Dev.expireEntry_hbms (d : Dev) (r e id : Nat) (m : Match) : (d.expireEntry r e id m).hbms = d.hbms := by
  simp only [Dev.expireEntry]
  split
  · simp
  · split
    · split <;> simp
    · simp

@[simp] theorem Dev.entryExpiry_hbms (d : Dev) (r e id : Nat) : (d.entryExpiry r e id).hbms = d.hbms := by
  simp only [Dev.entryExpiry]
  split <;> simp

@[simp] theorem Dev.messageTimers_hbms (d : Dev) (r e : Nat) (h : Hdr) : (d.messageTimers r e h).hbms = d.hbms := by
  simp only [Dev.messageTimers]
  split <;> split <;> simp

@[simp] theorem Dev.messageIn_hbms (d : Dev) (r : Nat) (p : Packet) (op : Nat) : (d.messageIn r p op).hbms = d.hbms := by
  simp only [Dev.messageIn, Dev.ite_hbms]
  split
  · simp
  · split
    · split <;> simp
    · split
      · next h => simp [Dev.fst_hbms h]
      · next h =>
        split
        · simp [Dev.fst_hbms h]
        · split <;> simp [Dev.fst_hbms h]

@[simp] theorem Dev.postRecv_hbms (d : Dev) (e q entry : Nat) (b : List Byte) : (d.postRecv e q entry b).hbms = d.hbms := by
  simp only [Dev.postRecv]
  split
  · simp
  · simp only [Dev.ite_hbms]
    split <;> simp

@[simp] theorem Dev.copyOut_hbms (d : Dev) (e id : Nat) : (d.copyOut e id).hbms = d.hbms := by
  simp only [Dev.copyOut]
  split <;> simp

@[simp] theorem Dev.rtsAckReceived_hbms (d : Dev) (r : Nat) (p : Packet) : (d.rtsAckReceived r p).hbms = d.hbms := by
  simp [Dev.rtsAckReceived]

@[simp] theorem Dev.endLent_hbms (d : Dev) (r id status detail : Nat) : (d.endLent r id status detail).hbms = d.hbms := by
  simp only [Dev.endLent]
  split <;> simp

@[simp] theorem Dev.lentIdle_hbms (d : Dev) (r id : Nat) : (d.lentIdle r id).hbms = d.hbms := by
  simp only [Dev.lentIdle]
  split
  · rfl
  · split <;> simp

@[simp] theorem Dev.lendExpiry_hbms (d : Dev) (r id : Nat) : (d.lendExpiry r id).hbms = d.hbms := by
  simp only [Dev.lendExpiry]
  split
  · rfl
  · split <;> simp

@[simp] theorem Dev.lentSend_hbms (d : Dev) (r : Nat) (h : Hdr) : (d.lentSend r h).1.hbms = d.hbms := by
  simp only [Dev.lentSend]
  split <;> simp

@[simp] theorem Dev.rndvGet_hbms (d : Dev) (r : Nat) (p : Packet) : (d.rndvGet r p).hbms = d.hbms := by
  simp only [Dev.rndvGet]
  split
  · rfl
  · split
    · simp
    · split <;> next h => simp [Dev.fst_hbms h]

@[simp] theorem Dev.rndvData_hbms (d : Dev) (r : Nat) (p : Packet) : (d.rndvData r p).hbms = d.hbms := by
  simp only [Dev.rndvData]
  split <;> simp

@[simp] theorem Dev.rndvFin_hbms (d : Dev) (r : Nat) (p : Packet) : (d.rndvFin r p).hbms = d.hbms := by
  simp only [Dev.rndvFin, Dev.ite_hbms]
  split
  · simp
  · split
    · simp
    · split <;> next h => simp [Dev.fst_hbms h]

@[simp] theorem Dev.pullStart_hbms (d : Dev) (r : Nat) : (d.pullStart r).hbms = d.hbms := by
  simp only [Dev.pullStart]
  split
  · rfl
  · simp only [Dev.ite_hbms]
    split
    · rfl
    · split <;> simp

/-! ## Cooper -/

@[simp] theorem Dev.modTree_hbms (d : Dev) (r id : Nat) (f : Tree → Tree) : (d.modTree r id f).hbms = d.hbms := by simp [Dev.modTree]

@[simp] theorem Dev.modInst_hbms (d : Dev) (r id n : Nat) (f : Instance → Instance) : (d.modInst r id n f).hbms = d.hbms := by
  simp [Dev.modInst]

@[simp] theorem Dev.openInst_hbms (d : Dev) (r id n op dtype redop : Nat) (exact : Bool) (elems : Nat) :
    (d.openInst r id n op dtype redop exact elems).hbms = d.hbms := by
  simp [Dev.openInst]

@[simp] theorem Dev.makeAbsent_hbms (d : Dev) (r id n c : Nat) : (d.makeAbsent r id n c).hbms = d.hbms := by simp [Dev.makeAbsent]

@[simp] theorem Dev.mismatch_hbms (d : Dev) (r id : Nat) : (d.mismatch r id).hbms = d.hbms := Dev.hbms_congr rfl

@[simp] theorem Dev.segValues_hbms (d : Dev) (i : Instance) (j : Nat) : (d.segValues i j).1.hbms = d.hbms := by
  refine foldl_fst_hbms _ (fun x k => ?_) _
  dsimp only
  split <;> rfl

@[simp] theorem Dev.sendColl_hbms (d : Dev) (r id opcode cls dst : Nat) (i : Instance) (full : Bool) (count off arg : Nat)
    (payload : List Byte) :
    (d.sendColl r id opcode cls dst i full count off arg payload).hbms = d.hbms := by
  simp [Dev.sendColl]

@[simp] theorem Dev.sendUp_hbms (d : Dev) (r id : Nat) (t : Tree) (i : Instance) (j : Nat) (xs : List Val) (isPart : Bool) :
    (d.sendUp r id t i j xs isPart).hbms = d.hbms := by
  simp [Dev.sendUp]

@[simp] theorem Dev.memberWrite_hbms (d : Dev) (r id : Nat) (i : Instance) (off c : Nat) (data : List Byte) :
    (d.memberWrite r id i off c data).hbms = d.hbms := by
  simp only [Dev.memberWrite]
  split <;> simp

@[simp] theorem Dev.sendDown_hbms (d : Dev) (r id : Nat) (t : Tree) (i : Instance) (j : Nat) (isPart : Bool) (contrib : Nat)
    (payload : List Byte) :
    (d.sendDown r id t i j isPart contrib payload).hbms = d.hbms := by
  simp [Dev.sendDown]

@[simp] theorem Dev.contribFault_hbms (d : Dev) (r id : Nat) (p : Posting) (fault : Nat × Nat) :
    (d.contribFault r id p fault).hbms = d.hbms := by
  simp [Dev.contribFault]

@[simp] theorem Dev.contribDone_hbms (d : Dev) (r id : Nat) (t : Tree) (i : Instance) (p : Posting) (data : List Byte) :
    (d.contribDone r id t i p data).hbms = d.hbms := by
  simp [Dev.contribDone]

@[simp] theorem Dev.readContrib_hbms (d : Dev) (r id : Nat) (t : Tree) (i : Instance) (p : Posting) :
    (d.readContrib r id t i p).hbms = d.hbms := by
  simp only [Dev.readContrib]
  split <;> next h => simp [Dev.fst_hbms h]

@[simp] theorem Dev.endInst_hbms (d : Dev) (r id : Nat) (i : Instance) : (d.endInst r id i).hbms = d.hbms := by
  simp only [Dev.endInst]
  split <;> simp

@[simp] theorem Dev.endWindows_hbms (d : Dev) (r id : Nat) : (d.endWindows r id).hbms = d.hbms := by
  simp only [Dev.endWindows]
  split <;> simp

@[simp] theorem Dev.admitPosting_hbms (d : Dev) (r id op dtype redop : Nat) (exact : Bool) (elems : Nat) (p : Posting) :
    (d.admitPosting r id op dtype redop exact elems p).hbms = d.hbms := by
  simp only [Dev.admitPosting]
  split <;> simp

@[simp] theorem Dev.unparkOne_hbms (d : Dev) (r id : Nat) : (d.unparkOne r id).hbms = d.hbms := by
  simp only [Dev.unparkOne]
  split
  · rfl
  · split
    · rfl
    · split
      · rfl
      · split
        · split <;> simp
        · simp

@[simp] theorem Dev.unpark_hbms (d : Dev) (r id : Nat) : (d.unpark r id).hbms = d.hbms := by
  simp only [Dev.unpark]
  split <;> simp

@[simp] theorem Dev.passSegment_hbms (d : Dev) (r id : Nat) (t : Tree) (i : Instance) : (d.passSegment r id t i).hbms = d.hbms := by
  simp [Dev.passSegment]

@[simp] theorem Dev.passEmpty_hbms (d : Dev) (r id : Nat) (t : Tree) (i : Instance) : (d.passEmpty r id t i).hbms = d.hbms := by
  simp [Dev.passEmpty]

@[simp] theorem Dev.coopGo_hbms (n : Nat) (d : Dev) (r id : Nat) : (Dev.coopGo n d r id).hbms = d.hbms := by
  fun_induction Dev.coopGo <;> simp_all

@[simp] theorem Dev.coopRun_hbms (d : Dev) (r id : Nat) : (d.coopRun r id).hbms = d.hbms := by simp [Dev.coopRun]

@[simp] theorem Dev.postColl_hbms (d : Dev) (e q entry : Nat) (b : List Byte) : (d.postColl e q entry b).hbms = d.hbms := by
  simp only [Dev.postColl]
  split
  · simp
  · split
    · simp
    · split <;> simp

@[simp] theorem Dev.badSource_hbms (d : Dev) (r : Nat) : (d.badSource r).hbms = d.hbms := Dev.hbms_congr rfl

@[simp] theorem Dev.staleInst_hbms (d : Dev) (r : Nat) : (d.staleInst r).hbms = d.hbms := Dev.hbms_congr rfl

@[simp] theorem Dev.collUp_hbms (d : Dev) (r : Nat) (p : Packet) : (d.collUp r p).hbms = d.hbms := by
  simp only [Dev.collUp]
  split
  · rfl
  · split
    · rfl
    · split
      · rfl
      · split <;> simp

@[simp] theorem Dev.collDown_hbms (d : Dev) (r : Nat) (p : Packet) (opcode : Nat) : (d.collDown r p opcode).hbms = d.hbms := by
  simp only [Dev.collDown]
  split
  · rfl
  · split
    · rfl
    · split
      · rfl
      · split <;> simp

@[simp] theorem Dev.contribRead_hbms (d : Dev) (r id c seg : Nat) (res : HostRes) : (d.contribRead r id c seg res).hbms = d.hbms := by
  simp only [Dev.contribRead]
  split
  · rfl
  · split
    · rfl
    · split <;> simp

@[simp] theorem Dev.contribFound_hbms (d : Dev) (r id c seg : Nat) : (d.contribFound r id c seg).hbms = d.hbms := by
  simp only [Dev.contribFound]
  split
  · rfl
  · split
    · rfl
    · split <;> simp

@[simp] theorem Dev.upWindow_hbms (d : Dev) (r id : Nat) : (d.upWindow r id).hbms = d.hbms := by simp [Dev.upWindow]

@[simp] theorem Dev.downWindow_hbms (d : Dev) (r id : Nat) : (d.downWindow r id).hbms = d.hbms := by
  simp only [Dev.downWindow]
  split <;> simp

/-! ## Locksmith -/

@[simp] theorem Dev.lockSend_hbms (d : Dev) (r opcode fen epi id prio tag arg : Nat) :
    (d.lockSend r opcode fen epi id prio tag arg).hbms = d.hbms := by
  simp [Dev.lockSend]

@[simp] theorem Dev.lockBusy_hbms (d : Dev) (r : Nat) (h : Hdr) (status detail : Nat) :
    (d.lockBusy r h status detail).hbms = d.hbms := by
  simp [Dev.lockBusy]

@[simp] theorem Dev.lockAnswer_hbms (d : Dev) (r opcode : Nat) (h : Hdr) : (d.lockAnswer r opcode h).hbms = d.hbms := by
  simp [Dev.lockAnswer]

@[simp] theorem Dev.inherit_hbms (d : Dev) (r id : Nat) (w : Waiter) : (d.inherit r id w).hbms = d.hbms := by simp [Dev.inherit]

@[simp] theorem Dev.disinherit_hbms (d : Dev) (r id newPrio : Nat) (forced released : Bool) :
    (d.disinherit r id newPrio forced released).hbms = d.hbms := by
  simp [Dev.disinherit]

@[simp] theorem Dev.lowerEff_hbms (d : Dev) (r id : Nat) : (d.lowerEff r id).hbms = d.hbms := by simp [Dev.lowerEff]

@[simp] theorem Dev.grantLock_hbms (d : Dev) (r id : Nat) (w : Waiter) (aband forced : Bool) :
    (d.grantLock r id w aband forced).hbms = d.hbms := by
  simp only [Dev.grantLock]
  split <;> simp

@[simp] theorem Dev.passLock_hbms (d : Dev) (r id st : Nat) : (d.passLock r id st).hbms = d.hbms := by
  simp only [Dev.passLock]
  split <;> simp

@[simp] theorem Dev.releaseLock_hbms (d : Dev) (r id : Nat) : (d.releaseLock r id).hbms = d.hbms := by simp [Dev.releaseLock]

@[simp] theorem Dev.forceLock_hbms (d : Dev) (r id : Nat) : (d.forceLock r id).hbms = d.hbms := by simp [Dev.forceLock]

@[simp] theorem Dev.abandonLock_hbms (d : Dev) (r id : Nat) : (d.abandonLock r id).hbms = d.hbms := by simp [Dev.abandonLock]

@[simp] theorem Dev.lockAtCell_hbms (d : Dev) (r : Nat) (p : Packet) : (d.lockAtCell r p).hbms = d.hbms := by simp [Dev.lockAtCell]

@[simp] theorem Dev.unlockAtCell_hbms (d : Dev) (r : Nat) (p : Packet) : (d.unlockAtCell r p).hbms = d.hbms := by
  simp [Dev.unlockAtCell]

@[simp] theorem Dev.cancelAtCell_hbms (d : Dev) (r : Nat) (p : Packet) : (d.cancelAtCell r p).hbms = d.hbms := by
  simp [Dev.cancelAtCell]

@[simp] theorem Dev.abandonAll_hbms (d : Dev) (r : Nat) (p : Nat → Nat → Bool) : (d.abandonAll r p).1.hbms = d.hbms := by
  simp [Dev.abandonAll]

@[simp] theorem Dev.modPend_hbms (d : Dev) (r k : Nat) (f : Pend → Pend) : (d.modPend r k f).hbms = d.hbms := by simp [Dev.modPend]

@[simp] theorem Dev.sendRequest_hbms (d : Dev) (r k : Nat) (p : Pend) (opcode : Nat) : (d.sendRequest r k p opcode).hbms = d.hbms := by
  simp [Dev.sendRequest]

@[simp] theorem Dev.endPend_hbms (d : Dev) (r k : Nat) (f : Fin8) : (d.endPend r k f).hbms = d.hbms := by
  simp only [Dev.endPend]
  split <;> simp

@[simp] theorem Dev.grantWord_hbms (d : Dev) (p : Pend) (word : Nat) : (d.grantWord p word).hbms = d.hbms := by simp [Dev.grantWord]

@[simp] theorem Dev.denyWord_hbms (d : Dev) (p : Pend) (status : Nat) : (d.denyWord p status).hbms = d.hbms := by simp [Dev.denyWord]

@[simp] theorem Dev.denyPend_hbms (d : Dev) (r k : Nat) (p : Pend) (status detail : Nat) :
    (d.denyPend r k p status detail).hbms = d.hbms := by
  simp [Dev.denyPend]

@[simp] theorem Dev.flushPend_hbms (d : Dev) (r k : Nat) (p : Pend) : (d.flushPend r k p).hbms = d.hbms := by simp [Dev.flushPend]

@[simp] theorem Dev.pendTry_hbms (d : Dev) (r k : Nat) : (d.pendTry r k).hbms = d.hbms := by
  simp only [Dev.pendTry]
  split
  · rfl
  · split
    · rfl
    · split
      · simp
      · split <;> next h => simp [Dev.fst_hbms h]

@[simp] theorem Dev.pendGo_hbms (n : Nat) (d : Dev) (r : Nat) : (Dev.pendGo n d r).hbms = d.hbms := by
  fun_induction Dev.pendGo <;> simp_all

@[simp] theorem Dev.pendServe_hbms (d : Dev) (r : Nat) : (d.pendServe r).hbms = d.hbms := by simp [Dev.pendServe]

@[simp] theorem Dev.abandonLocal_hbms (d : Dev) (e : Nat) (epi : Option Nat) : (d.abandonLocal e epi).hbms = d.hbms := by
  simp [Dev.abandonLocal]

@[simp] theorem Dev.postLock_hbms (d : Dev) (e q entry : Nat) (b : List Byte) (unlock : Bool) :
    (d.postLock e q entry b unlock).hbms = d.hbms := by
  simp [Dev.postLock]

@[simp] theorem Dev.startCancel_hbms (d : Dev) (r k flushed : Nat) : (d.startCancel r k flushed).hbms = d.hbms := by
  simp only [Dev.startCancel]
  split <;> simp

@[simp] theorem Dev.timeoutPend_hbms (d : Dev) (r k : Nat) (p : Pend) (detail : Nat) : (d.timeoutPend r k p detail).hbms = d.hbms := by
  simp [Dev.timeoutPend]

@[simp] theorem Dev.pendOut_hbms (d : Dev) (r k : Nat) (p : Pend) : (d.pendOut r k p).hbms = d.hbms := by simp [Dev.pendOut]

@[simp] theorem Dev.lockRepeat_hbms (d : Dev) (r k : Nat) : (d.lockRepeat r k).hbms = d.hbms := by
  simp only [Dev.lockRepeat]
  split <;> simp

@[simp] theorem Dev.lockProbe_hbms (d : Dev) (r k : Nat) : (d.lockProbe r k).hbms = d.hbms := by
  simp only [Dev.lockProbe]
  split <;> simp

@[simp] theorem Dev.lateLock_hbms (d : Dev) (r : Nat) (h : Hdr) (flushed : Nat) : (d.lateLock r h flushed).hbms = d.hbms := by
  simp only [Dev.lateLock]
  split <;> rfl

@[simp] theorem Dev.lockResponse_hbms (d : Dev) (r : Nat) (p : Packet) (opcode : Nat) {go : Dev → Nat → Pend → Dev}
    (h : ∀ d k q, (go d k q).hbms = d.hbms) : (d.lockResponse r p opcode go).hbms = d.hbms := by
  simp only [Dev.lockResponse, Dev.ite_hbms]
  split
  · simp
  · split <;> simp [h]

@[simp] theorem Dev.grantReceived_hbms (d : Dev) (r : Nat) (p : Packet) : (d.grantReceived r p).hbms = d.hbms := by
  simp [Dev.grantReceived]

@[simp] theorem Dev.queuedReceived_hbms (d : Dev) (r : Nat) (p : Packet) : (d.queuedReceived r p).hbms = d.hbms := by
  simp [Dev.queuedReceived]

@[simp] theorem Dev.busyReceived_hbms (d : Dev) (r : Nat) (p : Packet) : (d.busyReceived r p).hbms = d.hbms := by
  simp [Dev.busyReceived]

@[simp] theorem Dev.unlockDone_hbms (d : Dev) (r : Nat) (p : Packet) : (d.unlockDone r p).hbms = d.hbms := by simp [Dev.unlockDone]

@[simp] theorem Dev.inheritRecord_hbms (d : Dev) (r : Nat) (p : Packet) (opcode kind : Nat) :
    (d.inheritRecord r p opcode kind).hbms = d.hbms := by
  simp [Dev.inheritRecord]

@[simp] theorem Dev.cancelPends_hbms (d : Dev) (e : Nat) (sq : Option Nat) : (d.cancelPends e sq).hbms = d.hbms := by
  refine forEach_hbms _ (fun r d => ?_) d
  refine (Dev.pendServe_hbms _ _).trans (forEach_hbms _ (fun k d => ?_) d)
  dsimp only
  split <;> simp

/-! ## Ocmiset requests and replies -/

@[simp] theorem Dev.endCmd_hbms (d : Dev) (e q entry : Nat) : (d.endCmd e q entry).hbms = d.hbms := by
  simp only [Dev.endCmd]
  split
  · rfl
  · split
    · rfl
    · split
      · rfl
      · split <;> simp

@[simp] theorem Dev.cmdFinal_hbms (d : Dev) (e q entry : Nat) (pkt : List Byte) : (d.cmdFinal e q entry pkt).hbms = d.hbms := by
  simp [Dev.cmdFinal]

@[simp] theorem Dev.cmdAnswer_hbms (d : Dev) (e q tag type orphan : Nat) (pkt : List Byte) :
    (d.cmdAnswer e q tag type orphan pkt).hbms = d.hbms := by
  simp only [Dev.cmdAnswer]
  split
  · rfl
  · split
    · rfl
    · split
      · rfl
      · split <;> simp

@[simp] theorem Dev.sendReply_hbms (d : Dev) (q : Request) (type status : Nat) (params : List Byte) :
    (d.sendReply q type status params).hbms = d.hbms := by
  simp only [Dev.sendReply]
  split
  · simp
  · split <;> simp
  · split <;> rfl

@[simp] theorem Dev.finalReply_hbms (d : Dev) (q : Request) (status : Nat) (params : List Byte) :
    (d.finalReply q status params).hbms = d.hbms := by
  simp [Dev.finalReply]

@[simp] theorem Dev.leaveIntake_hbms (d : Dev) (q : Request) (ptr : Nat) : (d.leaveIntake q ptr).hbms = d.hbms := Dev.hbms_congr rfl

@[simp] theorem Dev.answerBad_hbms (n : Nat) (d : Dev) : (Dev.answerBad n d).hbms = d.hbms := by
  fun_induction Dev.answerBad <;> simp_all

@[simp] theorem Dev.lostRequest_hbms (d : Dev) (q : Request) : (d.lostRequest q).hbms = d.hbms := by
  simp only [Dev.lostRequest]
  split <;> rfl

@[simp] theorem Dev.register_hbms (d : Dev) (q : Request) : (d.register q).hbms = d.hbms := by simp [Dev.register]

@[simp] theorem Dev.consumeNonce_hbms (d : Dev) (b : List Byte) : (d.consumeNonce b).hbms = d.hbms := by simp [Dev.consumeNonce]

@[simp] theorem Dev.modExec_hbms (d : Dev) (path : Path) (tag : Nat) (f : Exec → Exec) :
    (d.modExec path tag f).hbms = d.hbms := Dev.hbms_congr rfl

@[simp] theorem Dev.finish_hbms (d : Dev) (path : Path) (tag status : Nat) (params : List Byte) :
    (d.finish path tag status params).hbms = d.hbms := by
  simp only [Dev.finish]
  split <;> simp

@[simp] theorem Dev.begin_hbms (d : Dev) (q : Request) (ptr : Nat) : (d.begin q ptr).hbms = d.hbms := Dev.hbms_congr rfl

/-! ## Requests to other devices -/

@[simp] theorem Dev.addCall_hbms (d : Dev) (c : Outstanding) : (d.addCall c).hbms = d.hbms := Dev.hbms_congr rfl

@[simp] theorem Dev.dropCall_hbms (d : Dev) (id : Nat) : (d.dropCall id).hbms = d.hbms := Dev.hbms_congr rfl

@[simp] theorem Dev.modCall_hbms (d : Dev) (id : Nat) (f : Outstanding → Outstanding) :
    (d.modCall id f).hbms = d.hbms := Dev.hbms_congr rfl

@[simp] theorem Dev.passCmd_hbms (d : Dev) (e q entry dest : Nat) (pkt : List Byte) :
    (d.passCmd e q entry dest pkt).hbms = d.hbms := by
  simp [Dev.passCmd]

@[simp] theorem Dev.callTimeout_hbms (d : Dev) (id : Nat) : (d.callTimeout id).hbms = d.hbms := by
  simp only [Dev.callTimeout]
  split
  · rfl
  · split
    · rfl
    · split
      · simp
      · split
        · rfl
        · split <;> simp

@[simp] theorem Dev.replyArrived_hbms (d : Dev) (r : Nat) (p : Packet) : (d.replyArrived r p).hbms = d.hbms := by
  simp only [Dev.replyArrived]
  split
  · split <;> split <;> simp
  · split <;> split <;> split <;> simp

@[simp] theorem Dev.wardenPacket_hbms (d : Dev) (r : Nat) (p : Packet) : (d.wardenPacket r p).hbms = d.hbms := by
  simp [Dev.wardenPacket]

@[simp] theorem Dev.mgmtForward_hbms (d : Dev) (q : Request) : (d.mgmtForward q).1.hbms = d.hbms := by simp [Dev.mgmtForward]

@[simp] theorem Dev.authNonce_hbms (d : Dev) (u : Request) : (d.authNonce u).1.hbms = d.hbms := Dev.hbms_congr rfl

/-! ## Cooper's commands -/

@[simp] theorem Dev.treeSet_hbms (d : Dev) (q : Request) : (d.treeSet q).1.hbms = d.hbms := by simp [Dev.treeSet]

@[simp] theorem Dev.treeClear_hbms (d : Dev) (q : Request) : (d.treeClear q).1.hbms = d.hbms := by
  simp only [Dev.treeClear]
  split <;> simp

@[simp] theorem Dev.dropContribs_hbms (d : Dev) (r id : Nat) (t : Tree) : (d.dropContribs r id t).hbms = d.hbms := by
  simp [Dev.dropContribs]

@[simp] theorem Dev.countAborted_hbms (d : Dev) (r : Nat) (t : Tree) : (d.countAborted r t).hbms = d.hbms := Dev.hbms_congr rfl

@[simp] theorem Dev.treeAbort_hbms (d : Dev) (q : Request) : (d.treeAbort q).1.hbms = d.hbms := by
  simp only [Dev.treeAbort]
  split <;> simp

@[simp] theorem Dev.finishAll_hbms (d : Dev) (op a b status : Nat) (params : List Byte) :
    (d.finishAll op a b status params).hbms = d.hbms := by
  simp [Dev.finishAll]

@[simp] theorem Dev.treeAbortDone_hbms (d : Dev) (r id : Nat) : (d.treeAbortDone r id).hbms = d.hbms := by
  simp only [Dev.treeAbortDone]
  split <;> simp

/-! ## Engine blocks -/

@[simp] theorem Dev.migrate_hbms (d : Dev) (b limit version : Nat) (code : List Byte) (isLoad : Bool) :
    (d.migrate b limit version code isLoad).hbms = d.hbms := by
  simp [Dev.migrate]

@[simp] theorem Dev.blockReset_hbms (d : Dev) (q : Request) : (d.blockReset q).1.hbms = d.hbms := by simp [Dev.blockReset]

@[simp] theorem Dev.blockLoad_hbms (d : Dev) (q : Request) (version : Nat) (code : List Byte) (fail : Nat) :
    (d.blockLoad q version code fail).1.hbms = d.hbms := by
  simp [Dev.blockLoad]

@[simp] theorem Dev.blockMigrationEnd_hbms (d : Dev) (b : Nat) : (d.blockMigrationEnd b).hbms = d.hbms := by
  simp [Dev.blockMigrationEnd]

@[simp] theorem Dev.blockDone_hbms (d : Dev) (x : Exec) (b status : Nat) (params : List Byte) :
    (d.blockDone x b status params).hbms = d.hbms := by
  simp [Dev.blockDone]

@[simp] theorem Dev.blockCodeLoaded_hbms (d : Dev) (b : Nat) (good : Bool) : (d.blockCodeLoaded b good).hbms = d.hbms := by
  simp only [Dev.blockCodeLoaded]
  split
  · rfl
  · split
    · rfl
    · split
      · simp
      · split <;> split <;> simp

@[simp] theorem Dev.blockLost_hbms (d : Dev) (b : Nat) : (d.blockLost b).hbms = d.hbms := by simp [Dev.blockLost]

@[simp] theorem Dev.blockAbort_hbms (d : Dev) (b : Nat) : (d.blockAbort b).hbms = d.hbms := by simp [Dev.blockAbort]

/-! ## Clock islands -/

@[simp] theorem Dev.startRegion_hbms (d : Dev) (r : Nat) : (d.startRegion r).hbms = d.hbms := by simp [Dev.startRegion]

@[simp] theorem Dev.clockMeasure_hbms (d : Dev) (c : ClockRun) : (d.clockMeasure c).1.hbms = d.hbms := by simp [Dev.clockMeasure]

@[simp] theorem Dev.clockLock_hbms (d : Dev) (c : ClockRun) : (d.clockLock c).1.hbms = d.hbms := Dev.hbms_congr rfl

@[simp] theorem Dev.clockStacks_hbms (d : Dev) (c : ClockRun) (failed : Nat) :
    (d.clockStacks c failed).1.hbms = d.hbms := Dev.hbms_congr rfl

@[simp] theorem Dev.clockBelfry_hbms (d : Dev) (failed : Nat) : (d.clockBelfry failed).1.hbms = d.hbms := by simp [Dev.clockBelfry]

@[simp] theorem Dev.clockEngines_hbms (d : Dev) (held : Nat) : (d.clockEngines held).1.hbms = d.hbms := by simp [Dev.clockEngines]

@[simp] theorem Dev.clockEnd_hbms (d : Dev) (q : Request) (held : Nat) : (d.clockEnd q held).1.hbms = d.hbms := by simp [Dev.clockEnd]

@[simp] theorem Dev.clockStep_hbms (d : Dev) (c : ClockRun) (q : Request) (a held : Nat) :
    (d.clockStep c q a held).1.hbms = d.hbms := by
  simp only [Dev.clockStep]
  split <;> simp

@[simp] theorem Dev.clockSwitch_hbms (d : Dev) (c : ClockRun) (q : Request) (a held : Nat) :
    (d.clockSwitch c q a held).1.hbms = d.hbms := by
  simp [Dev.clockSwitch]

/-! ## Entries fetched -/

@[simp] theorem Dev.ringFetch_hbms (d : Dev) (e q : Nat) : (d.ringFetch e q).hbms = d.hbms := by simp [Dev.ringFetch]

@[simp] theorem Dev.endChain_hbms (d : Dev) (e q : Nat) (f : Fin8) : (d.endChain e q f).hbms = d.hbms := by
  simp only [Dev.endChain]
  split <;> simp

@[simp] theorem Dev.chainFetch_hbms (d : Dev) (e q : Nat) : (d.chainFetch e q).hbms = d.hbms := by
  simp only [Dev.chainFetch]
  split
  · rfl
  · split <;> next h => simp [Dev.fst_hbms h]

@[simp] theorem Dev.failCmd_hbms (d : Dev) (e q entry : Nat) (f : Fin8) : (d.failCmd e q entry f).hbms = d.hbms := by
  simp [Dev.failCmd]

@[simp] theorem Dev.cmdPages_hbms (d : Dev) (e q : Nat) : (d.cmdPages e q).hbms = d.hbms := by
  simp only [Dev.cmdPages]
  split
  · rfl
  · split <;> next h => simp [Dev.fst_hbms h]

@[simp] theorem Dev.cmdRead_hbms (d : Dev) (e q : Nat) (res : HostRes) : (d.cmdRead e q res).hbms = d.hbms := by
  simp only [Dev.cmdRead]
  split <;> simp

/-! ## Reads resumed -/

@[simp] theorem Dev.placed_hbms (d : Dev) (e : Nat) (o : PlaceFor) : (d.placed e o).hbms = d.hbms := by
  simp only [Dev.placed]
  split <;> simp

@[simp] theorem Dev.resume_hbms (d : Dev) (e id : Nat) (w : Walk) (f : Found) : (d.resume e id w f).hbms = d.hbms := by
  simp only [Dev.resume]
  split
  · simp
  · split <;> next h => simp [Dev.fst_hbms h]
  · simp
  · simp
  · simp
  · simp
  · rfl
  · rfl
  · rfl
  · rfl
  · rfl

@[simp] theorem Dev.walkEnd_hbms (d : Dev) (e id : Nat) (res : HostRes) : (d.walkEnd e id res).hbms = d.hbms := by
  simp only [Dev.walkEnd]
  split <;> next h => simp [Dev.fst_hbms h]

/-! ## What leaves an endpoint -/

@[simp] theorem Dev.moveEp_hbms (d : Dev) (e : Nat) (st : EState) : (d.moveEp e st).hbms = d.hbms := Dev.hbms_congr rfl

@[simp] theorem Dev.dropWork_hbms (d : Dev) (e id : Nat) : (d.dropWork e id).hbms = d.hbms := by
  simp only [Dev.dropWork]
  split
  · rfl
  · split <;> simp

@[simp] theorem Dev.dropPlace_hbms (d : Dev) (e id : Nat) : (d.dropPlace e id).hbms = d.hbms := by
  simp only [Dev.dropPlace]
  split
  · rfl
  · split <;> simp

@[simp] theorem Dev.leaveRun_hbms (d : Dev) (e : Nat) : (d.leaveRun e).hbms = d.hbms := by simp [Dev.leaveRun]

@[simp] theorem Dev.barIssue_hbms (d : Dev) (e : Nat) (st : EState) : (d.barIssue e st).hbms = d.hbms := by simp [Dev.barIssue]

@[simp] theorem Dev.gateStop_hbms (d : Dev) (e cause : Nat) : (d.gateStop e cause).hbms = d.hbms := by simp [Dev.gateStop]

@[simp] theorem Dev.quarantineTags_hbms (d : Dev) (e : Nat) : (d.quarantineTags e).hbms = d.hbms := Dev.hbms_congr rfl

@[simp] theorem Dev.orphanCmds_hbms (d : Dev) (e : Nat) (sq : Option Nat) (why : Nat) :
    (d.orphanCmds e sq why).hbms = d.hbms := Dev.hbms_congr rfl

@[simp] theorem Dev.dropMessages_hbms (d : Dev) (e : Nat) : (d.dropMessages e).hbms = d.hbms := by simp [Dev.dropMessages]

@[simp] theorem Dev.endpointReset_hbms (d : Dev) (e : Nat) (st : EState) : (d.endpointReset e st).hbms = d.hbms := by
  simp [Dev.endpointReset]

/-! ## Gates and endpoints -/

@[simp] theorem Dev.linkLost_hbms (d : Dev) (e : Nat) : (d.linkLost e).hbms = d.hbms := by simp [Dev.linkLost]

@[simp] theorem Dev.trainGate_hbms (d : Dev) (e : Nat) : (d.trainGate e).hbms = d.hbms := Dev.hbms_congr rfl

@[simp] theorem Dev.perstEp_hbms (d : Dev) (e : Nat) : (d.perstEp e).hbms = d.hbms := by simp [Dev.perstEp]

@[simp] theorem Dev.perstAsserted_hbms (d : Dev) (g : Nat) : (d.perstAsserted g).hbms = d.hbms := by simp [Dev.perstAsserted]

@[simp] theorem Dev.perstReleased_hbms (d : Dev) (g : Nat) : (d.perstReleased g).hbms = d.hbms := by simp [Dev.perstReleased]

@[simp] theorem Dev.readyBy_hbms (d : Dev) (e limit : Nat) : (d.readyBy e limit).hbms = d.hbms := Dev.hbms_congr rfl

@[simp] theorem Dev.linkActive_hbms (d : Dev) (e width rate : Nat) (flit : Bool) : (d.linkActive e width rate flit).hbms = d.hbms := by
  simp [Dev.linkActive]

@[simp] theorem Dev.surpriseRemoval_hbms (d : Dev) (e : Nat) : (d.surpriseRemoval e).hbms = d.hbms := by simp [Dev.surpriseRemoval]

@[simp] theorem Dev.enterRun_hbms (d : Dev) (e : Nat) : (d.enterRun e).hbms = d.hbms := by simp [Dev.enterRun]

@[simp] theorem Dev.bmeSet_hbms (d : Dev) (e : Nat) : (d.bmeSet e).hbms = d.hbms := by simp [Dev.bmeSet]

@[simp] theorem Dev.bmeClear_hbms (d : Dev) (e : Nat) : (d.bmeClear e).hbms = d.hbms := by simp [Dev.bmeClear]

@[simp] theorem Dev.toD3hot_hbms (d : Dev) (e : Nat) : (d.toD3hot e).hbms = d.hbms := by
  simp only [Dev.toD3hot]
  split <;> simp

@[simp] theorem Dev.toD0_hbms (d : Dev) (e : Nat) : (d.toD0 e).hbms = d.hbms := by simp [Dev.toD0]

@[simp] theorem Dev.afterTick_hbms (d : Dev) (e : Nat) (was : Endpoint) : (d.afterTick e was).hbms = d.hbms := by
  simp only [Dev.afterTick, Dev.ite_hbms]
  split
  · rfl
  · split <;> simp

@[simp] theorem Dev.linkReset_hbms (d : Dev) (e code : Nat) : (d.linkReset e code).hbms = d.hbms := by simp [Dev.linkReset]

@[simp] theorem Dev.stackRead_hbms (d : Dev) (r a n : Nat) : (d.stackRead r a n).1.hbms = d.hbms := by
  simp only [Dev.stackRead]
  split <;> rfl

@[simp] theorem Dev.bar4Fit_hbms (d : Dev) (e off n : Nat) : (d.bar4Fit e off n).1.hbms = d.hbms := by simp [Dev.bar4Fit]

@[simp] theorem Dev.l1Entry_hbms (d : Dev) (e : Nat) : (d.l1Entry e).hbms = d.hbms := by simp [Dev.l1Entry]

@[simp] theorem Dev.l0pWindow_hbms (d : Dev) (e up down : Nat) : (d.l0pWindow e up down).hbms = d.hbms := by simp [Dev.l0pWindow]

@[simp] theorem Dev.maskVector_hbms (d : Dev) (e v : Nat) (masked : Bool) : (d.maskVector e v masked).hbms = d.hbms := by
  simp [Dev.maskVector]

/-! ## Routes -/

@[simp] theorem Dev.writeEntries_hbms (d : Dev) (r : Nat) (p : List Byte) : (d.writeEntries r p).hbms = d.hbms := by
  simp [Dev.writeEntries]

@[simp] theorem Dev.routeWrite_hbms (d : Dev) (q : Request) : (d.routeWrite q).1.hbms = d.hbms := by simp [Dev.routeWrite]

@[simp] theorem Dev.routeCopy_hbms (d : Dev) (q : Request) : (d.routeCopy q).1.hbms = d.hbms := by simp [Dev.routeCopy]

@[simp] theorem Dev.planSwaps_hbms (path : Path) (tag : Nat) (rs : List Nat) (d : Dev) :
    (Dev.planSwaps path tag rs d).hbms = d.hbms := by
  fun_induction Dev.planSwaps <;> simp_all

@[simp] theorem Dev.routeCommit_hbms (d : Dev) (q : Request) : (d.routeCommit q).1.hbms = d.hbms := by simp [Dev.routeCommit]

@[simp] theorem Dev.swapBanks_hbms (d : Dev) (r : Nat) (path : Path) (tag : Nat) : (d.swapBanks r path tag).hbms = d.hbms := by
  simp [Dev.swapBanks]

@[simp] theorem Dev.commitEnd_hbms (d : Dev) (path : Path) (tag : Nat) : (d.commitEnd path tag).hbms = d.hbms := by
  simp only [Dev.commitEnd]
  split
  · rfl
  · split <;> simp

@[simp] theorem Dev.endSwap_hbms (d : Dev) (r : Nat) (s : Nat × Path × Nat) (swap : Bool) : (d.endSwap r s swap).hbms = d.hbms := by
  simp [Dev.endSwap]

@[simp] theorem Dev.dueSwaps_hbms (d : Dev) (r : Nat) : (d.dueSwaps r).hbms = d.hbms := by simp [Dev.dueSwaps]

@[simp] theorem Dev.dropSwaps_hbms (d : Dev) (r : Nat) : (d.dropSwaps r).hbms = d.hbms := by simp [Dev.dropSwaps]

/-! ## Failures and repair -/

@[simp] theorem Dev.setRState_hbms (d : Dev) (r : Nat) (st : RState) : (d.setRState r st).hbms = d.hbms := by simp [Dev.setRState]

@[simp] theorem Dev.relive_hbms (d : Dev) (r : Nat) : (d.relive r).hbms = d.hbms := by simp [Dev.relive]

@[simp] theorem Dev.regionDrain_hbms (d : Dev) (q : Request) : (d.regionDrain q).1.hbms = d.hbms := by simp [Dev.regionDrain]

@[simp] theorem Dev.regionDrained_hbms (d : Dev) (r : Nat) : (d.regionDrained r).hbms = d.hbms := by simp [Dev.regionDrained]

@[simp] theorem Dev.drainAbort_hbms (d : Dev) (r : Nat) : (d.drainAbort r).hbms = d.hbms := by simp [Dev.drainAbort]

@[simp] theorem Dev.resetEndpoint_hbms (d : Dev) (e : Nat) : (d.resetEndpoint e).hbms = d.hbms := by simp [Dev.resetEndpoint]

@[simp] theorem Dev.cutButtress_hbms (d : Dev) (r : Nat) : (d.cutButtress r).hbms = d.hbms := by simp [Dev.cutButtress]

@[simp] theorem Dev.resetPort_hbms (d : Dev) (p : Nat) : (d.resetPort p).hbms = d.hbms := by simp [Dev.resetPort]

@[simp] theorem Dev.zeroPointers_hbms (d : Dev) (r : Nat) : (d.zeroPointers r).hbms = d.hbms := by simp [Dev.zeroPointers]

@[simp] theorem Dev.resetBlock_hbms (d : Dev) (b : Nat) : (d.resetBlock b).hbms = d.hbms := by
  simp only [Dev.resetBlock]
  split <;> simp

@[simp] theorem Dev.regionReady_hbms (d : Dev) (r : Nat) (stillBad : List Nat) : (d.regionReady r stillBad).hbms = d.hbms := by
  simp [Dev.regionReady]

@[simp] theorem Dev.regionResume_hbms (d : Dev) (q : Request) : (d.regionResume q).1.hbms = d.hbms := by
  simp only [Dev.regionResume]
  split <;> simp

/-! ## Aborts -/

@[simp] theorem Dev.interimSend_hbms (d : Dev) (path : Path) (tag : Nat) : (d.interimSend path tag).hbms = d.hbms := by
  simp only [Dev.interimSend]
  split <;> simp

@[simp] theorem Dev.abortExec_hbms (d : Dev) (x : Exec) : (d.abortExec x).hbms = d.hbms := by simp [Dev.abortExec]

@[simp] theorem Dev.cmdAbort_hbms (d : Dev) (q : Request) : (d.cmdAbort q).1.hbms = d.hbms := by
  simp only [Dev.cmdAbort]
  split <;> simp

/-! ## Bellrope frames -/

@[simp] theorem Dev.setRope_hbms (d : Dev) (x : Rope) : (d.setRope x).hbms = d.hbms := Dev.hbms_congr rfl

@[simp] theorem Dev.ropeAck_hbms (d : Dev) : d.ropeAck.hbms = d.hbms := Dev.hbms_congr rfl

@[simp] theorem Dev.ropeTake_hbms (d : Dev) (bytes : List Byte) : (d.ropeTake bytes).hbms = d.hbms := by simp [Dev.ropeTake]

@[simp] theorem Dev.ropeRequest_hbms (d : Dev) (symbols : List RopeSym) : (d.ropeRequest symbols).hbms = d.hbms := by
  simp only [Dev.ropeRequest]
  split
  · rfl
  · split <;> simp
  · rfl

@[simp] theorem Dev.ropeAnswer_hbms (d : Dev) : d.ropeAnswer.hbms = d.hbms := by
  simp only [Dev.ropeAnswer]
  split <;> rfl

/-! ## Cages -/

@[simp] theorem Dev.cageFault_hbms (d : Dev) (c : Nat) : (d.cageFault c).hbms = d.hbms := Dev.hbms_congr rfl

@[simp] theorem Dev.cageInput_hbms (d : Dev) (c n : Nat) : (d.cageInput c n).hbms = d.hbms := by simp [Dev.cageInput]

@[simp] theorem Dev.cageScanFrame_hbms (d : Dev) (din : Nat) : (d.cageScanFrame din).hbms = d.hbms := by
  simp [Dev.cageScanFrame]

@[simp] theorem Dev.cagePgTimeout_hbms (d : Dev) (c : Nat) : (d.cagePgTimeout c).hbms = d.hbms := by simp [Dev.cagePgTimeout]

@[simp] theorem Dev.cageSet_hbms (d : Dev) (u : Request) : (d.cageSet u).1.hbms = d.hbms := by simp [Dev.cageSet]

/-! ## Twins -/

@[simp] theorem Dev.dropAlt_hbms (d : Dev) : d.dropAlt.hbms = d.hbms := Dev.hbms_congr rfl

@[simp] theorem Dev.sweepOps_hbms (d : Dev) (r : Nat) : (d.sweepOps r).hbms = d.hbms := by
  simp only [Dev.sweepOps]
  refine forEach_hbms _ (fun a d => ?_) _
  split <;> simp

@[simp] theorem Dev.sweepPends_hbms (d : Dev) (r : Nat) : (d.sweepPends r).hbms = d.hbms := by simp [Dev.sweepPends]

@[simp] theorem Dev.sweepColls_hbms (d : Dev) (r : Nat) : (d.sweepColls r).hbms = d.hbms := by simp [Dev.sweepColls]

@[simp] theorem Dev.enterFenced_hbms (d : Dev) (cause : Nat) : (d.enterFenced cause).hbms = d.hbms := by simp [Dev.enterFenced]

@[simp] theorem Dev.silenceFence_hbms (d : Dev) : d.silenceFence.hbms = d.hbms := by simp [Dev.silenceFence]

@[simp] theorem Dev.takeOver_hbms (d : Dev) : d.takeOver.hbms = d.hbms := by
  simp only [Dev.takeOver]
  refine forEach_hbms _ (fun a d => ?_) _
  simp

@[simp] theorem Dev.twinDeath_hbms (d : Dev) : d.twinDeath.hbms = d.hbms := by simp [Dev.twinDeath]

@[simp] theorem Dev.heartbeatIssue_hbms (d : Dev) : d.heartbeatIssue.hbms = d.hbms := by simp [Dev.heartbeatIssue]

@[simp] theorem Dev.heardFence_hbms (d : Dev) (q : Request) : (d.heardFence q).hbms = d.hbms := by
  simp only [Dev.heardFence]
  split <;> simp

@[simp] theorem Dev.heartbeatHeard_hbms (d : Dev) (q : Request) : (d.heartbeatHeard q).hbms = d.hbms := by simp [Dev.heartbeatHeard]

@[simp] theorem Dev.twinHeartbeat_hbms (d : Dev) (q : Request) : (d.twinHeartbeat q).1.hbms = d.hbms := by simp [Dev.twinHeartbeat]

@[simp] theorem Dev.twinSet_hbms (d : Dev) (q : Request) : (d.twinSet q).1.hbms = d.hbms := by simp [Dev.twinSet]

@[simp] theorem Dev.take_hbms (d : Dev) (u : Request) : (d.take u).1.hbms = d.hbms := by simp [Dev.take]

@[simp] theorem Dev.giveBack_hbms (d : Dev) (q : Request) : (d.giveBack q).1.hbms = d.hbms := by simp [Dev.giveBack]

/-! ## The Lantern's timers -/

@[simp] theorem Dev.sleepAll_hbms (d : Dev) : d.sleepAll.hbms = d.hbms := by simp [Dev.sleepAll]

@[simp] theorem Dev.powerSet_hbms (d : Dev) (q : Request) : (d.powerSet q).1.hbms = d.hbms := by simp [Dev.powerSet]

@[simp] theorem Dev.parkSteps_hbms (d : Dev) : d.parkSteps.hbms = d.hbms := by simp [Dev.parkSteps]

@[simp] theorem Dev.windowOpens_hbms (d : Dev) : d.windowOpens.hbms = d.hbms := by
  simp only [Dev.windowOpens]
  split <;> simp

@[simp] theorem Dev.exitDone_hbms (d : Dev) : d.exitDone.hbms = d.hbms := by
  simp only [Dev.exitDone]
  split <;> simp

@[simp] theorem Dev.wakeConfig_hbms (d : Dev) (q : Request) : (d.wakeConfig q).1.hbms = d.hbms := Dev.hbms_congr rfl

@[simp] theorem Dev.sendPattern_hbms (d : Dev) (q : Request) : (d.sendPattern q).1.hbms = d.hbms := by simp [Dev.sendPattern]

/-! ## Start-up -/

@[simp] theorem Dev.bootFence_hbms (d : Dev) : d.bootFence.hbms = d.hbms := by simp [Dev.bootFence]

@[simp] theorem Dev.restore_hbms (d : Dev) : d.restore.hbms = d.hbms := by
  simp [Dev.restore]

@[simp] theorem Dev.loadRecord_hbms (d : Dev) (es : List (Nat × List Byte)) : (d.loadRecord es).hbms = d.hbms := by
  simp only [Dev.loadRecord]
  split <;> simp

@[simp] theorem Dev.bringUp_hbms (d : Dev) : d.bringUp.hbms = d.hbms := by
  simp [Dev.bringUp]

@[simp] theorem Dev.engineLoad_hbms (d : Dev) (code : List Byte) (good : Bool) : (d.engineLoad code good).hbms = d.hbms := by
  simp [Dev.engineLoad]

@[simp] theorem Dev.chipResetCmd_hbms (d : Dev) (q : Request) : (d.chipResetCmd q).1.hbms = d.hbms := by
  simp [Dev.chipResetCmd]

/-! ## Queues and doorbells -/

@[simp] theorem Dev.stopQueue_hbms (d : Dev) (e q code pos : Nat) (inChain : Option Nat) :
    (d.stopQueue e q code pos inChain).hbms = d.hbms := by
  simp [Dev.stopQueue]

@[simp] theorem Dev.malformed_hbms (d : Dev) (e q code pos : Nat) (inChain : Option Nat) :
    (d.malformed e q code pos inChain).hbms = d.hbms := by
  simp [Dev.malformed]

@[simp] theorem Dev.raisePi_hbms (d : Dev) (e q pi : Nat) : (d.raisePi e q pi).hbms = d.hbms := Dev.hbms_congr rfl

@[simp] theorem Dev.sqDoorbell_hbms (d : Dev) (e q pi : Nat) : (d.sqDoorbell e q pi).hbms = d.hbms := by simp [Dev.sqDoorbell]

@[simp] theorem Dev.sqPush_hbms (d : Dev) (e q : Nat) (data : List Byte) : (d.sqPush e q data).hbms = d.hbms := by simp [Dev.sqPush]

@[simp] theorem Dev.cqDoorbell_hbms (d : Dev) (e c v : Nat) : (d.cqDoorbell e c v).hbms = d.hbms := by simp [Dev.cqDoorbell]

@[simp] theorem Dev.eqDoorbell_hbms (d : Dev) (e k v : Nat) : (d.eqDoorbell e k v).hbms = d.hbms := by simp [Dev.eqDoorbell]

@[simp] theorem Dev.bar2Write_hbms (d : Dev) (e off : Nat) (data : List Byte) : (d.bar2Write e off data).hbms = d.hbms := by
  simp [Dev.bar2Write]

@[simp] theorem Dev.sqBaseWrite_hbms (d : Dev) (e q : Nat) (v : Reg) : (d.sqBaseWrite e q v).hbms = d.hbms := by simp [Dev.sqBaseWrite]

@[simp] theorem Dev.sqTryEnable_hbms (d : Dev) (e q : Nat) : (d.sqTryEnable e q).hbms = d.hbms := by simp [Dev.sqTryEnable]

@[simp] theorem Dev.sqEnableLater_hbms (d : Dev) (e q : Nat) : (d.sqEnableLater e q).hbms = d.hbms := by
  simp only [Dev.sqEnableLater]
  split <;> rfl

@[simp] theorem Dev.sqDrain_hbms (d : Dev) (e q : Nat) : (d.sqDrain e q).hbms = d.hbms := Dev.hbms_congr rfl

@[simp] theorem Dev.sqCfgWrite_hbms (d : Dev) (e q : Nat) (v : Reg) : (d.sqCfgWrite e q v).hbms = d.hbms := by simp [Dev.sqCfgWrite]

@[simp] theorem Dev.drainDone_hbms (d : Dev) (e q : Nat) : (d.drainDone e q).hbms = d.hbms := by simp [Dev.drainDone]

@[simp] theorem Dev.cqBaseWrite_hbms (d : Dev) (e c : Nat) (v : Reg) : (d.cqBaseWrite e c v).hbms = d.hbms := by simp [Dev.cqBaseWrite]

@[simp] theorem Dev.eqBaseWrite_hbms (d : Dev) (e k : Nat) (v : Reg) : (d.eqBaseWrite e k v).hbms = d.hbms := by simp [Dev.eqBaseWrite]

@[simp] theorem Dev.cqCfgWrite_hbms (d : Dev) (e c : Nat) (v : Reg) : (d.cqCfgWrite e c v).hbms = d.hbms := by simp [Dev.cqCfgWrite]

@[simp] theorem Dev.eqCfgWrite_hbms (d : Dev) (e k : Nat) (v : Reg) : (d.eqCfgWrite e k v).hbms = d.hbms := by simp [Dev.eqCfgWrite]

@[simp] theorem Dev.recCfgWrite_hbms (d : Dev) (e : Nat) (q : RecQ) (v : Reg) : (d.recCfgWrite e q v).hbms = d.hbms := by
  simp only [Dev.recCfgWrite]
  split <;> simp

@[simp] theorem Dev.dropFetch_hbms (d : Dev) (e q : Nat) : (d.dropFetch e q).hbms = d.hbms := Dev.hbms_congr rfl

@[simp] theorem Dev.withdrawRecvs_hbms (d : Dev) (e q : Nat) : (d.withdrawRecvs e q).hbms = d.hbms := by simp [Dev.withdrawRecvs]

@[simp] theorem Dev.abandonOps_hbms (d : Dev) (e q : Nat) : (d.abandonOps e q).hbms = d.hbms := by simp [Dev.abandonOps]

@[simp] theorem Dev.abandonRest_hbms (d : Dev) (e q : Nat) : (d.abandonRest e q).hbms = d.hbms := by simp [Dev.abandonRest]

@[simp] theorem Dev.sqReset_hbms (d : Dev) (e q : Nat) : (d.sqReset e q).hbms = d.hbms := by simp [Dev.sqReset]

@[simp] theorem Dev.dropRecvs_hbms (d : Dev) (e q : Nat) : (d.dropRecvs e q).hbms = d.hbms := by simp [Dev.dropRecvs]

@[simp] theorem Dev.flush_hbms (d : Dev) (e q : Nat) (a : Accepted) : (d.flush e q a).hbms = d.hbms := by simp [Dev.flush]

@[simp] theorem Dev.sqResetEnd_hbms (d : Dev) (e q : Nat) : (d.sqResetEnd e q).hbms = d.hbms := by simp [Dev.sqResetEnd]

/-! ## Porter -/

@[simp] theorem Dev.takeEntry_hbms (d : Dev) (e q : Nat) (b : List Byte) (room : Option Nat) :
    (d.takeEntry e q b room).hbms = d.hbms := by
  simp only [Dev.takeEntry]
  split <;> simp

@[simp] theorem Dev.fetchNext_hbms (d : Dev) (e q : Nat) : (d.fetchNext e q).hbms = d.hbms := by
  simp only [Dev.fetchNext]
  split
  · simp
  · split <;> simp

@[simp] theorem Dev.entryFetch_hbms (d : Dev) (e : Nat) : (d.entryFetch e).hbms = d.hbms := by
  simp only [Dev.entryFetch]
  split <;> simp

@[simp] theorem Dev.ringRead_hbms (d : Dev) (e q : Nat) (res : HostRes) : (d.ringRead e q res).hbms = d.hbms := by
  simp only [Dev.ringRead]
  split <;> simp

@[simp] theorem Dev.chainRead_hbms (d : Dev) (e q : Nat) (res : HostRes) : (d.chainRead e q res).hbms = d.hbms := by
  simp only [Dev.chainRead]
  split <;> simp

@[simp] theorem Dev.accept_hbms (d : Dev) (e q : Nat) (h : Fetched) : (d.accept e q h).hbms = d.hbms := by
  simp only [Dev.accept]
  split <;> simp

@[simp] theorem Dev.entryRow_hbms (d : Dev) (e q op : Nat) {go : Dev → Nat → List Byte → Dev}
    (h : ∀ d id b, (go d id b).hbms = d.hbms) : (d.entryRow e q op go).hbms = d.hbms := by
  simp only [Dev.entryRow]
  split <;> simp [h]

@[simp] theorem Dev.handTo_hbms (d : Dev) (r : Nat) {f : Dev → Dev} (h : ∀ d, (f d).hbms = d.hbms) : (d.handTo r f).hbms = d.hbms := by
  simp [Dev.handTo, h]

@[simp] theorem Dev.nopEntry_hbms (d : Dev) (e q : Nat) : (d.nopEntry e q).hbms = d.hbms := by simp [Dev.nopEntry]

@[simp] theorem Dev.chainEntry_hbms (d : Dev) (e q : Nat) : (d.chainEntry e q).hbms = d.hbms := by simp [Dev.chainEntry]

@[simp] theorem Dev.rmaOp_hbms (d : Dev) (o : Op) : (d.rmaOp o).hbms = d.hbms := by simp [Dev.rmaOp]

@[simp] theorem Dev.putEntry_hbms (d : Dev) (e q : Nat) : (d.putEntry e q).hbms = d.hbms := by simp [Dev.putEntry]

@[simp] theorem Dev.putInlineEntry_hbms (d : Dev) (e q : Nat) : (d.putInlineEntry e q).hbms = d.hbms := by simp [Dev.putInlineEntry]

@[simp] theorem Dev.getEntry_hbms (d : Dev) (e q : Nat) : (d.getEntry e q).hbms = d.hbms := by simp [Dev.getEntry]

@[simp] theorem Dev.putSignalEntry_hbms (d : Dev) (e q : Nat) : (d.putSignalEntry e q).hbms = d.hbms := by simp [Dev.putSignalEntry]

@[simp] theorem Dev.atomicEntry_hbms (d : Dev) (e q id width : Nat) (b : List Byte) :
    (d.atomicEntry e q id width b).hbms = d.hbms := by
  simp [Dev.atomicEntry]

@[simp] theorem Dev.atomic64Entry_hbms (d : Dev) (e q : Nat) : (d.atomic64Entry e q).hbms = d.hbms := by simp [Dev.atomic64Entry]

@[simp] theorem Dev.atomic128Entry_hbms (d : Dev) (e q : Nat) : (d.atomic128Entry e q).hbms = d.hbms := by simp [Dev.atomic128Entry]

@[simp] theorem Dev.messageOp_hbms (d : Dev) (e q id : Nat) (b : List Byte) (inline : Bool) :
    (d.messageOp e q id b inline).hbms = d.hbms := by
  simp [Dev.messageOp]

@[simp] theorem Dev.sendEntry_hbms (d : Dev) (e q : Nat) : (d.sendEntry e q).hbms = d.hbms := by simp [Dev.sendEntry]

@[simp] theorem Dev.sendInlineEntry_hbms (d : Dev) (e q : Nat) : (d.sendInlineEntry e q).hbms = d.hbms := by simp [Dev.sendInlineEntry]

@[simp] theorem Dev.recvEntry_hbms (d : Dev) (e q : Nat) : (d.recvEntry e q).hbms = d.hbms := by simp [Dev.recvEntry]

@[simp] theorem Dev.collEntry_hbms (d : Dev) (e q : Nat) : (d.collEntry e q).hbms = d.hbms := by simp [Dev.collEntry]

@[simp] theorem Dev.lockOp_hbms (d : Dev) (e q id : Nat) (b : List Byte) (unlock : Bool) :
    (d.lockOp e q id b unlock).hbms = d.hbms := by
  simp [Dev.lockOp]

@[simp] theorem Dev.lockEntry_hbms (d : Dev) (e q : Nat) : (d.lockEntry e q).hbms = d.hbms := by simp [Dev.lockEntry]

@[simp] theorem Dev.unlockEntry_hbms (d : Dev) (e q : Nat) : (d.unlockEntry e q).hbms = d.hbms := by simp [Dev.unlockEntry]

@[simp] theorem Dev.cmdRow_hbms (d : Dev) (e q : Nat) : (d.cmdRow e q).hbms = d.hbms := by
  refine Dev.entryRow_hbms _ _ _ _ fun d id b => ?_
  split <;> simp

/-! ## Completions of reads -/

@[simp] theorem Dev.answer_hbms (d : Dev) (e : Nat) (who : Who) (res : HostRes) : (d.answer e who res).hbms = d.hbms := by
  simp only [Dev.answer]
  split
  · simp
  · split <;> simp
  · simp
  · simp
  · simp
  · simp
  · simp
  · rfl
  · rfl
  · rfl
  · rfl

@[simp] theorem Dev.readingEnd_hbms (d : Dev) (e : Nat) (y : Reading) (res : HostRes) : (d.readingEnd e y res).hbms = d.hbms := by
  simp only [Dev.readingEnd]
  split <;> simp

@[simp] theorem Dev.hostEnd_hbms (d : Dev) (e : Nat) (t : Tag) (res : HostRes) : (d.hostEnd e t res).hbms = d.hbms := by
  simp only [Dev.hostEnd]
  split
  · simp
  · split <;> simp

@[simp] theorem Dev.cplTimeout_hbms (d : Dev) (e tag : Nat) : (d.cplTimeout e tag).hbms = d.hbms := by
  simp only [Dev.cplTimeout]
  split <;> simp

@[simp] theorem Dev.unexpected_hbms (d : Dev) (e : Nat) : (d.unexpected e).hbms = d.hbms := Dev.hbms_congr rfl

@[simp] theorem Dev.completed_hbms (d : Dev) (e : Nat) (t : Tag) (c : Completion) : (d.completed e t c).hbms = d.hbms := by
  simp only [Dev.completed]
  split
  · simp
  · split
    · simp
    · split <;> simp

@[simp] theorem Dev.completionReceived_hbms (d : Dev) (e : Nat) (c : Completion) : (d.completionReceived e c).hbms = d.hbms := by
  simp only [Dev.completionReceived]
  split <;> simp

@[simp] theorem Dev.quarantineEnd_hbms (d : Dev) (e tag : Nat) : (d.quarantineEnd e tag).hbms = d.hbms := by
  simp only [Dev.quarantineEnd]
  split <;> simp

@[simp] theorem Dev.endRequest_hbms (d : Dev) (e : Nat) (who : Who) (res : HostRes) : (d.endRequest e who res).hbms = d.hbms := by
  simp only [Dev.endRequest]
  split
  · rfl
  · split
    · simp
    · split <;> simp

@[simp] theorem Dev.walkReadComplete_hbms (d : Dev) (e id : Nat) (res : HostRes) : (d.walkReadComplete e id res).hbms = d.hbms := by
  simp only [Dev.walkReadComplete]
  split <;> simp

@[simp] theorem Dev.workRequest_hbms (d : Dev) (r id : Nat) (here : WStage → Bool) (res : HostRes) :
    (d.workRequest r id here res).hbms = d.hbms := by
  simp only [Dev.workRequest]
  split <;> simp

@[simp] theorem Dev.contribRequest_hbms (d : Dev) (r id c seg : Nat) (res : HostRes) :
    (d.contribRequest r id c seg res).hbms = d.hbms := by
  simp only [Dev.contribRequest]
  split <;> simp

@[simp] theorem Dev.ringFetchFail_hbms (d : Dev) (e q : Nat) (res : HostRes) : (d.ringFetchFail e q res).hbms = d.hbms := by
  simp only [Dev.ringFetchFail]
  split <;> simp

/-! ## Errors -/

@[simp] theorem Dev.limitEvent_hbms (d : Dev) (r k bitNo rise limit : Nat) : (d.limitEvent r k bitNo rise limit).hbms = d.hbms := by
  simp only [Dev.limitEvent]
  split <;> rfl

@[simp] theorem Dev.errorWindowEnd_hbms (d : Dev) : d.errorWindowEnd.hbms = d.hbms := by
  simp [Dev.errorWindowEnd]

@[simp] theorem Dev.rise_hbms (d : Dev) (r sram hbm : Nat) : (d.rise r sram hbm).hbms = d.hbms := by
  simp [Dev.rise]

@[simp] theorem Dev.corrected_hbms (d : Dev) (scope : ErrScope) (hbm : Bool) : (d.corrected scope hbm).hbms = d.hbms := by
  simp only [Dev.corrected]
  split
  · simp
  · split <;> simp

@[simp] theorem Dev.loseFlits_hbms (d : Dev) (r input vc : Nat) : (d.loseFlits r input vc).hbms = d.hbms := by
  simp only [Dev.loseFlits]
  split <;> simp

@[simp] theorem Dev.hbmBad_hbms (d : Dev) (r : Nat) : (d.hbmBad r).hbms = d.hbms := Dev.hbms_congr rfl

@[simp] theorem Dev.eachEntry_hbms (d : Dev) (r id : Nat) {f : Nat → Match → Dev → Dev} (h : ∀ e m d, (f e m d).hbms = d.hbms) :
    (d.eachEntry r id f).hbms = d.hbms := by
  refine forEach_hbms _ (fun e d => ?_) d
  split <;> simp [h]

@[simp] theorem Dev.quarantined_hbms (d : Dev) (island r ctr kind index : Nat) :
    (d.quarantined island r ctr kind index).hbms = d.hbms := Dev.hbms_congr rfl

@[simp] theorem Dev.modQuarantine_hbms (d : Dev) (f : Quarantine → Quarantine) :
    (d.modQuarantine f).hbms = d.hbms := Dev.hbms_congr rfl

@[simp] theorem Dev.badEngine_hbms (d : Dev) (e : Nat) : (d.badEngine e).hbms = d.hbms := by simp [Dev.badEngine]

@[simp] theorem Dev.badLane_hbms (d : Dev) (p l : Nat) : (d.badLane p l).hbms = d.hbms := by simp [Dev.badLane]

@[simp] theorem Dev.badInput_hbms (d : Dev) (r x : Nat) : (d.badInput r x).hbms = d.hbms := by simp [Dev.badInput]

@[simp] theorem Dev.badBank_hbms (d : Dev) (r array bank : Nat) : (d.badBank r array bank).hbms = d.hbms := by simp [Dev.badBank]

@[simp] theorem Dev.badTable_hbms (d : Dev) (e id : Nat) : (d.badTable e id).hbms = d.hbms := by
  simp only [Dev.badTable]
  split <;> simp

@[simp] theorem Dev.dropItem_hbms (d : Dev) (r item : Nat) : (d.dropItem r item).hbms = d.hbms := by simp [Dev.dropItem]

@[simp] theorem Dev.dispose_hbms (d : Dev) (what : ErrData) : (d.dispose what).hbms = d.hbms := by
  cases what <;> simp [Dev.dispose]

@[simp] theorem Dev.uncorrectable_hbms (d : Dev) (scope : ErrScope) (what : ErrData) : (d.uncorrectable scope what).hbms = d.hbms := by
  simp only [Dev.uncorrectable]
  split
  · simp
  · split <;> simp

@[simp] theorem Dev.spareCopy_hbms (d : Dev) (r : Fin 4) (array bank : Nat) (dropped : List ErrData) :
    (d.spareCopy r array bank dropped).hbms = d.hbms := by
  simp [Dev.spareCopy]

/-! ## Events -/

@[simp] theorem Dev.modEvents_hbms (d : Dev) (f : Events → Events) : (d.modEvents f).hbms = d.hbms := Dev.hbms_congr rfl

@[simp] theorem Dev.buildRecord_hbms (d : Dev) (entry : Nat) (r : Raise) (count : Nat) (hard : Bool) :
    (d.buildRecord entry r count hard).hbms = d.hbms := by
  simp only [Dev.buildRecord]
  split <;> simp

@[simp] theorem Dev.endWindow_hbms (d : Dev) (src : Nat) (again : Bool) : (d.endWindow src again).hbms = d.hbms := by
  simp only [Dev.endWindow]
  split <;> simp

@[simp] theorem Dev.holdoffEnd_hbms (d : Dev) (src : Nat) : (d.holdoffEnd src).hbms = d.hbms := by
  simp only [Dev.holdoffEnd]
  split <;> simp

@[simp] theorem Dev.recordRaise_hbms (d : Dev) (x : Raise) : (d.recordRaise x).hbms = d.hbms := by
  simp only [Dev.recordRaise]
  split <;> simp

@[simp] theorem Dev.setPending_hbms (d : Dev) (src : Nat) : (d.setPending src).hbms = d.hbms := Dev.hbms_congr rfl

@[simp] theorem Dev.eventRaise_hbms (d : Dev) : d.eventRaise.hbms = d.hbms := by
  simp only [Dev.eventRaise]
  split
  · rfl
  · simp

@[simp] theorem Dev.pendClear_hbms (d : Dev) (e w value : Nat) : (d.pendClear e w value).hbms = d.hbms := by simp [Dev.pendClear]

@[simp] theorem Dev.setMap_hbms (d : Dev) (s m : Nat) : (d.setMap s m).hbms = d.hbms := by simp [Dev.setMap]

@[simp] theorem Dev.eventMapSet_hbms (d : Dev) (q : Request) : (d.eventMapSet q).1.hbms = d.hbms := by simp [Dev.eventMapSet]

@[simp] theorem Dev.eventInject_hbms (d : Dev) (q : Request) : (d.eventInject q).1.hbms = d.hbms := by
  simp [Dev.eventInject]

/-! ## Keys -/

@[simp] theorem Dev.invalidate_hbms (d : Dev) (e : Nat) (c : Cover) : (d.invalidate e c).1.hbms = d.hbms := Dev.hbms_congr rfl

@[simp] theorem Dev.trOp_hbms (d : Dev) (e : Nat) (v : Reg) : (d.trOp e v).hbms = d.hbms := by simp [Dev.trOp]

@[simp] theorem Dev.invalDone_hbms (d : Dev) (e : Nat) : (d.invalDone e).hbms = d.hbms := by
  simp only [Dev.invalDone]
  split <;> simp

@[simp] theorem Dev.keyOpWrite_hbms (d : Dev) (e : Nat) (v : Reg) : (d.keyOpWrite e v).hbms = d.hbms := by simp [Dev.keyOpWrite]

@[simp] theorem Dev.keyReject_hbms (d : Dev) (e : Nat) : (d.keyReject e).hbms = d.hbms := Dev.hbms_congr rfl

@[simp] theorem Dev.keySet_hbms (d : Dev) (e k s0 base limit : Nat) : (d.keySet e k s0 base limit).hbms = d.hbms := by
  simp [Dev.keySet]

@[simp] theorem Dev.keyRevoke_hbms (d : Dev) (e k : Nat) : (d.keyRevoke e k).hbms = d.hbms := by simp [Dev.keyRevoke]

@[simp] theorem Dev.keyOpRegistered_hbms (d : Dev) (e op : Nat) : (d.keyOpRegistered e op).hbms = d.hbms := by
  simp only [Dev.keyOpRegistered]
  split <;> simp

@[simp] theorem Dev.revokeDone_hbms (d : Dev) (e k : Nat) : (d.revokeDone e k).hbms = d.hbms := by simp [Dev.revokeDone]

@[simp] theorem Dev.apertureRead_hbms (d : Dev) (e off : Nat) : (d.apertureRead e off).1.hbms = d.hbms := by
  simp only [Dev.apertureRead]
  split <;> rfl

@[simp] theorem Dev.apertureReject_hbms (d : Dev) (e : Nat) : (d.apertureReject e).hbms = d.hbms := Dev.hbms_congr rfl

/-! ## Locksmith's commands -/

@[simp] theorem Dev.lockForceRelease_hbms (d : Dev) (q : Request) : (d.lockForceRelease q).1.hbms = d.hbms := by
  simp [Dev.lockForceRelease]

@[simp] theorem Dev.lockAbandon_hbms (d : Dev) (q : Request) : (d.lockAbandon q).1.hbms = d.hbms := by
  simp [Dev.lockAbandon]

@[simp] theorem Dev.lockRead_hbms (d : Dev) (q : Request) : (d.lockRead q).1.hbms = d.hbms := Dev.hbms_congr rfl

@[simp] theorem Dev.chipApply_hbms (d : Dev) (r : Nat) (reg : ChipReg) : (d.chipApply r reg).hbms = d.hbms := by simp [Dev.chipApply]

/-! ## The PCI Express configuration -/

@[simp] theorem Dev.configWrite_hbms (d : Dev) (e : Nat) (w : CfgWrite) : (d.configWrite e w).hbms = d.hbms := by
  simp [Dev.configWrite]

@[simp] theorem Dev.configAccess_hbms (d : Dev) (e : Nat) (acc : CfgAccess) : (d.configAccess e acc).hbms = d.hbms := by
  simp only [Dev.configAccess]
  split <;> simp

/-! ## Registers -/

@[simp] theorem Dev.afterRead_hbms (d : Dev) (e : Nat) (u : RegAt) : (d.afterRead e u).hbms = d.hbms := by
  simp only [Dev.afterRead]
  split <;> simp

@[simp] theorem Dev.writeChip_hbms (d : Dev) (c : ChipReg) (v : Reg) : (d.writeChip c v).hbms = d.hbms := Dev.hbms_congr rfl

@[simp] theorem Dev.writePortCtrl_hbms (d : Dev) (p : Nat) (v : Reg) : (d.writePortCtrl p v).hbms = d.hbms := by
  simp [Dev.writePortCtrl]

@[simp] theorem Dev.writePortRoute_hbms (d : Dev) (p : Nat) (v : Reg) : (d.writePortRoute p v).hbms = d.hbms := by
  simp [Dev.writePortRoute]

@[simp] theorem Dev.writePort_hbms (d : Dev) (p word : Nat) (v : Reg) : (d.writePort p word v).hbms = d.hbms := by
  simp only [Dev.writePort]
  split <;> simp

@[simp] theorem Dev.writeGateCtrl_hbms (d : Dev) (e : Nat) (v : Reg) : (d.writeGateCtrl e v).hbms = d.hbms := by
  simp [Dev.writeGateCtrl]

@[simp] theorem Dev.writeSq_hbms (d : Dev) (e q word : Nat) (v : Reg) : (d.writeSq e q word v).hbms = d.hbms := by
  simp only [Dev.writeSq]
  split <;> simp

@[simp] theorem Dev.writeCq_hbms (d : Dev) (e c word : Nat) (v : Reg) : (d.writeCq e c word v).hbms = d.hbms := by
  simp only [Dev.writeCq]
  split <;> simp

@[simp] theorem Dev.writeEq_hbms (d : Dev) (e k word : Nat) (v : Reg) : (d.writeEq e k word v).hbms = d.hbms := by
  simp only [Dev.writeEq]
  split <;> simp

@[simp] theorem Dev.writeTranslation_hbms (d : Dev) (e word : Nat) (v : Reg) : (d.writeTranslation e word v).hbms = d.hbms := by
  simp only [Dev.writeTranslation]
  split <;> simp

@[simp] theorem Dev.writeMsix_hbms (d : Dev) (e n : Nat) (high : Bool) (v : Reg) : (d.writeMsix e n high v).hbms = d.hbms := by
  simp [Dev.writeMsix]

@[simp] theorem Dev.writeEpochs_hbms (d : Dev) (k : Nat) (v : Reg) : (d.writeEpochs k v).hbms = d.hbms := Dev.hbms_congr rfl

@[simp] theorem Dev.writeWake_hbms (d : Dev) (word : Nat) (v : Reg) : (d.writeWake word v).hbms = d.hbms := by
  simp only [Dev.writeWake]
  split <;> rfl

@[simp] theorem Dev.clearCounters_hbms (d : Dev) (first n : Nat) : (d.clearCounters first n).hbms = d.hbms := Dev.hbms_congr rfl

@[simp] theorem Dev.counterRead_hbms (d : Dev) (q : Request) : (d.counterRead q).1.hbms = d.hbms := by simp [Dev.counterRead]

@[simp] theorem Dev.counterClear_hbms (d : Dev) (q : Request) : (d.counterClear q).1.hbms = d.hbms := by simp [Dev.counterClear]

/-! ## Silent errors -/

@[simp] theorem Dev.firmwareCapture_hbms (d : Dev) (p : List Byte) (raw : List (List Byte)) :
    (d.firmwareCapture p raw).hbms = d.hbms := by
  simp only [Dev.firmwareCapture]
  split
  · rfl
  · refine forEach_hbms _ (fun a d => ?_) _
    split
    · rfl
    · split <;> simp

@[simp] theorem Dev.slip_hbms (d : Dev) (p : List Byte) : (d.slip p).hbms = d.hbms := Dev.hbms_congr rfl

@[simp] theorem Dev.slipBody_hbms (d : Dev) (q : Request) : (d.slipBody q).1.hbms = d.hbms := by simp [Dev.slipBody]

@[simp] theorem Dev.findDelays_hbms (d : Dev) (port : Nat) (seen : List (Nat × Nat × Nat)) :
    (d.findDelays port seen).hbms = d.hbms := by
  simp [Dev.findDelays]

@[simp] theorem Dev.becomeAligned_hbms (d : Dev) (port : Nat) : (d.becomeAligned port).hbms = d.hbms := by
  simp only [Dev.becomeAligned]
  split <;> simp

@[simp] theorem Dev.checkFails_hbms (d : Dev) (port : Nat) : (d.checkFails port).hbms = d.hbms := Dev.hbms_congr rfl

@[simp] theorem Dev.check_hbms (d : Dev) (p : List Byte) (seen : List (Nat × Nat)) (firmware : Bool) :
    (d.check p seen firmware).hbms = d.hbms := by
  simp [Dev.check]

@[simp] theorem Dev.checkBody_hbms (d : Dev) (q : Request) (seen : List (Nat × Nat)) : (d.checkBody q seen).1.hbms = d.hbms := by
  simp [Dev.checkBody]

@[simp] theorem Dev.readBody_hbms (d : Dev) (q : Request) : (d.readBody q).1.hbms = d.hbms := by simp [Dev.readBody]

/-! ## A tick -/

@[simp] theorem Dev.tickRegion_hbms (d : Dev) (r : Nat) : (d.tickRegion r).hbms = d.hbms := by simp [Dev.tickRegion]

@[simp] theorem Dev.tick_hbms (d : Dev) : d.tick.hbms = d.hbms := by
  simp only [Dev.tick]
  refine forEach_hbms _ (fun a d => ?_) _
  simp

end Sys2Proof.Machine
end

section
/-! The canonical form of the HBM of every region under the functions that do change it: writes through BAR4 and the
aperture keep it, and a reset leaves no byte. -/

namespace Sys2Proof.Machine

/-! ## Memories in canonical form -/

/-- Each region's HBM is in canonical form. -/
def HbmsWf (m : Nat → List Host.Cell) : Prop := ∀ r, Memory.wf hbmDefault (m r) = true

@[simp] theorem HbmsWf.ite {c : Prop} [Decidable c] {m n : Nat → List Host.Cell} :
    HbmsWf (if c then m else n) ↔ if c then HbmsWf m else HbmsWf n := by
  split <;> rfl

theorem Dev.ite_hbmsWf {c : Prop} [Decidable c] {a b : Dev} (ha : HbmsWf a.hbms) (hb : HbmsWf b.hbms) :
    HbmsWf (if c then a else b).hbms := by
  split <;> assumption

/-- What keeps the form at each step keeps it after them all. -/
theorem forEach_hbmsWf {α : Type} (xs : List α) {f : α → Dev → Dev} (hf : ∀ a d, HbmsWf d.hbms → HbmsWf (f a d).hbms) {d : Dev}
    (h : HbmsWf d.hbms) : HbmsWf (forEach xs f d).hbms :=
  forEach_keeps (P := fun e => HbmsWf e.hbms) f hf xs d h

/-! ## Writes -/

theorem Dev.hbmWrite_hbms (d : Dev) (r a : Nat) (bs : List Byte) :
    (d.hbmWrite r a bs).hbms = fun q => if q = r then Memory.writeN hbmDefault (d.hbms r) a bs else d.hbms q :=
  d.setRegion_hbms_eq r _

theorem Dev.hbmWrite_hbmsWf {d : Dev} (h : HbmsWf d.hbms) (r a : Nat) (bs : List Byte) : HbmsWf (d.hbmWrite r a bs).hbms := by
  rw [Dev.hbmWrite_hbms]
  intro q
  dsimp only
  split
  · exact Memory.writeN_wf (h r) a bs
  · exact h q

theorem Dev.bar4_hbmsWf {d : Dev} (h : HbmsWf d.hbms) (e off : Nat) (acc : Access) : HbmsWf (d.bar4 e off acc).hbms := by
  cases acc with
  | read n => simpa [Dev.bar4] using h
  | write data =>
    have fits : HbmsWf (d.bar4Fit e off data.length).1.hbms := by simpa using h
    simp only [Dev.bar4]
    split
    · exact fits
    · split
      · exact Dev.hbmWrite_hbmsWf fits _ _ _
      · simpa using h

theorem Dev.bar4Access_hbmsWf {d : Dev} (h : HbmsWf d.hbms) (e off : Nat) (acc : Access) : HbmsWf (d.bar4Access e off acc).hbms := by
  unfold Dev.bar4Access
  split
  · exact Dev.bar4_hbmsWf h e off acc
  · split <;> simpa using h

theorem Dev.apertureWrite_hbmsWf {d : Dev} (h : HbmsWf d.hbms) (e off : Nat) (data : List Byte) :
    HbmsWf (d.apertureWrite e off data).hbms := by
  unfold Dev.apertureWrite
  dsimp only
  split
  · simpa using h
  · split
    · exact Dev.hbmWrite_hbmsWf h _ _ _
    · simpa using h

theorem Dev.apertureAccess_hbmsWf {d : Dev} (h : HbmsWf d.hbms) (e off : Nat) (acc : Access) :
    HbmsWf (d.apertureAccess e off acc).hbms := by
  unfold Dev.apertureAccess
  dsimp only
  split
  · simpa using h
  · simpa using h
  · split
    · exact Dev.hbmWrite_hbmsWf h _ _ _
    · simpa using h
  · simpa using h

theorem Dev.aperture_hbmsWf {d : Dev} (h : HbmsWf d.hbms) (e off : Nat) (acc : Access) : HbmsWf (d.aperture e off acc).hbms := by
  unfold Dev.aperture
  split
  · exact Dev.apertureAccess_hbmsWf h e off _
  · simpa using h
  · exact h

/-! ## Registers -/

/-- Of the registers, only the aperture leads to the HBM. -/
theorem Dev.writeReg_hbmsWf {d : Dev} (h : HbmsWf d.hbms) (e : Nat) (a : RegAt) (v : Reg) : HbmsWf (d.writeReg e a v).hbms := by
  cases a with
  | aperture o => exact Dev.apertureWrite_hbmsWf h e o _
  | _ => simpa [Dev.writeReg] using h

theorem Dev.writeHalf_hbmsWf {d : Dev} (h : HbmsWf d.hbms) (e : Nat) (a : RegAt) (high : Bool) (v : Nat) :
    HbmsWf (d.writeHalf e a high v).hbms := by
  simp only [Dev.writeHalf]
  split
  · exact h
  · exact Dev.writeReg_hbmsWf h e a _

theorem Dev.bar0Write_hbmsWf {d : Dev} (h : HbmsWf d.hbms) (e off size : Nat) (v : Reg) : HbmsWf (d.bar0Write e off size v).hbms := by
  simp only [Dev.bar0Write]
  split
  · exact h
  · split
    · exact Dev.apertureAccess_hbmsWf h e _ _
    · split
      · simpa using h
      · split
        · simpa using h
        · split
          · simpa using h
          · split
            · exact Dev.writeReg_hbmsWf h e _ v
            · exact Dev.writeHalf_hbmsWf h e _ _ _

theorem Dev.bar0Read_hbmsWf {d : Dev} (h : HbmsWf d.hbms) (f : Fuses) (e off size : Nat) : HbmsWf (d.bar0Read f e off size).hbms := by
  simp only [Dev.bar0Read]
  split
  · simpa using h
  · exact Dev.apertureAccess_hbmsWf h e _ _
  · split
    · simpa using h
    · split <;> simpa using h

theorem Dev.barAccess_hbmsWf {d : Dev} (h : HbmsWf d.hbms) (f : Fuses) (e : Nat) (acc : BarAccess) :
    HbmsWf (d.barAccess f e acc).hbms := by
  cases acc with
  | write off size v => exact Dev.bar0Write_hbmsWf h e off size v
  | read off size => exact Dev.bar0Read_hbmsWf h f e off size
  | readDoorbells _ size => simpa [Dev.barAccess] using h

theorem Dev.regWrite_hbmsWf {d : Dev} (h : HbmsWf d.hbms) (q : Request) : HbmsWf (d.regWrite q).1.hbms := by
  simp only [Dev.regWrite]
  split
  · exact h
  · exact forEach_hbmsWf _ (fun _ _ he => Dev.writeReg_hbmsWf he _ _ _) h

theorem State.regModify_hbmsWf {s : State} (h : HbmsWf s.dev.hbms) (q : Request) : HbmsWf (s.regModify q).1.dev.hbms := by
  simp only [State.regModify]
  split
  · exact h
  · exact Dev.writeReg_hbmsWf (by simpa using h) _ _ _

/-! ## Resets -/

/-- A chip reset leaves no byte of any region's HBM. -/
@[simp] theorem Dev.chipReset_hbms (d : Dev) : d.chipReset.hbms = fun _ => [] := by
  funext r
  simp only [Dev.hbms, Dev.region, Dev.chipReset_regions, tgetD, tget_map]
  cases tget d.regions r <;> rfl

@[simp] theorem Dev.vlanternApplied_hbms (d : Dev) : d.vlanternApplied.hbms = fun _ => [] := (rfl)

theorem hbmsWf_nil : HbmsWf fun _ => [] := fun _ => rfl

@[simp] theorem Dev.powerOff_hbms (d : Dev) : d.powerOff.hbms = fun _ => [] := by
  rw [Dev.powerOff, Dev.removeRails_hbms, Dev.modLantern_hbms]
  exact (Dev.hbms_congr rfl).trans d.chipReset_hbms

@[simp] theorem Dev.resetAll_hbms (d : Dev) (cause cells : Nat) : (d.resetAll cause cells).hbms = fun _ => [] := by
  simp [Dev.resetAll]

@[simp] theorem Dev.faultEntry_hbms (d : Dev) (kind group : Nat) : (d.faultEntry kind group).hbms = fun _ => [] := by
  simp [Dev.faultEntry]

@[simp] theorem Dev.vlanternRemoved_hbms (d : Dev) : d.vlanternRemoved.hbms = fun _ => [] := d.chipReset_hbms

theorem Dev.railStartFault_hbmsWf {d : Dev} (h : HbmsWf d.hbms) : HbmsWf d.railStartFault.hbms := by
  unfold Dev.railStartFault
  split
  · split
    · exact h
    · simpa using hbmsWf_nil
  · exact h

theorem Dev.brownOut_hbmsWf {d : Dev} (h : HbmsWf d.hbms) (g : Rail) : HbmsWf (d.brownOut g).hbms := by
  simp [Dev.brownOut, h, hbmsWf_nil]

theorem Dev.thermalSample_hbmsWf {d : Dev} (h : HbmsWf d.hbms) (readings : List Int) : HbmsWf (d.thermalSample readings).hbms := by
  simp only [Dev.thermalSample]
  split
  · simpa using hbmsWf_nil
  · simpa using h

theorem Dev.resetNAsserted_hbmsWf {d : Dev} (h : HbmsWf d.hbms) : HbmsWf d.resetNAsserted.hbms := by
  simp [Dev.resetNAsserted, h, hbmsWf_nil]

theorem Dev.chipResetDelayEnd_hbmsWf {d : Dev} (h : HbmsWf d.hbms) : HbmsWf d.chipResetDelayEnd.hbms := by
  unfold Dev.chipResetDelayEnd
  split
  · exact h
  · split
    · exact h
    · simpa using hbmsWf_nil

/-- The entry to P3 is a power loss, that to P2 keeps the HBM. -/
theorem Dev.entryEnd_hbmsWf {d : Dev} (h : HbmsWf d.hbms) (target : Nat) : HbmsWf (d.entryEnd target).hbms := by
  simp [Dev.entryEnd, h, hbmsWf_nil]

theorem Dev.windowEnds_hbmsWf {d : Dev} (h : HbmsWf d.hbms) : HbmsWf d.windowEnds.hbms := by
  unfold Dev.windowEnds
  split
  · split
    · exact h
    · exact Dev.entryEnd_hbmsWf (by simpa using h) _
  · exact h

/-! ## Wakes, and the link units that bring them -/

theorem Dev.wake_hbmsWf {d : Dev} (h : HbmsWf d.hbms) (code loc : Nat) : HbmsWf (d.wake code loc).hbms := by
  simp only [Dev.wake]
  split
  · exact h
  · split
    · next e _ =>
      split
      · exact h
      · split
        · simpa using h
        · split
          · simpa using h
          · have ended := Dev.entryEnd_hbmsWf h e.target
            split <;> simpa using ended
    · simpa using h

theorem Dev.wakeInTick_hbmsWf {d : Dev} (h : HbmsWf d.hbms) (high : Bool) : HbmsWf (d.wakeInTick high).hbms :=
  Dev.ite_hbmsWf h (Dev.ite_hbmsWf (Dev.wake_hbmsWf (by simpa using h) 1 0) (by simpa using h))

theorem Dev.wakeRegistered_hbmsWf {d : Dev} (h : HbmsWf d.hbms) (source : WakeSource) : HbmsWf (d.wakeRegistered source).hbms := by
  cases source with
  | wakeIn samples => exact forEach_hbmsWf _ (fun high _ he => Dev.wakeInTick_hbmsWf he high) h
  | attention cage =>
    simp only [Dev.wakeRegistered]
    split
    · exact Dev.wake_hbmsWf h _ _
    · exact h
  | bellrope | linkActivity | linkPattern | gate => exact Dev.wake_hbmsWf h _ _

theorem Dev.ropeMatch_hbmsWf {d : Dev} (h : HbmsWf d.hbms) (addr : Nat) (wake : Bool) : HbmsWf (d.ropeMatch addr wake).hbms := by
  simp only [Dev.ropeMatch]
  split
  · exact h
  · split
    · simpa using h
    · split
      · have woken : HbmsWf ((d.count Ctr.brFrames).wake 2 0).hbms := Dev.wake_hbmsWf (by simpa using h) 2 0
        split <;> simpa using woken
      · simpa using h

theorem Dev.linkWake_hbmsWf {d : Dev} (h : HbmsWf d.hbms) (p : Nat) : HbmsWf (d.linkWake p).hbms := by
  unfold Dev.linkWake
  split
  · exact Dev.wake_hbmsWf h 4 p
  · exact h

theorem Dev.takeData_hbmsWf {d : Dev} (h : HbmsWf d.hbms) (p : Nat) (c : Control) (flits : List (Nat × Flit)) :
    HbmsWf (d.takeData p c flits).hbms := by
  simp only [Dev.takeData]
  split
  · exact Dev.linkWake_hbmsWf (by simpa using h) p
  · split
    · exact Dev.linkWake_hbmsWf (by simpa using h) p
    · simpa using h

theorem Dev.takeUnit_hbmsWf {d : Dev} (h : HbmsWf d.hbms) (p : Nat) (c : Control) (flits : List (Nat × Flit)) :
    HbmsWf (d.takeUnit p c flits).hbms := by
  have applied : HbmsWf (d.applyControl p c).hbms := by simpa using h
  have taken := Dev.takeData_hbmsWf applied p c flits
  simp only [Dev.takeUnit]
  split
  · simpa using h
  · split
    · exact applied
    · split
      · simpa using taken
      · simpa using h

theorem Dev.goodUnit_hbmsWf {d : Dev} (h : HbmsWf d.hbms) (p : Nat) (c : Control) (flits : List (Nat × Flit)) :
    HbmsWf (d.goodUnit p c flits).hbms := by
  unfold Dev.goodUnit
  split
  · exact Dev.takeUnit_hbmsWf h p c flits
  · exact Dev.takeUnit_hbmsWf (by simpa using h) p c flits
  · exact h

theorem Dev.unitReceived_hbmsWf {d : Dev} (h : HbmsWf d.hbms) (p : Nat) (wire : List Byte) : HbmsWf (d.unitReceived p wire).hbms := by
  simp only [Dev.unitReceived]
  split
  · exact h
  · split
    · split
      · simpa using h
      · exact Dev.goodUnit_hbmsWf (by simpa using h) p _ _
    · simpa using h

theorem Dev.slotFar_hbmsWf {d : Dev} (h : HbmsWf d.hbms) (p : Nat) (slot : List (List Byte)) : HbmsWf (d.slotFar p slot).hbms := by
  simp only [Dev.slotFar]
  split
  · simpa using h
  · exact forEach_hbmsWf _ (fun _ _ he => Dev.unitReceived_hbmsWf he p _) (by simpa using h)

theorem Dev.linkUnitReceived_hbmsWf {d : Dev} (h : HbmsWf d.hbms) (p : Nat) (slot : List (List Byte)) :
    HbmsWf (d.linkUnitReceived p slot).hbms := by
  have judged : HbmsWf (if d.gated then d else d.laneErrorWindow p).hbms := by simpa using h
  exact Dev.ite_hbmsWf judged (Dev.ite_hbmsWf (Dev.slotFar_hbmsWf (by simpa using judged) p slot)
    (Dev.unitReceived_hbmsWf (by simpa using judged) p _))

/-! ## The reset of a region -/

/-- The reset of a region leaves no byte of its own HBM and every byte of the others'. -/
theorem Dev.regionReset_hbms (d : Dev) (r : Nat) (forced : Bool) :
    (d.regionReset r forced).hbms = fun q => if q = r then [] else d.hbms q := by
  simp [Dev.regionReset, Dev.modRegion, Dev.setRegion_hbms_eq, Region.afterReset]
  rfl

theorem Dev.regionReset_hbmsWf {d : Dev} (h : HbmsWf d.hbms) (r : Nat) (forced : Bool) : HbmsWf (d.regionReset r forced).hbms := by
  rw [Dev.regionReset_hbms]
  intro q
  dsimp only
  split
  · rfl
  · exact h q

theorem Dev.regionResetCmd_hbmsWf {d : Dev} (h : HbmsWf d.hbms) (q : Request) : HbmsWf (d.regionResetCmd q).1.hbms := by
  have reset (forced : Bool) := Dev.regionReset_hbmsWf h q.index forced
  simp only [Dev.regionResetCmd]
  split
  · simpa using reset _
  · simpa using reset _
  · split
    · simpa using reset true
    · exact h
  · exact h

end Sys2Proof.Machine
end

section
/-! The canonical form of the HBM over commands and steps: each command answers a device of the functions above. -/

namespace Sys2Proof.Machine

/-! ## What a command answers -/

/-- A next state has each region's HBM in canonical form. -/
def AnswersHbmWf (o : Host.Outcome State Fault Refusal) : Prop := ∀ t, o = .next t → HbmsWf t.dev.hbms

theorem answersHbmWf_next {t : State} (h : HbmsWf t.dev.hbms) : AnswersHbmWf (.next t) := fun _ ht => by
  cases ht; exact h

theorem answersHbmWf_ite {c : Prop} [Decidable c] {a b : Host.Outcome State Fault Refusal} (ha : AnswersHbmWf a) (hb : AnswersHbmWf b) :
    AnswersHbmWf (if c then a else b) := by
  split <;> assumption

/-! ## Ocmiset commands -/

theorem State.settle_hbms (path : Path) (tag : Nat) (r : State × Answer) : (State.settle path tag r).dev.hbms = r.1.dev.hbms := by
  obtain ⟨t, _ | _⟩ := r <;> simp [State.settle]

theorem State.startCommand_hbmsWf {s : State} {f : Form} {path : Path} {tag : Nat} {body : State → Request → State × Answer}
    (h : HbmsWf s.dev.hbms) (hb : ∀ (u : State) q, HbmsWf u.dev.hbms → HbmsWf (body u q).1.dev.hbms) :
    HbmsWf (s.startCommand f path tag body).dev.hbms := by
  simp only [State.startCommand]
  split
  · exact h
  · split
    · simpa using h
    · rw [State.settle_hbms]
      exact hb _ _ (by simpa using h)

theorem State.stepCommand_hbmsWf {s : State} {f : Form} {path : Path} {tag : Nat} {body : State → Request → State × Answer}
    {next : State → Exec → State × Answer} (h : HbmsWf s.dev.hbms)
    (hb : ∀ (u : State) q, HbmsWf u.dev.hbms → HbmsWf (body u q).1.dev.hbms)
    (hn : ∀ (u : State) x, HbmsWf u.dev.hbms → HbmsWf (next u x).1.dev.hbms) :
    HbmsWf (s.stepCommand f path tag body next).dev.hbms := by
  simp only [State.stepCommand]
  split
  · split
    · rw [State.settle_hbms]
      exact hn s _ h
    · exact h
  · exact State.startCommand_hbmsWf h hb

theorem answersHbmWf_command {s : State} {f : Form} {path : Path} {tag : Nat} {body : Dev → Request → Dev × Answer}
    (h : HbmsWf s.dev.hbms) (hb : ∀ d q, HbmsWf d.hbms → HbmsWf (body d q).1.hbms) : AnswersHbmWf (command f path tag body s) :=
  answersHbmWf_next (State.startCommand_hbmsWf h fun u q hu => hb u.dev q hu)

theorem answersHbmWf_commandIf {s : State} {own : Request → Bool} {f : Form} {path : Path} {tag : Nat}
    {body : Dev → Request → Dev × Answer} (h : HbmsWf s.dev.hbms) (hb : ∀ d q, HbmsWf d.hbms → HbmsWf (body d q).1.hbms) :
    AnswersHbmWf (commandIf own f path tag body s) := by
  unfold commandIf
  exact answersHbmWf_ite (answersHbmWf_command h hb) (answersHbmWf_next h)

/-! ## Commands over the whole state -/

@[simp] theorem State.bootStart_hbms (s : State) (fails : List Bool) : (s.bootStart fails).dev.hbms = s.dev.hbms := by
  simp only [State.bootStart]
  split
  · rfl
  · simp

@[simp] theorem State.spoil_hbms (s : State) (a n : Nat) : (s.spoil a n).dev.hbms = s.dev.hbms := by
  simp [State.spoil]

@[simp] theorem State.eraseSector_hbms (s : State) (a n k : Nat) (e : Bool) : (s.eraseSector a n k e).1.dev.hbms = s.dev.hbms := by
  simp only [State.eraseSector]
  split <;> simp

@[simp] theorem State.writePage_hbms (s : State) (a : Nat) (data : List Byte) (e : Bool) :
    (s.writePage a data e).1.dev.hbms = s.dev.hbms := by
  simp only [State.writePage]
  split <;> simp [State.program]

theorem State.flashEraseCmd_hbms (s : State) (q : Request) (e : Bool) : (s.flashEraseCmd q e).1.dev.hbms = s.dev.hbms := by
  rcases s.flashEraseCmd_cases q e with h | ⟨h, -⟩ <;> simp [h]

theorem State.flashWriteCmd_hbms (s : State) (q : Request) (e : Bool) : (s.flashWriteCmd q e).1.dev.hbms = s.dev.hbms := by
  rcases s.flashWriteCmd_cases q e with h | h <;> simp [h]

theorem State.imageActivate_hbms (s : State) (q : Request) : (s.imageActivate q).1.dev.hbms = s.dev.hbms := by
  rcases s.imageActivate_cases q with h | ⟨slot, raise, own, h, -⟩ <;> simp [h, State.burn, State.writeDir]

theorem State.regRead_hbms (s : State) (q : Request) : (s.regRead q).1.dev.hbms = s.dev.hbms := by
  simp only [State.regRead]
  split
  · rfl
  · simp [State.readRange]

/-! ## Every command and every step -/

theorem exec_hbmsWf (c : Instr) {s : State} (h : HbmsWf s.dev.hbms) : AnswersHbmWf (exec c s) := by
  cases c
  -- the commands that reset the HBM or write it
  case resetNAsserted => exact answersHbmWf_next (Dev.resetNAsserted_hbmsWf h)
  case vlanternApplied => exact answersHbmWf_next (by simpa using hbmsWf_nil)
  case vlanternRemoved => exact answersHbmWf_next (by simpa using hbmsWf_nil)
  case railStartFault => exact answersHbmWf_next (Dev.ite_hbmsWf (Dev.railStartFault_hbmsWf h) h)
  case brownOut => exact answersHbmWf_next (Dev.ite_hbmsWf (Dev.brownOut_hbmsWf h _) h)
  case thermalSample => exact answersHbmWf_next (Dev.ite_hbmsWf (Dev.thermalSample_hbmsWf h _) h)
  case lanternClockFault => exact answersHbmWf_next (Dev.ite_hbmsWf (by simpa using hbmsWf_nil) h)
  case chipResetDelayEnd => exact answersHbmWf_next (Dev.ite_hbmsWf (Dev.chipResetDelayEnd_hbmsWf h) h)
  case powerEntryWindowEnd => exact answersHbmWf_next (Dev.ite_hbmsWf (Dev.windowEnds_hbmsWf h) h)
  case wakeRegistered => exact answersHbmWf_next (Dev.wakeRegistered_hbmsWf h _)
  case linkPatternDetected => exact answersHbmWf_next (Dev.ite_hbmsWf (Dev.wake_hbmsWf h _ _) h)
  case bellropeAddressMatch => exact answersHbmWf_next (Dev.ite_hbmsWf (Dev.ropeMatch_hbmsWf h _ _) h)
  case linkUnitReceived => exact answersHbmWf_next (Dev.ite_hbmsWf (Dev.linkUnitReceived_hbmsWf h _ _) h)
  case bar4Access => exact answersHbmWf_next (Dev.ite_hbmsWf (Dev.bar4Access_hbmsWf h _ _ _) h)
  case hbmApertureAccess => exact answersHbmWf_next (Dev.ite_hbmsWf (Dev.aperture_hbmsWf h _ _ _) h)
  case registerWrite => exact answersHbmWf_next (Dev.ite_hbmsWf (Dev.barAccess_hbmsWf h _ _ _) h)
  case evtPendClear => exact answersHbmWf_next (Dev.ite_hbmsWf (Dev.bar0Write_hbmsWf h _ _ _ _) h)
  case counterWriteClear => exact answersHbmWf_next (Dev.ite_hbmsWf (Dev.bar0Write_hbmsWf h _ _ _ _) h)
  case regionReset => exact answersHbmWf_command h fun _ q hd => Dev.regionResetCmd_hbmsWf hd q
  case regWrite => exact answersHbmWf_command h fun _ q hd => Dev.regWrite_hbmsWf hd q
  case regModify => exact answersHbmWf_next (State.startCommand_hbmsWf h fun _ q hu => State.regModify_hbmsWf hu q)
  -- the commands over the whole state
  case bootStart => exact answersHbmWf_next (by simpa using h)
  case commandReplyReceived =>
    exact answersHbmWf_ite (answersHbmWf_next (by simpa using h)) (answersHbmWf_next h)
  case laneBitslipCapture who _ | laneBitslipSlip who | laneBitslipCheck who _ =>
    cases who with
    | request => exact answersHbmWf_commandIf h fun _ _ hd => by simpa using hd
    | firmware => exact answersHbmWf_next (by simpa using h)
  case laneBitslipRead who =>
    cases who with
    | request => exact answersHbmWf_commandIf h fun _ _ hd => by simpa using hd
    | firmware => exact answersHbmWf_next h
  case flashErase => exact answersHbmWf_next (State.stepCommand_hbmsWf h (fun u q hu => by rwa [u.flashEraseCmd_hbms])
    fun u x hu => by simpa using hu)
  case flashWrite => exact answersHbmWf_next (State.stepCommand_hbmsWf h (fun u q hu => by rwa [u.flashWriteCmd_hbms])
    fun u x hu => by simpa using hu)
  case imageActivate => exact answersHbmWf_next (State.stepCommand_hbmsWf h (fun u q hu => by rwa [u.imageVerify_state])
    fun u x hu => by rwa [u.imageActivate_hbms])
  case flashRead => exact answersHbmWf_next (State.startCommand_hbmsWf h fun u q hu => by rwa [u.flashReadCmd_state])
  case attest => exact answersHbmWf_next (State.stepCommand_hbmsWf h (fun _ _ hu => hu) fun _ _ hu => hu)
  case clockSwitch => exact answersHbmWf_next (State.stepCommand_hbmsWf h (fun _ _ hu => by simpa using hu) fun _ _ hu => by simpa using hu)
  case blockLoad => exact answersHbmWf_next (State.startCommand_hbmsWf h fun _ _ hu => by simpa using hu)
  case regRead => exact answersHbmWf_next (State.startCommand_hbmsWf h fun u q hu => by rwa [u.regRead_hbms])
  -- the commands on the device alone, all of which leave every region's HBM
  case nopCommand | routeRead | treeRead | cageStatus | twinStatus | powerStatus | identityCert | eventMapRead | quarantineRead =>
    exact answersHbmWf_next (State.startCommand_hbmsWf h fun _ _ hu => hu)
  case twinTakeoverTake | twinTakeoverRelease | wakeConfig | linkPatternSend =>
    exact answersHbmWf_commandIf h fun _ _ hd => by simpa using hd
  case routeWrite | routeCopy | routeCommit | treeSet | treeClear | treeAbort | lockForceRelease | lockAbandon | lockRead
     | authNonce | mgmtForward | cmdAbort | counterRead | counterClear | cageSet | twinSet | twinHeartbeat | blockReset | regionDrain
     | regionResume | powerSet | chipReset | eventMapSet | eventInject =>
    exact answersHbmWf_command h fun _ _ hd => by simpa using hd
  case connIdleExpiry =>
    refine answersHbmWf_next (Dev.ite_hbmsWf ?_ h)
    split <;> simpa using h
  all_goals exact answersHbmWf_next (by simpa using h)

/-- Settles O59: a step is a tick, which leaves the HBM, or the front command. -/
theorem everyStepKeepsTheHbmForm : Obligations.EveryStepKeepsTheHbmForm := by
  intro s t hwf hstep
  have hs : HbmsWf s.dev.hbms := hwf
  cases hp : s.pending with
  | nil =>
    simp only [step, hp] at hstep
    exact answersHbmWf_next (by simpa using hs) t hstep
  | cons c cs =>
    simp only [step, hp] at hstep
    exact exec_hbmsWf (s := { s with pending := cs }) c hs t hstep

/-- Settles O60: no region lists a cell. -/
theorem resetMeetsTheHbmForm : Obligations.ResetMeetsTheHbmForm := fun _ => rfl

end Sys2Proof.Machine
end

section
/-! The windows of a host into the HBM (07 R206, 09 R277): which bytes a write of a window may change, and that a read of
BAR4 returns what a write stored. -/

namespace Sys2Proof.Machine

/-! ## A byte of the HBM -/

/-- The byte of a region's HBM at an address. -/
def Dev.hbmByte (d : Dev) (r a : Nat) : Byte := Memory.read hbmDefault (d.hbms r) a

theorem Dev.hbmByte_congr {d e : Dev} (h : e.hbms = d.hbms) (r a : Nat) : e.hbmByte r a = d.hbmByte r a := by
  rw [Dev.hbmByte, Dev.hbmByte, h]

/-- A write changes only the bytes that it names. -/
theorem Dev.hbmWrite_hbmByte {d : Dev} {r x : Nat} {bs : List Byte} {q a : Nat} (h : q ≠ r ∨ a < x ∨ x + bs.length ≤ a) :
    (d.hbmWrite r x bs).hbmByte q a = d.hbmByte q a := Dev.hbmWrite_other h

/-! ## BAR4 (R206) -/

@[simp] theorem Dev.bar4Fit_inside (d : Dev) (e off n : Nat) :
    (d.bar4Fit e off n).2 = min n ((d.region (regionOf e)).carve.remainder - off) := by
  simp only [Dev.bar4Fit]

/-- A BAR4 write changes only bytes that it names and that lie within the remainder. -/
theorem Dev.bar4_write_hbmByte (d : Dev) {e off r a : Nat} {data : List Byte}
    (h : r ≠ regionOf e ∨ a < off ∨ off + data.length ≤ a ∨ (d.region (regionOf e)).carve.remainder ≤ a) :
    (d.bar4 e off (.write data)).hbmByte r a = d.hbmByte r a := by
  have fits : (d.bar4Fit e off data.length).1.hbmByte r a = d.hbmByte r a := Dev.hbmByte_congr (by simp) r a
  simp only [Dev.bar4]
  split
  · exact fits
  · split
    · refine (Dev.hbmWrite_hbmByte ?_).trans fits
      rw [List.length_take, Dev.bar4Fit_inside]
      omega
    · exact Dev.hbmByte_congr (by simp) r a

theorem Dev.bar4Access_write_hbmByte (d : Dev) {e off r a : Nat} {data : List Byte}
    (h : r ≠ regionOf e ∨ a < off ∨ off + data.length ≤ a ∨ (d.region (regionOf e)).carve.remainder ≤ a) :
    (d.bar4Access e off (.write data)).hbmByte r a = d.hbmByte r a := by
  unfold Dev.bar4Access
  split
  · exact d.bar4_write_hbmByte h
  · rfl

theorem Dev.bar4Access_read_hbms (d : Dev) (e off n : Nat) : (d.bar4Access e off (.read n)).hbms = d.hbms := by
  simp [Dev.bar4Access, Dev.bar4]

/-- A BAR4 write within the remainder of a stack that runs stores all of its data. -/
theorem Dev.bar4Access_write_within {d : Dev} {e off : Nat} {data : List Byte} (hopen : d.barOpen e = true)
    (hrun : d.hbmRuns (regionOf e) = true) (hfit : off + data.length ≤ (d.region (regionOf e)).carve.remainder) (hdata : data ≠ []) :
    d.bar4Access e off (.write data) = d.hbmWrite (regionOf e) off data :=
  (if_pos hopen).trans (Dev.bar4_write hrun hfit hdata)

theorem Dev.bar4Access_write_nil (d : Dev) {e off : Nat} (hfit : off ≤ (d.region (regionOf e)).carve.remainder) :
    d.bar4Access e off (.write []) = d := by
  simp [Dev.bar4Access, Dev.bar4, Dev.bar4Fit_within (n := 0) hfit]

/-- A BAR4 read within the remainder of a stack that runs sends the host the bytes of the HBM. -/
theorem Dev.bar4Access_read_within {d : Dev} {e off n : Nat} (hopen : d.barOpen e = true)
    (hrun : d.hbmRuns (regionOf e) = true) (hfit : off + n ≤ (d.region (regionOf e)).carve.remainder) :
    d.bar4Access e off (.read n) = d.sendData e (some (d.hbmRead (regionOf e) off n)) :=
  (if_pos hopen).trans (Dev.bar4_read hrun hfit)

/-- What a read answers of the bytes just written. -/
theorem Dev.hbmRead_hbmWrite_same {d : Dev} {r : Nat} (h : Memory.wf hbmDefault (d.region r).hbm = true) (a : Nat) (bs : List Byte) :
    (d.hbmWrite r a bs).hbmRead r a bs.length = bs := by
  simpa [Dev.hbmRead, Dev.hbmWrite] using Memory.readN_writeN h a bs

/-- Data written through BAR4 is what a read through BAR4 sends the host. -/
theorem Dev.bar4Access_read_write {d : Dev} {e off : Nat} {data : List Byte} (hopen : d.barOpen e = true)
    (hrun : d.hbmRuns (regionOf e) = true) (hfit : off + data.length ≤ (d.region (regionOf e)).carve.remainder)
    (hwf : Memory.wf hbmDefault (d.region (regionOf e)).hbm = true) :
    ((d.bar4Access e off (.write data)).bar4Access e off (.read data.length)).out = d.out ++ [.readData e (some data)] := by
  by_cases hdata : data = []
  · subst hdata
    rw [d.bar4Access_write_nil (by simpa using hfit), Dev.bar4Access_read_within hopen hrun hfit]
    rfl
  · have hcarve : ((d.hbmWrite (regionOf e) off data).region (regionOf e)).carve = (d.region (regionOf e)).carve := by
      simp [Dev.hbmWrite]
    rw [Dev.bar4Access_write_within hopen hrun hfit hdata,
      Dev.bar4Access_read_within (d := d.hbmWrite _ _ _) hopen hrun (by rwa [hcarve]), Dev.hbmRead_hbmWrite_same hwf]
    rfl

/-! ## The aperture (R277) -/

/-- An aperture write of 8 bytes changes only those to which the aperture leads. -/
theorem Dev.aperture_write_hbmByte (d : Dev) {e off r a : Nat} {data : List Byte} (hlen : data.length = 8)
    (h : r ≠ regionOf e ∨ ∀ b, d.apertureAt e off 8 = some b → (a < b ∨ b + 8 ≤ a)) :
    (d.aperture e off (.write data)).hbmByte r a = d.hbmByte r a := by
  unfold Dev.aperture
  split
  · simp only [Dev.apertureAccess, accessLen, hlen]
    cases hat : d.apertureAt e off 8 with
    | none => exact Dev.hbmByte_congr (by simp) r a
    | some b =>
      change (if d.hbmRuns (regionOf e) then d.hbmWrite (regionOf e) b data else d.crossingDrop (regionOf e)).hbmByte r a = _
      split
      · exact Dev.hbmWrite_hbmByte (h.imp_right fun hb => by rw [hlen]; exact hb b hat)
      · exact Dev.hbmByte_congr (by simp) r a
  · next hr => cases hr
  · rfl

/-! ## The commands -/

/-- The next state of a row has the device as it was, or as the row's function gives it. -/
theorem exec_actIf_next {c : Instr} {g : Dev → Bool} (f : Dev → Dev) {s t : State} (hc : exec c s = actIf g f s)
    (h : exec c s = .next t) : t.dev = s.dev ∨ t.dev = f s.dev := by
  cases hc.symm.trans h
  dsimp only
  split
  · exact .inr rfl
  · exact .inl rfl

theorem exec_bar4Access_up {s : State} {ep : Fin 16} {off : Nat} {acc : Access} (hrun : s.dev.gatesRun = true)
    (hep : s.dev.epExists ep = true) : exec (.bar4Access ep off acc) s = .next { s with dev := s.dev.bar4Access ep off acc } := by
  obtain ⟨_, hex, rfl⟩ := answers_actIf (c := .bar4Access ep off acc) (s := s) (g := fun d => d.gatesRun && d.epExists ep)
    (f := fun d => d.bar4Access ep off acc) rfl (by simp [hrun, hep]) rfl
  exact hex

/-- Settles O14: a write changes the bytes its window leads to, and a read of BAR4 finds them. -/
theorem hostWritesTouchOnlyTheirHbmBytes : Obligations.HostWritesTouchOnlyTheirHbmBytes := by
  refine ⟨?bar4Write, ?bar4Read, ?roundTrip, ?apertureWrite⟩
  case bar4Write =>
    intro s t ep off data r a hex h
    change t.dev.hbmByte r a = s.dev.hbmByte r a
    rcases exec_actIf_next (g := fun d => d.gatesRun && d.epExists ep) (fun d => d.bar4Access ep off (.write data)) rfl hex with ht | ht
    · rw [ht]
    · rw [ht]
      exact s.dev.bar4Access_write_hbmByte h
  case bar4Read =>
    intro s t ep off n r a hex
    refine Dev.hbmByte_congr ?_ r a
    rcases exec_actIf_next (g := fun d => d.gatesRun && d.epExists ep) (fun d => d.bar4Access ep off (.read n)) rfl hex with ht | ht
    · rw [ht]
    · rw [ht, Dev.bar4Access_read_hbms]
  case roundTrip =>
    intro s ep off data hrun hep hopen hhbm hfit hwf
    have hw : (s.dev.bar4Access ep off (.write data)).gatesRun = true ∧ (s.dev.bar4Access ep off (.write data)).epExists ep = true := by
      by_cases hdata : data = []
      · subst hdata
        rw [s.dev.bar4Access_write_nil (by simpa using hfit)]
        exact ⟨hrun, hep⟩
      · rw [Dev.bar4Access_write_within hopen hhbm hfit hdata]
        exact ⟨hrun, hep⟩
    exact ⟨_, _, exec_bar4Access_up hrun hep, exec_bar4Access_up hw.1 hw.2, Dev.bar4Access_read_write hopen hhbm hfit hwf⟩
  case apertureWrite =>
    intro s t ep off data r a hlen hex h
    change t.dev.hbmByte r a = s.dev.hbmByte r a
    rcases exec_actIf_next (g := fun d => d.epUp ep) (fun d => d.aperture ep off (.write data)) rfl hex with ht | ht
    · rw [ht]
    · rw [ht]
      exact s.dev.aperture_write_hbmByte hlen h

end Sys2Proof.Machine
end

section
/-! The privileged areas of BAR0 (07 R204, 18 R544): none of them lies in the aperture, so an access of one meets the tests of
its size, of PRIV and of its island. -/

namespace Sys2Proof.Machine

theorem ite_ne_of_ne {α : Type} {c : Prop} [Decidable c] {a b x : α} (ha : a ≠ x) (hb : b ≠ x) : (if c then a else b) ≠ x := by
  split <;> assumption

/-- No register below the aperture's window is of the aperture. -/
theorem barReg_ne_aperture {off : Nat} (h : off < 0x1080000) (o : Nat) : barReg off ≠ .aperture o := by
  have hout : inWindow off 0x1080000 0x80000 = false := decide_eq_false fun hw => absurd hw.1 (Nat.not_le.2 h)
  simp only [barReg, hout, Bool.false_eq_true, if_false]
  repeat' refine ite_ne_of_ne ?_ ?_
  all_goals exact nofun

/-- The offsets of R204: those of the chip, region and port registers and of the counters. -/
theorem needsPriv_iff {off : Nat} : needsPriv off = true ↔ (0x10000 ≤ off ∧ off < 0x108000) ∨ (0x400000 ≤ off ∧ off < 0x800000) := by
  simp only [needsPriv, inWindow, Bool.or_eq_true, decide_eq_true_eq]
  omega

theorem barSize_four {off : Nat} (h : off % 8 = 0) : barSize off 4 = true := by
  have hfour : off % 4 = 0 := by omega
  simp [barSize, hfour]

/-- A write of an admitted size that needs PRIV and has it not is counted, and nothing else. -/
theorem Dev.bar0Write_unpriv {d : Dev} {e off size : Nat} (v : Reg) (hopen : d.barOpen e = true) (ha : ∀ o, barReg off ≠ .aperture o)
    (hsize : barSize off size = true) (hneeds : needsPriv off = true) (hpriv : d.priv e = false) :
    d.bar0Write e off size v = d.count (Ctr.unprivWrites e) := by
  simp only [Dev.bar0Write, hopen]
  simp [hsize, hneeds, hpriv]

/-- Settles O12: of the accesses of these areas, which lie below the aperture, only the writes ask for PRIV. -/
theorem unprivilegedWritesAreDiscarded : Obligations.UnprivilegedWritesAreDiscarded := by
  intro s ep off v hup hopen hoff harea
  have hap := barReg_ne_aperture (off := off) (by omega)
  have hneeds := needsPriv_iff.2 harea
  refine ⟨fun hpriv => ⟨?_, ?_⟩, fun hpriv hreach => ?_, fun hreach => ?_⟩
  · exact answers_registerWrite hup (Dev.bar0Write_unpriv v hopen hap (barSize_eight hoff) hneeds hpriv)
  · exact answers_registerWrite hup (Dev.bar0Write_unpriv v hopen hap (barSize_four hoff) hneeds hpriv)
  · exact answers_registerWrite hup (Dev.bar0Write_admitted hopen hap (barSize_eight hoff) (.inr hpriv) hreach)
  · exact answers_registerWrite hup (Dev.bar0Read_admitted hopen hap hoff hreach)

end Sys2Proof.Machine
end

section
/-! What the gates' events do to an endpoint by its state: PERST#, its link, Bus Master Enable, power states, resets and stops
(07 R199, R207, R210 to R213, R215, R221). -/

namespace Sys2Proof.Machine

/-! ## Rows of a gate -/

theorem answers_gate {c : Instr} {s : State} {ep : Fin 16} {d : Dev} (f : Dev → Dev)
    (hc : exec c s = actIf (fun d => d.gatesRun && d.epExists ep) f s) (hrun : s.dev.gatesRun = true)
    (hep : s.dev.epExists ep = true) (hf : f s.dev = d) : Answers c s (fun e => e = d) :=
  answers_actIf hc (Bool.and_eq_true_iff.2 ⟨hrun, hep⟩) hf

/-- A row of the configuration space that is ready answers its function on the endpoint that has just been used. -/
theorem answers_config {c : Instr} {s : State} {ep : Fin 16} {d : Dev} (f : Dev → Dev) (hc : exec c s = config ep f s)
    (hup : s.dev.cfgUp ep = true) (hready : (s.dev.ep ep).readyAt ≤ s.dev.gateNow ep) (hf : f (s.dev.touchEp ep) = d) :
    Answers c s (fun e => e = d) :=
  ⟨d, by rw [hc, config_ready hup hready, hf], rfl⟩

theorem Dev.cfgUp_iff {d : Dev} {e : Nat} :
    d.cfgUp e = true ↔ d.gatesRun = true ∧ d.epExists e = true ∧ (d.ep e).state ≠ .down ∧ (d.ep e).linkWidth ≠ 0 := by
  simp [Dev.cfgUp, and_assoc]

/-! ## An endpoint that has just been used -/

theorem Dev.touchEp_ep (d : Dev) (e : Nat) : (d.touchEp e).ep e = { d.ep e with busyAt := d.gateNow e, l1 := false } := by
  simp [Dev.touchEp]

@[simp] theorem Dev.touchEp_state (d : Dev) (e : Nat) : ((d.touchEp e).ep e).state = (d.ep e).state := by rw [Dev.touchEp_ep]

@[simp] theorem Dev.touchEp_cfg (d : Dev) (e : Nat) : ((d.touchEp e).ep e).cfg = (d.ep e).cfg := by rw [Dev.touchEp_ep]

@[simp] theorem Dev.touchEp_linkWidth (d : Dev) (e : Nat) : ((d.touchEp e).ep e).linkWidth = (d.ep e).linkWidth := by
  rw [Dev.touchEp_ep]

theorem Dev.touchEp_modEp (d : Dev) (e : Nat) (f : Endpoint → Endpoint) :
    (d.touchEp e).modEp e f = d.modEp e (fun x => f { x with busyAt := d.gateNow e, l1 := false }) := d.modEp_modEp e _ f

/-! ## PERST# (R199, R215) -/

/-- A gate that is not bifurcated has one endpoint. -/
theorem Dev.subsOf_single {d : Dev} {g : Fin 8} (h : d.bifurcated g = false) : d.subsOf g = [2 * g.val] := by
  have heven : d.epExists (2 * g) = true := by simp [Dev.epExists]; omega
  have hodd : d.epExists (2 * g + 1) = false := by
    have hg : (2 * g.val + 1) / 2 = g := by omega
    simp [Dev.epExists, hg, h]
  simp [Dev.subsOf, heven, hodd]

theorem Dev.perstAsserted_single {d : Dev} {g : Fin 8} (hrun : d.gatesRun = true) (h : d.bifurcated g = false) :
    d.perstAsserted g = (d.modGate g (fun x => { x with perst := false })).perstEp (2 * g) := by
  have hsubs : (d.modGate g (fun x => { x with perst := false })).subsOf g = [2 * g.val] := Dev.subsOf_single h
  exact (if_pos hrun).trans (by rw [hsubs]; rfl)

/-! ## The link (R210, R211) -/

theorem Dev.linkActive_trained {d : Dev} {e width rate : Nat} {flit : Bool} (hdown : (d.ep e).state = .down)
    (htrain : (d.ep e).training = true) (hok : d.linkOk e width rate flit = true) :
    d.linkActive e width rate flit =
      (((d.modEp e (fun x => { x with state := .link, linkWidth := width, linkRate := rate, flit := flit, training := false })).readyBy e
        ((d.gate (e / 2)).perstAt + 1000000000)).raise (Isl.gate (e / 2)) (Src.ep e 7) 1 0) := by
  simp only [Dev.linkActive, hok, hdown, htrain]
  rfl

theorem Dev.surpriseRemoval_unannounced {d u : Dev} {e : Nat} (hup : (d.ep e).state ≠ .down) (hlink : (d.ep e).linkWidth ≠ 0)
    (hcold : (d.ep e).d3cold = false) (hu : u = (d.count (Ctr.surpriseRemovals e)).gateStop e 3) : d.surpriseRemoval e =
      (((if (d.ep e).movedAt = some (u.gateNow e) then u.modEp e (fun x => { x with stopCause := 3 }) else u).quarantineTags
        e).abandonLocal e none).linkLost e := by
  simp [Dev.surpriseRemoval, hup, hlink, hcold, hu]

/-! ## Bus Master Enable and power states (R210, R213, R221) -/

theorem Dev.bmeSet_enters {d : Dev} {e : Nat} (h : (d.ep e).state = .link ∨ (d.ep e).state = .halted) :
    d.bmeSet e = (d.modEp e (fun x => { x with cfg := { x.cfg with bme := true } })).enterRun e :=
  if_pos (by simpa using h)

theorem Dev.bmeClear_leaves {d : Dev} {e : Nat} (h : (d.ep e).state = .run) :
    d.bmeClear e = (d.modEp e (fun x => { x with cfg := { x.cfg with bme := false } })).barIssue e .halted :=
  if_pos (by simpa using h)

theorem Dev.toD3hot_of_run {d : Dev} {e : Nat} (h : (d.ep e).state = .run) : d.toD3hot e = d.barIssue e .d3hot := by
  simp only [Dev.toD3hot, h]

theorem Dev.toD3hot_of_idle {d : Dev} {e : Nat} (h : (d.ep e).state = .link ∨ (d.ep e).state = .halted) :
    d.toD3hot e = d.moveEp e .d3hot := by
  rcases h with h | h <;> simp only [Dev.toD3hot, h]

theorem Dev.toD0_of_d3hot {d : Dev} {e : Nat} (h : (d.ep e).state = .d3hot) :
    d.toD0 e = if (d.ep e).cfg.bme then d.enterRun e else d.modEp e (fun x => { x with state := .link }) := by
  simp [Dev.toD0, h]

/-- Settles O31: each event by what its function does in the endpoint's state. -/
theorem gateLinkCommandsComplete : Obligations.GateLinkCommandsComplete := by
  refine ⟨?perst, ?release, ?active, ?removal, ?bmeSet, ?bmeClear, ?d3hot, ?d0, ?d3cold⟩
  case perst =>
    intro s g hpowered hrun hsingle
    exact answers_actIf (g := fun d => d.lantern.powered) (f := fun d => d.perstAsserted g) rfl hpowered
      (Dev.perstAsserted_single hrun hsingle)
  case release =>
    intro s g hpowered
    refine (answers_actIf (g := fun d => d.lantern.powered) (f := fun d => d.perstReleased g) rfl hpowered rfl).imp
      fun d hd => ⟨_, rfl, fun hrun => ?_, fun hrun => ?_⟩
    · exact hd.trans (if_neg (by simpa [Dev.gatesRun] using hrun))
    · exact hd.trans (if_pos hrun)
  case active =>
    intro s ep width rate flit hrun hep hdown htrain hok
    exact (answers_gate (fun d => d.linkActive ep width rate flit) rfl hrun hep (Dev.linkActive_trained hdown htrain hok)).imp
      fun d hd => ⟨_, rfl, hd⟩
  case removal =>
    intro s ep hrun hep hup hlink hcold
    refine (answers_gate (fun d => d.surpriseRemoval ep) rfl hrun hep (Dev.surpriseRemoval_unannounced hup hlink hcold rfl)).imp
      fun d hd => ⟨_, rfl, fun hmoved => ?_, fun hmoved => ?_⟩
    · rw [hd, if_neg hmoved]
    · rw [hd, if_pos hmoved]
  case bmeSet =>
    intro s ep hup hready hst
    exact answers_config (fun d => d.bmeSet ep) rfl hup hready (Dev.bmeSet_enters (by simpa using hst))
  case bmeClear =>
    intro s ep hup hready hst
    exact answers_config (fun d => d.bmeClear ep) rfl hup hready (Dev.bmeClear_leaves (by simpa using hst))
  case d3hot =>
    intro s ep hup hready hst
    refine answers_config (fun d => d.toD3hot ep) rfl hup hready ?_
    split
    · next hr => exact Dev.toD3hot_of_run (by simpa using hr)
    · next hr =>
      rw [Dev.toD3hot_of_idle (by simpa using hst.resolve_left hr), Dev.moveEp, Dev.touchEp_modEp]
      rfl
  case d0 =>
    intro s ep hup hready hst
    refine answers_config (fun d => d.toD0 ep) rfl hup hready ?_
    rw [Dev.toD0_of_d3hot (by simpa using hst), Dev.touchEp_cfg, Dev.touchEp_modEp]
  case d3cold =>
    intro s ep hrun hep hup
    exact answers_actIf (g := fun d => d.gatesRun && d.epExists ep && (d.ep ep).state != .down)
      (f := fun d => d.modEp ep (fun x => { x with d3cold := true })) rfl (by simp [hrun, hep, hup]) rfl

/-! ## Resets and stops (R207, R215) -/

theorem Dev.linkReset_up {d u : Dev} {e code : Nat} (hup : (d.ep e).state ≠ .down) (hlink : (d.ep e).linkWidth ≠ 0)
    (hu : u = (d.count (if code = 1 then Ctr.flrs e else Ctr.hotResets e)).endpointReset e .link) :
    d.linkReset e code =
      ((if code = 1 then u.readyBy e (u.gateNow e + 10000000) else u).raise (Isl.gate (e / 2)) (Src.ep e 6) code 0).afterTick e
        (d.ep e) :=
  hu ▸ if_neg fun h => h.elim hup fun h => hlink h.1

theorem Dev.gateStop_up {d u : Dev} {e cause : Nat} (hup : (d.ep e).state ≠ .down) (hst : (d.ep e).state ≠ .stopped)
    (hu : u = (((d.moveEp e .stopped).modEp e (fun x => { x with stopCause := cause })).haltQueues e (fun _ => true)).1) :
    d.gateStop e cause =
      ((if (d.ep e).state = .run then u.leaveRun e else u).raise (Isl.gate (e / 2)) (Src.ep e 1) cause 0).syncInta e :=
  hu ▸ if_neg fun h => h.elim hup hst

/-- Settles O32: resets and stops of an endpoint whose link is up. -/
theorem gateResetAndStopCommandsComplete : Obligations.GateResetAndStopCommandsComplete := by
  refine ⟨?flr, ?hot, ?stop⟩
  case flr =>
    intro s ep hup hready hlink
    obtain ⟨-, -, hst, -⟩ := Dev.cfgUp_iff.1 hup
    exact (answers_config (fun d => d.linkReset ep 1) rfl hup hready (Dev.linkReset_up (by simpa using hst) (by simpa using hlink) rfl)).imp
      fun d hd => ⟨_, rfl, hd⟩
  case hot =>
    intro s ep hrun hep hst hlink
    exact answers_gate (fun d => d.linkReset ep 2) rfl hrun hep (Dev.linkReset_up hst hlink rfl)
  case stop =>
    intro s ep hrun hep hup hst
    refine (answers_gate (fun d => d.gateStop ep 1) rfl hrun hep (Dev.gateStop_up hup hst rfl)).imp
      fun d hd => ⟨_, rfl, fun hr => ?_, fun hr => ?_⟩
    · rw [hd, if_pos hr]
    · rw [hd, if_neg hr]

end Sys2Proof.Machine
end

section
/-! What accesses of BAR4, link power, the configuration space and MSI-X do where their conditions hold (07 R206, R214, R220,
R222). -/

namespace Sys2Proof.Machine

/-! ## Link power (R222) -/

theorem Dev.l1Entry_idle {d : Dev} {e : Nat} (haspm : (d.ep e).cfg.aspmL1 = true) (hup : (d.ep e).state ≠ .down)
    (hlink : (d.ep e).linkWidth ≠ 0) (hl1 : (d.ep e).l1 = false) (htags : (d.ep e).tags = []) (hwants : (d.ep e).wantTags = [])
    (hidle : (d.ep e).busyAt + (d.ep e).l1Idle ≤ d.gateNow e) :
    d.l1Entry e = (d.modEp e (fun x => { x with l1 := true })).emit (.pcieL1 e) := by
  have hbusy : ¬ d.gateNow e < (d.ep e).busyAt + (d.ep e).l1Idle := Nat.not_lt.2 hidle
  simp [Dev.l1Entry, haspm, hup, hlink, hl1, htags, hwants, hbusy]

/-- A window that counts changes the width by what the link carried in it. -/
theorem Dev.l0pWindow_counts {d u : Dev} {e up down : Nat} (hmin : rbits (d.ep e).gateCtrl 3 2 ≠ 0) (hl0p : (d.ep e).cfg.l0p = true)
    (hup : (d.ep e).state ≠ .down) (hlink : (d.ep e).linkWidth ≠ 0) (hdue : (d.ep e).l0pAt + 10000 ≤ d.gateNow e)
    (hu : u = d.modEp e (fun x => { x with l0pAt := d.gateNow e })) :
    d.l0pWindow e up down = if 75 < up ∨ 75 < down then u.modEp e (fun x => { x with l0pDiv := 1 })
      else if up ≤ 25 ∧ down ≤ 25 ∧ 2 * (d.ep e).l0pDiv ≤ min (2 ^ rbits (d.ep e).gateCtrl 3 2) (d.ep e).linkWidth
        then u.modEp e (fun x => { x with l0pDiv := 2 * x.l0pDiv })
      else u := by
  have hearly : ¬ d.gateNow e < (d.ep e).l0pAt + 10000 := Nat.not_lt.2 hdue
  simp only [Dev.l0pWindow, hmin, hl0p, hearly, beq_eq_false_iff_ne.2 hup, beq_eq_false_iff_ne.2 hlink, hu]
  rfl

/-! ## The configuration space (R220) -/

/-- A read of a field that the model knows draws no free value. -/
theorem Dev.configAccess_read {d : Dev} {e : Nat} {f : CfgField} (h : ∀ id off, f ≠ .extRegister id off) :
    d.configAccess e (.read f) = d.sendData e (some (d.cfgRead e f)) := by
  cases f with
  | extRegister id off => exact absurd rfl (h id off)
  | _ => rfl

/-- Settles O33: each command by what its function does under the clause's conditions. -/
theorem gateWindowPowerAndInterruptsComplete : Obligations.GateWindowPowerAndInterruptsComplete := by
  refine ⟨?bar4, ?l1, ?l0p, ?config, ?unmask⟩
  case bar4 =>
    intro s ep off data hrun hep hopen hhbm hfit hdata
    exact answers_gate (fun d => d.bar4Access ep off (.write data)) rfl hrun hep
      (Dev.bar4Access_write_within hopen hhbm hfit hdata)
  case l1 =>
    intro s ep hrun hep haspm hup hlink hl1 htags hwants hidle
    exact answers_gate (fun d => d.l1Entry ep) rfl hrun hep (Dev.l1Entry_idle haspm hup hlink hl1 htags hwants hidle)
  case l0p =>
    intro s ep up down hrun hep hmin hl0p hup hlink hdue
    exact (answers_gate (fun d => d.l0pWindow ep up down) rfl hrun hep
      (Dev.l0pWindow_counts hmin hl0p hup hlink hdue rfl)).imp fun d hd => ⟨_, rfl, hd⟩
  case config =>
    intro s ep acc hup hready
    refine (answers_config (fun d => d.configAccess ep acc) rfl hup hready rfl).imp fun d hd =>
      ⟨_, rfl, fun f hacc hf => ?_, fun id off hacc => ?_, fun w hacc => ?_⟩
    · rw [hd, hacc, Dev.configAccess_read hf]
    · rw [hd, hacc]; rfl
    · rw [hd, hacc]; rfl
  case unmask =>
    intro s ep vector hrun hep hopen
    exact answers_actIf (g := fun d => d.gatesRun && d.epExists ep && d.barOpen ep) (f := fun d => d.maskVector ep vector false) rfl
      (by simp [hrun, hep, hopen]) rfl

end Sys2Proof.Machine
end

section
/-! What the ends of a device's own requests and the doorbells of its queues do where their conditions hold (07 R201, R217, R218,
08 R230, R231, R256, 09 R274). -/

namespace Sys2Proof.Machine

/-! ## Tags (R201, R217, R218) -/

theorem Dev.cplTimeout_early {d : Dev} {e tag : Nat} {t : Tag} (htag : (d.ep e).tag tag = some t) (htime : d.expired e t = false) :
    d.cplTimeout e tag = d := by
  simp [Dev.cplTimeout, htag, htime]

/-- A request whose timeout has been reached times out by what became of it before. -/
theorem Dev.cplTimeout_due {d : Dev} {e tag : Nat} {t : Tag} (htag : (d.ep e).tag tag = some t)
    (htime : t.issued + (d.ep e).cfg.timeout ≤ d.gateNow e) :
    d.cplTimeout e tag =
      if t.late = true then (d.count (Ctr.tagsExpired e)).freeTag e tag
      else if t.failed = true ∧ t.silent = true then d.freeTag e tag
      else if t.failed = true then (d.freeTag e tag).reportRes e .timeout
      else (d.freeTag e tag).hostEnd e t .timeout := by
  have hexp : d.expired e t = true := decide_eq_true htime
  simp only [Dev.cplTimeout, htag, hexp]
  cases t.failed <;> cases t.silent <;> simp

/-- A completion with data ends its request when it brings the last of it, and else what it brings is kept. -/
theorem Dev.completed_ok {d : Dev} {e : Nat} {t : Tag} {c : Completion} {data : List Byte} (hlate : t.late = false)
    (hfailed : t.failed = false) (hres : c.res = .ok data) :
    d.completed e t c =
      if data.length = t.byteCount then (d.freeTag e t.tag).hostEnd e t (.ok (t.got ++ data))
      else d.modEp e (fun x => { x with
        tags := modWhere (fun y => y.tag == t.tag) (fun y => { y with
          got := y.got ++ data, byteCount := y.byteCount - data.length
          lowerAddr := (y.lowerAddr + data.length) % 128 }) x.tags }) := by
  have hsize : completionSize c = data.length := by rw [completionSize, hres]
  have hlast : t.last c = (data.length == t.byteCount) := by rw [Tag.last, hres, hsize]; rfl
  simp only [Dev.completed, hlate, hfailed, hres, hlast, Tag.after, hsize]
  by_cases hall : data.length = t.byteCount <;> simp [hall]

theorem Dev.completionReceived_agrees {d : Dev} {e : Nat} {t : Tag} {c : Completion} (htag : (d.ep e).tag c.tag = some t)
    (hagrees : t.agrees (d.ep e) c = true) (htime : d.expired e t = false) : d.completionReceived e c = d.completed e t c := by
  simp [Dev.completionReceived, Dev.cplTimeout_early htag htime, htag, hagrees]

theorem Dev.quarantineEnd_due {d : Dev} {e tag n : Nat} (hfound : (d.ep e).quarantine.find? (fun q => q.1 == tag) = some (tag, n))
    (hdue : n ≤ d.gateNow e) :
    d.quarantineEnd e tag = Dev.serveWants 1 (d.modEp e (fun x =>
      { x with quarantine := x.quarantine.filter (fun q => q.1 != tag), freedTags := x.freedTags ++ [tag] })) e := by
  simp only [Dev.quarantineEnd, hfound, if_neg (Nat.not_lt.2 hdue)]

/-! ## Walks (R274) -/

theorem Dev.walkReadComplete_found {d : Dev} {e id : Nat} {w : Walk} (res : HostRes) (hwalk : tget (d.ep e).walks id = some w) :
    d.walkReadComplete e id res = if w.inHbm then d.walkEnd e id res else d.endRequest e (.walk id) res := by
  simp only [Dev.walkReadComplete, hwalk]

/-! ## Doorbells and pushes (R230, R231, R256) -/

theorem Sq.deaf_active {s : Sq} (h : s.state = .active) : s.deaf = false := by simp [Sq.deaf, h]

theorem Dev.sqDoorbell_inRange {d : Dev} {e q pi : Nat} (hst : (d.sq e q).state = .active)
    (hci : idxDist (d.sq e q).ci pi ≤ 2 ^ (d.sq e q).log) (hpi : idxDist (d.sq e q).pi pi ≤ 2 ^ (d.sq e q).log) :
    d.sqDoorbell e q pi = (d.count (Ctr.doorbells e)).raisePi e q pi := by
  simp [Dev.sqDoorbell, Sq.deaf_active hst, Nat.not_lt.2 hci, Nat.not_lt.2 hpi]

/-- A push to an empty queue that waits for nothing keeps its slots. -/
theorem Dev.sqPush_taken {d : Dev} {e q : Nat} {data : List Byte} (hst : (d.sq e q).state = .active)
    (hempty : (d.sq e q).pi = (d.sq e q).ci) (hheld : (d.sq e q).held = none) (hchain : (d.sq e q).chain = none)
    (hsize : entSize data ≤ 1) :
    d.sqPush e q data = (((d.count (Ctr.doorbells e)).raisePi e q (((d.sq e q).pi + entSize data + 1) % 65536)).count
      (Ctr.pushes e)).modSq e q (fun x => { x with pushed := some (x.ci, sliceBytes data 0 (32 * (entSize data + 1))) }) := by
  simp only [Dev.sqPush, Sq.deaf_active hst, Bool.false_eq_true, if_false, if_neg (Nat.not_lt.2 hsize)]
  exact if_pos ⟨hst, hempty, hheld, hchain⟩

/-- A page's first completion doorbell is that of its even completion queue. -/
theorem Dev.bar2Write_cqDoorbell {d : Dev} {e k : Nat} {data : List Byte} (hopen : d.barOpen e = true) (hk : k < 4096)
    (hlen : data.length = 8) : d.bar2Write e (4096 * k + 0x040) data = d.cqDoorbell e (2 * k) (leNat data) := by
  have hpage : (4096 * k + 0x040) / 4096 = k := by omega
  have hword : (4096 * k + 0x040) % 4096 = 0x040 := by omega
  simp [Dev.bar2Write, hpage, hword, hopen, hlen, Nat.not_le.2 hk]

theorem Dev.cqDoorbell_inRange {d : Dev} {e c v : Nat} (hon : ((d.ep e).cq c).enable = true)
    (hgood : ((d.ep e).cq c).badBell v = false) : d.cqDoorbell e c v = (d.modCq e c (fun q => q.bell v)).fireCq e c := by
  simp [Dev.cqDoorbell, hon, hgood]

/-- Settles O34: ends of requests by the tag that they find, doorbells and pushes by the queue that their offset names. -/
theorem upstreamRequestsAndDoorbellsComplete : Obligations.UpstreamRequestsAndDoorbellsComplete := by
  refine ⟨?completion, ?timeout, ?quarantine, ?walk, ?doorbell, ?push, ?cqDoorbell⟩
  case completion =>
    intro s ep c t data hrun htag hagrees hlate hfailed htime hres
    exact answers_actIf (g := Dev.gatesRun) (f := fun d => d.completionReceived ep c) rfl hrun
      ((Dev.completionReceived_agrees htag hagrees htime).trans (Dev.completed_ok hlate hfailed hres))
  case timeout =>
    intro s ep tag t hrun htag htime
    exact answers_actIf (g := Dev.gatesRun) (f := fun d => d.cplTimeout ep tag) rfl hrun (Dev.cplTimeout_due htag htime)
  case quarantine =>
    intro s ep tag n hrun hfound hdue
    exact answers_actIf (g := Dev.gatesRun) (f := fun d => d.quarantineEnd ep tag) rfl hrun (Dev.quarantineEnd_due hfound hdue)
  case walk =>
    intro s ep walk res w hrun hwalk
    refine (answers_actIf (g := Dev.gatesRun) (f := fun d => d.walkReadComplete ep walk res) rfl hrun
      (Dev.walkReadComplete_found res hwalk)).imp fun d hd => ⟨fun hin => ?_, fun t data hin hout htime hres => ?_⟩
    · rw [hd, if_pos hin]
    · rw [hd, if_neg (by simp [hin]), hres, Dev.endRequest_ok hout htime]
  case doorbell =>
    intro s ep k data hup hopen hk hlen hst hci hpi
    have hoff : 4096 * k = 4096 * (2 * k / 2) + 8 * (2 * k % 2) := by omega
    rw [hoff]
    exact answers_epUp (fun d => d.bar2Write ep _ data) rfl hup
      ((Dev.bar2Write_sqDoorbell hopen (by omega) (.inr hlen)).trans (Dev.sqDoorbell_inRange hst hci hpi))
  case push =>
    intro s ep k data hup hopen hk hlen hst hempty hheld hchain hsize
    have hoff : 4096 * k + 0x800 = 4096 * (2 * k / 2) + 0x800 + 0x400 * (2 * k % 2) := by omega
    rw [hoff]
    exact answers_epUp (fun d => d.bar2Write ep _ data) rfl hup
      ((Dev.bar2Write_sqPush hopen (by omega) hlen).trans (Dev.sqPush_taken hst hempty hheld hchain hsize))
  case cqDoorbell =>
    intro s ep k data hup hopen hk hlen hon hgood
    exact answers_epUp (fun d => d.bar2Write ep _ data) rfl hup
      ((Dev.bar2Write_cqDoorbell hopen hk hlen).trans (Dev.cqDoorbell_inRange hon hgood))

end Sys2Proof.Machine
end
